-- ==== Sys2Proof/Word.lean ====
section
/-!
DEFINITION. The word types of the module and their plainest arithmetic (00 R11, 01 R23).
-/
namespace Sys2Proof

/-- A 32-bit register word (18 R447). -/
abbrev Word := BitVec 32
/-- A 64-bit memory data word (05 R109). -/
abbrev DWord := BitVec 64
/-- One byte of module memory (00 R11). -/
abbrev Byte := BitVec 8

/-- Bits `[lo + w - 1 : lo]` of a natural number read as a bit string. -/
def natBits (n lo w : Nat) : Nat := n / 2 ^ lo % 2 ^ w

/-- `n` read as a two's-complement number of `w` bits. -/
def signedOf (w n : Nat) : Int :=
  if n % 2 ^ w < 2 ^ (w - 1) then (n % 2 ^ w : Nat) else (n % 2 ^ w : Nat) - (2 ^ w : Nat)

/-- The `w`-bit two's-complement code of an integer (wrapping). -/
def codeOf (w : Nat) (i : Int) : Nat := (i % (2 ^ w : Nat)).toNat

end Sys2Proof
end

