-- ==== Sys2Proof/Syntax.lean ====
section
/-!
DEFINITION. The commands the module takes, one per row of the opcode table, with the types of their operands.
-/
namespace Sys2Proof

/-- The family's members (00 R1). -/
inductive Member where
  | xsm8 | xsm4 | xsc1
  deriving DecidableEq, Repr

/-- The three ports that reach the register pages (18 R446). -/
inductive Port where
  | pcie | mgmt | ranger
  deriving DecidableEq, Repr

/-- The rings of a channel: selector and modulator of the transmit side, drop selector of the receive side (11 R274). -/
inductive Ring where
  | sel | mod | drop
  deriving DecidableEq, Repr

/-- The features of configuration space that the module has or lacks (16 R403, *PCIe 6.0 features*). -/
inductive PcieCap where
  | flitMode | tags10 | msi | msix | aer | ecrc | poisoning | flr | resizableBar | aspmL0s | aspmL1 | l1Substates
  | laneMargining | ats | pri | pasid | sriov | doe | ide
  deriving DecidableEq, Repr

/-- What the host asks of configuration space (16 R403, R408): the word at an address, a capability, or a BAR2 size by its
base-2 logarithm. -/
inductive ConfigReq where
  | read (addr : Nat)
  | capability (c : PcieCap)
  | resize (log2 : Nat)
  deriving DecidableEq, Repr

/-- A configuration request, with the count of errors without a module event that the controller has found since the last one
(16 R407; notes/assumptions/55.md). -/
structure ConfigAccess where
  req    : ConfigReq
  errors : Nat
  deriving DecidableEq, Repr

/-- A training record (12, Training record). -/
structure TrainRec where
  rank : Nat
  feed : Nat
  epoch : Nat
  link : Nat
  channel : Nat
  txLine : Nat
  farRd : Nat
  deriving DecidableEq, Repr

/-- An open record (10 R259). `e` is the count of elements the record's stream or bucket holds. -/
structure OpenRec where
  sub : Nat
  fmt : Nat
  e : Nat
  g : Nat
  pos : Nat
  rank : Nat
  digest : Nat
  deriving DecidableEq, Repr

/-- The counts of a bucket report (10 R253, R254). -/
structure Report where
  nan : Nat
  firstNan : Nat
  firstPos : Nat
  sat : Nat
  inf : Nat
  poison : Nat
  deriving DecidableEq, Repr

/-- What a participant states in a barrier (13 R330). -/
structure BarrierRec where
  number : Nat
  step : Nat
  gen : Nat
  jobKey : Nat
  secure : Bool
  deriving DecidableEq, Repr

/-- What a frame's payload says. `data` gives the bytes and, for each 8-byte word, whether it is poisoned (10 R252);
`barrier` its phase and whether the values below differ. -/
inductive Payload where
  | none
  | data (bytes : List Nat) (poison : List Bool)
  | openRec (r : OpenRec)
  | nak (code : Nat)
  | closeFwd (sats : List Nat) (nans : List (Nat × Nat))
  | closeBack (r : Report)
  | signal (id tile sem : Nat) (set : Bool) (value : Nat)
  | signalAck (id : Nat) (ok : Bool)
  | heartbeat
  | lost (rank code : Nat)
  | mgmt (bytes : List Nat)
  | train (r : TrainRec)
  | barrier (phase : Nat) (bad : Bool) (r : BarrierRec)
  | verdict (phase number code : Nat)
  | pair (rank feed ap capacity names : Nat)
  | slotPart (number off : Nat) (bytes : List Nat) (poison : List Bool)
  | trailPart (pos : Nat) (bytes : List Nat)
  | slotAck (number : Nat)
  | trailRec (pos : Nat) (bytes : List Nat)
  | trailAck (pos : Nat)
  | restoreReq (rank number : Nat)
  | restoreSlot (off : Nat) (bytes : List Nat) (poison : List Bool)
  | restoreTrail (off : Nat) (bytes : List Nat)
  deriving DecidableEq, Repr

/-- A frame (12 R315). `reserved` holds the header's three reserved fields, one above the other: bits 87..85, 159..157 and
255..217. -/
structure Frame where
  dst : Nat
  src : Nat
  hopSrc : Nat
  vc : Nat
  typ : Nat
  seq : Nat
  poison : Bool
  last : Bool
  transit : Bool
  fanout : Bool
  replay : Bool
  reserved : Nat
  ttl : Nat
  coll : Nat
  bucket : Nat
  len : Nat
  offset : Nat
  ack : Nat
  ackValid : Bool
  pay : Payload
  deriving DecidableEq, Repr

/-- A frame as a link receives it: the channel of its first flit, the tags of the slots that have come and the CRC after
the payload (12 R315 to R317), and the codewords that the decoders of the link corrected or could not correct meanwhile.
`crcOk` says whether the CRC is right where the spec does not lay out the payload's bytes. -/
structure Rx where
  link : Nat
  chan : Nat
  crcOk : Bool
  tags : List Nat
  crc  : Nat
  corrected : Nat
  lost : Nat
  frame : Frame
  deriving DecidableEq, Repr

/-- What the hardware finds in a start-up stage (16 R412): whether every fused-in unit but the parts below passes, REFCLK's
offset from the on-module reference in 0.1 ppm (none: absent), the combs (engine, comb), lines (engine, line) and channel
sides (link, channel, receive) that fail, the spare lines that fail (tile, number among its 4,096), the engines whose mesh
calibration fails (11 R288), the self-test outcome words of the boot record, and the milliseconds of the start-up so far. -/
structure BootInfo where
  ok    : Bool
  ref   : Option Int
  combs : List (Nat × Nat)
  lines : List (Nat × Nat)
  rings : List (Nat × Nat × Bool)
  spares : List (Nat × Nat)
  meshes : List Nat
  units : List Nat
  ms    : Nat
  deriving DecidableEq, Repr

/-- What resets the PCIe controller (16 R406). -/
inductive PcieReset where
  | perst | hot | linkDown | flr
  deriving DecidableEq, Repr

/-- The ring registers of a queue (06 R138). -/
inductive RingReg where
  | base | sbase | size
  deriving DecidableEq, Repr

/-- One command of the opcode table per constructor, with the operands the row's rule gives it (all plain data). -/
inductive Instr where
  /-- REGISTER_WRITE (R454). -/
  | registerWrite (port : Port) (page off n v : Nat)
  /-- RC_READ (R447). -/
  | rcRead (port : Port) (page off n : Nat)
  /-- PAIR_LOW_READ (R458). -/
  | pairLowRead (port : Port) (page off : Nat)
  /-- PAIR_LOW_WRITE (R459). -/
  | pairLowWrite (port : Port) (page off v : Nat)
  /-- PAIR_HIGH_WRITE (R459). -/
  | pairHighWrite (port : Port) (page off v : Nat)
  /-- PAGE_ERR_CNT_READ (R453). -/
  | pageErrCntRead (port : Port) (page : Nat)
  /-- PAGE_EVT_EN_WRITE (R452). -/
  | pageEvtEnWrite (port : Port) (page v : Nat)
  /-- CAL_DATA_READ (R299). -/
  | calDataRead (port : Port) (engine : Nat)
  /-- PCIE_MEMORY_WRITE (R404). -/
  | pcieMemoryWrite (off : Nat) (bytes : List Nat) (ep : Bool)
  /-- PCIE_MEMORY_READ (R120). -/
  | pcieMemoryRead (off n : Nat) (upsets : List (Nat × Nat))
  /-- PCIE_CONFIG_ACCESS (R408). -/
  | pcieConfigAccess (access : ConfigAccess)
  /-- PCIE_RESET (R406). -/
  | pcieReset (kind : PcieReset)
  /-- CORRQ_REWRITE (R117). -/
  | corrqRewrite (addr : Nat)
  /-- SCRUB_ACCESS (R122). -/
  | scrubAccess (tile : Nat) (stack : Bool) (minutes : Nat) (upsets : List (Nat × Nat))
  /-- SCRUB_LATE (R123). -/
  | scrubLate (tile : Nat) (stack : Bool)
  /-- STACK_TEMP_READ (R128). -/
  | stackTempRead (stack : Nat) (temp : Int)
  /-- SPAD_SOFT_RESET (R134). -/
  | spadSoftReset (port : Port) (tile : Nat)
  /-- SPAD_CLASS_SEL (R134). -/
  | spadClassSel (port : Port) (tile cls : Nat)
  /-- SCRUB_ENABLE (R135). -/
  | scrubEnable (port : Port) (tile : Nat) (on : Bool)
  /-- SCRUB_SOFT_RESET (R135). -/
  | scrubSoftReset (port : Port) (tile : Nat)
  /-- SCRUB_QUIESCE (R135). -/
  | scrubQuiesce (port : Port) (tile : Nat) (on : Bool)
  /-- STK_SOFT_RESET (R136). -/
  | stkSoftReset (port : Port) (stack : Nat)
  /-- STK_QUIESCE (R136). -/
  | stkQuiesce (port : Port) (stack : Nat) (on : Bool)
  /-- QUEUE_RING_WRITE (R138). -/
  | queueRingWrite (port : Port) (tile queue : Nat) (which : RingReg) (v : Nat)
  /-- QUEUE_ENABLE (R138). -/
  | queueEnable (port : Port) (tile queue : Nat)
  /-- QUEUE_DISABLE (R139). -/
  | queueDisable (port : Port) (tile queue : Nat)
  /-- QUEUE_RESET (R139). -/
  | queueReset (port : Port) (tile queue : Nat)
  /-- DOORBELL (R140). -/
  | doorbell (port : Port) (tile queue tail : Nat)
  /-- DESC_FETCH (R141). -/
  | descFetch (t q : Nat)
  /-- DISPATCH (R145). -/
  | dispatch (t q : Nat)
  /-- HAND_OVER (R145). -/
  | handOver (t q : Nat)
  /-- CONTEXT_GRANT (R257). -/
  | contextGrant (vc : Nat)
  /-- DESC_COMPLETE (R148). -/
  | descComplete (t n : Nat)
  /-- NOP (R143). -/
  | nop (t q : Nat)
  /-- WAIT (R151). -/
  | wait (t q : Nat)
  /-- SIGNAL (R155). -/
  | signal (t q : Nat)
  /-- FENCE (R149). -/
  | fence (t q : Nat)
  /-- FENCE_COMPLETE (R149). -/
  | fenceComplete (t q : Nat)
  /-- REPEAT (R158). -/
  | repeatLoop (t q : Nat)
  /-- REPEAT_COMPLETE (R158). -/
  | repeatComplete (t q : Nat)
  /-- Q_WAIT_LIMIT_EXPIRE (R170). -/
  | qWaitLimitExpire (t q : Nat)
  /-- SEM_SET (R154). -/
  | semSet (port : Port) (tile v : Nat)
  /-- SEM_ADD (R154). -/
  | semAdd (port : Port) (tile v : Nat)
  /-- TSEQ_ENABLE (R170). -/
  | tseqEnable (port : Port) (tile : Nat) (on : Bool)
  /-- TSEQ_QUIESCE (R170). -/
  | tseqQuiesce (port : Port) (tile : Nat) (on : Bool)
  /-- TSEQ_SOFT_RESET (R170). -/
  | tseqSoftReset (port : Port) (tile : Nat)
  /-- SEM_CLEAR (R150). -/
  | semClear (port : Port) (tile : Nat)
  /-- MATMUL (R96). -/
  | matmul (t e n : Nat)
  /-- DRAIN (R92). -/
  | drain (t e : Nat)
  /-- BLOCK_DRAIN (R85). -/
  | blockDrain (t e : Nat)
  /-- TE_ENABLE (R94). -/
  | teEnable (port : Port) (engine : Nat) (on : Bool)
  /-- TE_QUIESCE (R94). -/
  | teQuiesce (port : Port) (engine : Nat) (on : Bool)
  /-- TE_SOFT_RESET (R94). -/
  | teSoftReset (port : Port) (engine : Nat)
  /-- MOVE (R169). -/
  | move (t : Nat) (upsets : List (Nat × Nat))
  /-- STASH (R233). -/
  | stash (t : Nat)
  /-- UNSTASH (R233). -/
  | unstash (t : Nat)
  /-- GATHER_AHEAD (R227). -/
  | gatherAhead (t seq : Nat)
  /-- DMA_ENABLE (R463). -/
  | dmaEnable (port : Port) (tile : Nat) (on : Bool)
  /-- DMA_QUIESCE (R463). -/
  | dmaQuiesce (port : Port) (tile : Nat) (on : Bool)
  /-- DMA_SOFT_RESET (R463). -/
  | dmaSoftReset (port : Port) (tile : Nat)
  /-- VEC_ADD (R178). -/
  | vecAdd (t : Nat)
  /-- VEC_SUB (R178). -/
  | vecSub (t : Nat)
  /-- VEC_MUL (R178). -/
  | vecMul (t : Nat)
  /-- VEC_FMA (R178). -/
  | vecFma (t : Nat)
  /-- VEC_DIV (R178). -/
  | vecDiv (t : Nat)
  /-- VEC_SQRT (R178). -/
  | vecSqrt (t : Nat)
  /-- VEC_MAX (R180). -/
  | vecMax (t : Nat)
  /-- VEC_MIN (R180). -/
  | vecMin (t : Nat)
  /-- VEC_ABS (R178). -/
  | vecAbs (t : Nat)
  /-- VEC_NEG (R178). -/
  | vecNeg (t : Nat)
  /-- VEC_SEL (R186). -/
  | vecSel (t : Nat)
  /-- VEC_CVT (R187). -/
  | vecCvt (t : Nat)
  /-- VEC_FILL (R181). -/
  | vecFill (t : Nat)
  /-- VEC_RSQRT (R179). -/
  | vecRsqrt (t : Nat)
  /-- VEC_EXP2 (R179). -/
  | vecExp2 (t : Nat)
  /-- VEC_LOG2 (R179). -/
  | vecLog2 (t : Nat)
  /-- VEC_TANH (R179). -/
  | vecTanh (t : Nat)
  /-- VEC_GELU (R179). -/
  | vecGelu (t : Nat)
  /-- VEC_SILU (R179). -/
  | vecSilu (t : Nat)
  /-- VEC_GELU_BWD (R179). -/
  | vecGeluBwd (t : Nat)
  /-- VEC_SILU_BWD (R179). -/
  | vecSiluBwd (t : Nat)
  /-- VEC_EXP2SUB (R194). -/
  | vecExp2sub (t : Nat)
  /-- VEC_RESCALE_ADD (R195). -/
  | vecRescaleAdd (t : Nat)
  /-- VEC_CMP (R186). -/
  | vecCmp (t : Nat)
  /-- VEC_BITTEST (R183). -/
  | vecBittest (t : Nat)
  /-- VEC_MAND (R186). -/
  | vecMand (t : Nat)
  /-- VEC_MOR (R186). -/
  | vecMor (t : Nat)
  /-- VEC_MXOR (R186). -/
  | vecMxor (t : Nat)
  /-- VEC_MANDN (R186). -/
  | vecMandn (t : Nat)
  /-- VEC_RSUM (R189). -/
  | vecRsum (t : Nat)
  /-- VEC_RMAX (R190). -/
  | vecRmax (t : Nat)
  /-- VEC_RMIN (R190). -/
  | vecRmin (t : Nat)
  /-- VEC_RAMAX (R190). -/
  | vecRamax (t : Nat)
  /-- VEC_TOPK (R191). -/
  | vecTopk (t : Nat)
  /-- OPT_ADAMW (R196). -/
  | optAdamw (t : Nat)
  /-- OPT_SGDM (R196). -/
  | optSgdm (t : Nat)
  /-- VE_ENABLE (R200). -/
  | veEnable (port : Port) (tile : Nat) (on : Bool)
  /-- VE_QUIESCE (R200). -/
  | veQuiesce (port : Port) (tile : Nat) (on : Bool)
  /-- VE_SOFT_RESET (R200). -/
  | veSoftReset (port : Port) (tile : Nat)
  /-- RNG_BITS (R207). -/
  | rngBits (t : Nat)
  /-- RNG_UNIFORM (R208). -/
  | rngUniform (t : Nat)
  /-- RNG_NORMAL (R208). -/
  | rngNormal (t : Nat)
  /-- RNG_BERNOULLI (R208). -/
  | rngBernoulli (t : Nat)
  /-- RNG_SET_STEP (R207). -/
  | rngSetStep (t : Nat)
  /-- RNG_JOB_KEY_WRITE (R204). -/
  | rngJobKeyWrite (port : Port) (tile key : Nat)
  /-- RNG_STEP_WRITE (R204). -/
  | rngStepWrite (port : Port) (tile v : Nat)
  /-- RNG_DRAW_WRITE (R211). -/
  | rngDrawWrite (port : Port) (tile n v : Nat)
  /-- RNG_REALIGN (R211). -/
  | rngRealign (port : Port) (tile : Nat)
  /-- RNG_ENABLE (R225). -/
  | rngEnable (port : Port) (tile : Nat) (on : Bool)
  /-- RNG_QUIESCE (R225). -/
  | rngQuiesce (port : Port) (tile : Nat) (on : Bool)
  /-- RNG_SOFT_RESET (R225). -/
  | rngSoftReset (port : Port) (tile : Nat)
  /-- SCALE_EXPORT (R215). -/
  | scaleExport (t : Nat)
  /-- SCALE_PUSH (R216). -/
  | scalePush (t : Nat)
  /-- SCALE_SET_TARGET (R215). -/
  | scaleSetTarget (t : Nat)
  /-- SCALE_SAVE (R215). -/
  | scaleSave (t : Nat)
  /-- SCALE_LOAD (R215). -/
  | scaleLoad (t : Nat)
  /-- SCALE_WATCH_EXPORT (R219). -/
  | scaleWatchExport (t : Nat)
  /-- SCALE_ENABLE (R225). -/
  | scaleEnable (port : Port) (tile : Nat) (on : Bool)
  /-- SCALE_QUIESCE (R225). -/
  | scaleQuiesce (port : Port) (tile : Nat) (on : Bool)
  /-- SCALE_SOFT_RESET (R225). -/
  | scaleSoftReset (port : Port) (tile : Nat)
  /-- WATCH_IDX_WRITE (R219). -/
  | watchIdxWrite (port : Port) (tile slot : Nat) (clear : Bool)
  /-- WATCH_SOFT_RESET (R225). -/
  | watchSoftReset (port : Port) (tile : Nat)
  /-- NORM_CLEAR (R221). -/
  | normClear (t : Nat)
  /-- NORM_ACCUMULATE (R222). -/
  | normAccumulate (t : Nat)
  /-- NORM_EXCHANGE (R223). -/
  | normExchange (t : Nat)
  /-- NORM_FINAL (R224). -/
  | normFinal (t : Nat)
  /-- NORM_ENABLE (R225). -/
  | normEnable (port : Port) (on : Bool)
  /-- NORM_QUIESCE (R225). -/
  | normQuiesce (port : Port) (on : Bool)
  /-- COLL_ALLREDUCE (R249). -/
  | collAllreduce (vc seq bucket : Nat)
  /-- COLL_REDUCE_SCATTER (R246). -/
  | collReduceScatter (vc seq bucket : Nat)
  /-- COLL_ALLGATHER (R246). -/
  | collAllgather (vc seq bucket : Nat)
  /-- COLL_BROADCAST (R246). -/
  | collBroadcast (vc seq bucket : Nat)
  /-- COLL_ALLTOALL (R245). -/
  | collAlltoall (vc seq bucket : Nat)
  /-- COLL_SEND (R242). -/
  | collSend (vc seq bucket : Nat)
  /-- COLL_RECV (R242). -/
  | collRecv (vc seq bucket : Nat)
  /-- CHAIN_PASS (R79). -/
  | chainPass (vc seq bucket : Nat)
  /-- GROUP_LOAD (R240). -/
  | groupLoad (port : Port) (idx : Nat)
  /-- GROUP_VALIDATE_DONE (R240). -/
  | groupValidateDone
  /-- GROUP_BASE_WRITE (R241). -/
  | groupBaseWrite (port : Port) (count : Bool) (v : Nat)
  /-- COLL_JOB_KEY_WRITE (R250). -/
  | collJobKeyWrite (port : Port) (key : Nat)
  /-- REPORT_BASE_WRITE (R254). -/
  | reportBaseWrite (port : Port) (addr : Nat)
  /-- OPEN_RECEIVE (R259). -/
  | openReceive (rx : Rx)
  /-- ACCEPT_RECEIVE (R259). -/
  | acceptReceive (rx : Rx)
  /-- NAK_RECEIVED (R263). -/
  | nakReceived (rx : Rx)
  /-- RETRY_RECEIVE (R259). -/
  | retryReceive (rx : Rx)
  /-- OPEN_RETRY_TIMEOUT (R259). -/
  | openRetryTimeout (vc seq bucket pos : Nat)
  /-- DATA_RECEIVE (R251). -/
  | dataReceive (rx : Rx)
  /-- PORT_DOWN_END (R322). -/
  | portDownEnd (port : Nat)
  /-- CLOSE_RECEIVE (R261). -/
  | closeReceive (rx : Rx)
  /-- ABORT_RECEIVE (R264). -/
  | abortReceive (rx : Rx)
  /-- CREDIT_RECEIVE (R320). -/
  | creditReceive (rx : Rx)
  /-- ACK_RECEIVE (R319). -/
  | ackReceive (rx : Rx)
  /-- REPLAY_REQ_RECEIVE (R318). -/
  | replayReqReceive (rx : Rx)
  /-- SIGNAL_RECEIVE (R155). -/
  | signalReceive (rx : Rx)
  /-- SIGNAL_ACK_RECEIVE (R155). -/
  | signalAckReceive (rx : Rx)
  /-- MGMT_FRAME_RECEIVE (R315). -/
  | mgmtFrameReceive (rx : Rx)
  /-- FRAME_TRANSMIT (R316). -/
  | frameTransmit (port : Nat)
  /-- FRAME_INCOMPLETE_TIMEOUT (R317). -/
  | frameIncompleteTimeout (link chan corrected lost : Nat)
  /-- ACK_TIMER (R319). -/
  | ackTimer (port : Nat)
  /-- REPLAY_TIMEOUT (R319). -/
  | replayTimeout (port : Nat)
  /-- COLL_WAIT_LIMIT_EXPIRE (R269). -/
  | collWaitLimitExpire
  /-- COLL_ENABLE (R267). -/
  | collEnable (port : Port) (on : Bool)
  /-- COLL_QUIESCE (R267). -/
  | collQuiesce (port : Port) (on : Bool)
  /-- COLL_SOFT_RESET (R267). -/
  | collSoftReset (port : Port)
  /-- COMB_FAILOVER (R272). -/
  | combFailover (engine : Nat)
  /-- COMB_SELECT (R272). -/
  | combSelect (port : Port) (engine sel : Nat)
  /-- LINE_FAILED (R273). -/
  | lineFailed (engine line : Nat)
  /-- LOCK_LOST (R275). -/
  | lockLost (link chan : Nat) (r : Ring)
  /-- RING_ACQUIRE_DONE (R276). -/
  | ringAcquireDone (link chan : Nat) (r : Ring)
  /-- RING_ACQUIRE_FAIL (R276). -/
  | ringAcquireFail (link chan : Nat) (r : Ring)
  /-- RING_SCAN_DONE (R276). -/
  | ringScanDone (link chan : Nat) (r : Ring)
  /-- RING_VERIFY_DONE (R276). -/
  | ringVerifyDone (link chan : Nat) (r : Ring) (line : Nat)
  /-- RING_LIGHT_LOST (R276). -/
  | ringLightLost (link chan : Nat) (r : Ring)
  /-- RING_LIGHT_RESTORED (R276). -/
  | ringLightRestored (link chan : Nat) (r : Ring)
  /-- CH_RETIRED (R278). -/
  | chRetired (link chan : Nat) (rx : Bool)
  /-- CH_REVIVE (R278). -/
  | chRevive (port : Port) (link chan : Nat)
  /-- PILOT_WINDOW (R281). -/
  | pilotWindow (link chan : Nat) (r : Ring) (line : Nat)
  /-- THERMAL_HOLD_END (R284). -/
  | thermalHoldEnd (engine : Nat)
  /-- MESH_COMMIT (R287). -/
  | meshCommit (port : Port) (engine : Nat)
  /-- MESH_COMMIT_DONE (R287). -/
  | meshCommitDone (engine : Nat)
  /-- MESH_CAL (R288). -/
  | meshCal (port : Port) (engine : Nat)
  /-- MESH_CAL_DONE (R288). -/
  | meshCalDone (engine : Nat) (ok : Bool)
  /-- MESH_TRIM (R288). -/
  | meshTrim (engine : Nat) (trims : List (Nat × Nat))
  /-- MONITOR_LOW (R290). -/
  | monitorLow (link chan stage level : Nat) (many : Bool)
  /-- PLUG_SENSOR_CHANGE (R292). -/
  | plugSensorChange (engine : Nat) (mated : Bool)
  /-- LOSS_OF_SIGNAL (R293). -/
  | lossOfSignal (link : Nat)
  /-- PROBE_PULSE (R294). -/
  | probePulse (link : Nat)
  /-- PROBE_LIGHT_DETECT (R294). -/
  | probeLightDetect (link : Nat) (own : Bool)
  /-- PROBE_RESPONSE_END (R294). -/
  | probeResponseEnd (link : Nat)
  /-- SHUTTER_FORCE (R292). -/
  | shutterForce (port : Port) (engine mask : Nat)
  /-- PE_ENABLE (R299). -/
  | peEnable (port : Port) (engine : Nat) (on : Bool)
  /-- PE_SOFT_RESET (R299). -/
  | peSoftReset (port : Port) (engine : Nat)
  /-- PE_QUIESCE (R299). -/
  | peQuiesce (port : Port) (engine : Nat) (on : Bool)
  /-- PECH_ENABLE (R299). -/
  | pechEnable (port : Port) (link : Nat) (on : Bool)
  /-- PECH_SOFT_RESET (R299). -/
  | pechSoftReset (port : Port) (link : Nat)
  /-- PECH_QUIESCE (R299). -/
  | pechQuiesce (port : Port) (link : Nat) (on : Bool)
  /-- LINK_OPT_TEST (R299). -/
  | linkOptTest (port : Port) (link : Nat) (on : Bool)
  /-- LINK_OPT_PARK (R299). -/
  | linkOptPark (port : Port) (link : Nat) (on : Bool)
  /-- TRAIN_SEND (R304). -/
  | trainSend (link chan : Nat)
  /-- TRAIN_RECEIVE (R304). -/
  | trainReceive (link chan : Nat) (r : TrainRec)
  /-- LINK_ENABLE (R323). -/
  | linkEnable (port : Port) (link : Nat) (on : Bool)
  /-- LINK_SOFT_RESET (R323). -/
  | linkSoftReset (port : Port) (link : Nat)
  /-- LINK_QUIESCE (R323). -/
  | linkQuiesce (port : Port) (link : Nat) (on : Bool)
  /-- PLAN_LOAD (R309). -/
  | planLoad (port : Port)
  /-- PLAN_DRAIN_DONE (R309). -/
  | planDrainDone
  /-- PLAN_DRAIN_TIMEOUT (R309). -/
  | planDrainTimeout
  /-- PLAN_READY (R309). -/
  | planReady
  /-- HEARTBEAT_GRACE_END (R310). -/
  | heartbeatGraceEnd
  /-- PORT_FAILOVER (R312). -/
  | portFailover (dest vc : Nat)
  /-- PORT_FAILBACK (R312). -/
  | portFailback (dest vc : Nat)
  /-- CLEARING (R327). -/
  | clearing
  /-- CLEARING_HOLD_DRAINED (R329). -/
  | clearingHoldDrained
  /-- CLR_HOLD_TIMEOUT (R329). -/
  | clrHoldTimeout
  /-- BARRIER_RECORD_RECEIVE (R330). -/
  | barrierRecordReceive (rx : Rx)
  /-- BARRIER_VERDICT_RECEIVE (R330). -/
  | barrierVerdictReceive (rx : Rx)
  /-- CAPTURE_DONE (R331). -/
  | captureDone
  /-- L1_ACK_RECEIVE (R333). -/
  | l1AckReceive (rx : Rx)
  /-- L2_WRITE_DONE (R334). -/
  | l2WriteDone (ok : Bool)
  /-- SNAPSHOT_FRAME_RECEIVE (R333). -/
  | snapshotFrameReceive (rx : Rx)
  /-- TRAIL_MIRROR_RECEIVE (R340). -/
  | trailMirrorReceive (rx : Rx)
  /-- L3_RELEASE (R334). -/
  | l3Release (port : Port)
  /-- PAIR_GO (R335). -/
  | pairGo (port : Port) (rank : Nat)
  /-- PAIR_RECORD_RECEIVE (R335). -/
  | pairRecordReceive (rx : Rx)
  /-- MARK (R339). -/
  | mark
  /-- MIRROR_ACK_RECEIVE (R340). -/
  | mirrorAckReceive (rx : Rx)
  /-- MARK_MIRROR_TIMEOUT (R340). -/
  | markMirrorTimeout
  /-- REPLAY_START (R341). -/
  | replayStart (port : Port)
  /-- REPLAY_STOP (R341). -/
  | replayStop (port : Port)
  /-- HEARTBEAT_SEND (R342). -/
  | heartbeatSend
  /-- HEARTBEAT_RECEIVE (R342). -/
  | heartbeatReceive (rx : Rx)
  /-- HEARTBEAT_MISS (R342). -/
  | heartbeatMiss (rank : Nat)
  /-- LOST_NOTICE_RECEIVE (R343). -/
  | lostNoticeReceive (rx : Rx)
  /-- LOST_CLR (R344). -/
  | lostClr (port : Port)
  /-- RESTORE_GO (R347). -/
  | restoreGo (port : Port) (src asRank : Nat)
  /-- RESTORE_COPY_DONE (R348). -/
  | restoreCopyDone
  /-- RESTORE_REALIGN (R349). -/
  | restoreRealign (port : Port)
  /-- RESTORE_ACCEPT_GEN (R348). -/
  | restoreAcceptGen (port : Port)
  /-- SNAP_ENABLE (R353). -/
  | snapEnable (port : Port) (on : Bool)
  /-- SNAP_SOFT_RESET (R353). -/
  | snapSoftReset (port : Port)
  /-- SNAP_QUIESCE (R353). -/
  | snapQuiesce (port : Port) (on : Bool)
  /-- TRAIL_ENABLE (R353). -/
  | trailEnable (port : Port) (on : Bool)
  /-- TRAIL_SOFT_RESET (R353). -/
  | trailSoftReset (port : Port)
  /-- TRAIL_QUIESCE (R353). -/
  | trailQuiesce (port : Port) (on : Bool)
  /-- ERR_ENTRY_READ (R362). -/
  | errEntryRead (port : Port)
  /-- ERR_POP (R362). -/
  | errPop (port : Port)
  /-- ERR_ACK (R361). -/
  | errAck (port : Port)
  /-- FIREBREAK_FORCE (R370). -/
  | firebreakForce (port : Port)
  /-- FIREBREAK_NOTICE_DONE (R364). -/
  | firebreakNoticeDone
  /-- HUB_CTRL_UC (R355). -/
  | hubCtrlUc (place structure' : Nat)
  /-- UNIT_STATE (R355). -/
  | unitState (tile unit : Nat)
  /-- RAIL_FAULT (R355). -/
  | railFault (elem : Nat)
  /-- CLOCK_LOSS (R391). -/
  | clockLoss (domain : Nat)
  /-- RANGER_WDT (R355). -/
  | rangerWdt
  /-- PWR_REQ (R373). -/
  | pwrReq (port : Port) (state : Nat)
  /-- POWER_TRANSITION_DONE (R373). -/
  | powerTransitionDone (lost : List Nat) (ref : Option Int)
  /-- POWER_QUIESCE_TIMEOUT (R374). -/
  | powerQuiesceTimeout
  /-- AUTO_IDLE (R375). -/
  | autoIdle
  /-- WAKE_PIN (R378). -/
  | wakePin
  /-- ALARM_EXPIRE (R378). -/
  | alarmExpire
  /-- WAKE_STEP_TIMEOUT (R379). -/
  | wakeStepTimeout (elem stage : Nat)
  /-- BCLK_FALLBACK (R380). -/
  | bclkFallback
  /-- CAP_WRITE (R381). -/
  | capWrite (port : Port) (watts : Nat)
  /-- POWER_CONTROL_TICK (R384). -/
  | powerControlTick (watts mv10 ma10 : Nat) (demands : List Nat)
  /-- FAST_LIMIT_ASSERT (R385). -/
  | fastLimitAssert
  /-- FAST_LIMIT_RELEASE (R385). -/
  | fastLimitRelease
  /-- DIE_TEMP_SAMPLE (R386). -/
  | dieTempSample (tile : Nat) (temp : Int)
  /-- THERMAL_SENSOR_SAMPLE (R387). -/
  | thermalSensorSample (sensor : Nat) (temp : Int)
  /-- COOLANT_SAMPLE (R389). -/
  | coolantSample (inlet outlet : Int) (flow ring : Nat) (low100 inlet1s flow1s : Bool)
  /-- TCLK_DIV_WRITE (R392). -/
  | tclkDivWrite (port : Port) (v : Nat)
  /-- TCLK_CHANGE (R392). -/
  | tclkChange (tile : Nat)
  /-- TCLK_CHANGE_DONE (R392). -/
  | tclkChangeDone (tile : Nat)
  /-- SENS_FLAG_CLEAR (R395). -/
  | sensFlagClear (port : Port)
  /-- SENSOR_WINDOW_UPDATE (R395). -/
  | sensorWindowUpdate (a b c d : Word)
  /-- DOMAIN_WAKE_ACCESS (R396). -/
  | domainWakeAccess (id : Nat)
  /-- DOMAIN_IDLE_STOP (R396). -/
  | domainIdleStop (page : Nat)
  /-- ACCESS_TIMEOUT (R397). -/
  | accessTimeout (id : Nat)
  /-- RESET_PIN (R402). -/
  | resetPin
  /-- INPUT_POWER_APPLIED (R402). -/
  | inputPowerApplied
  /-- BOOT_STAGE_DONE (R412). -/
  | bootStageDone (stage : Nat) (b : BootInfo)
  /-- FUSE_CHECK (R417). -/
  | fuseCheck (ok : Bool)
  /-- GET_ID (R410). -/
  | getId (port : Port) (pecOk : Bool)
  /-- SET_COORD (R411). -/
  | setCoord (port : Port) (pecOk : Bool) (rank feed : Nat)
  /-- SET_VALID (R411). -/
  | setValid (port : Port) (pecOk : Bool)
  /-- CLR_VALID (R302). -/
  | clrValid (port : Port) (pecOk : Bool)
  /-- READ_REG (R410). -/
  | readReg (port : Port) (pecOk : Bool) (page off : Nat)
  /-- WRITE_REG (R410). -/
  | writeReg (port : Port) (pecOk : Bool) (page off v : Nat)
  /-- MGMT_PWR_REQ (R410). -/
  | mgmtPwrReq (port : Port) (pecOk : Bool) (state : Nat)
  /-- READ_WAKE (R410). -/
  | readWake (port : Port) (pecOk : Bool)
  /-- CENSUS (R425). -/
  | census (port : Port) (pecOk : Bool)
  /-- CENSUS_GO (R425). -/
  | censusGo (port : Port)
  /-- CENSUS_DONE (R425). -/
  | censusDone
  /-- READ_ERR (R362). -/
  | readErr (port : Port) (pecOk : Bool)
  /-- ACK_ERR (R361). -/
  | ackErr (port : Port) (pecOk : Bool)
  /-- RESET (R402). -/
  | reset (port : Port) (pecOk : Bool) (key : Nat)
  /-- FW_WRITE (R415). -/
  | fwWrite (port : Port) (pecOk : Bool) (addr len : Nat)
  /-- FW_ACTIVATE (R415). -/
  | fwActivate (port : Port) (pecOk : Bool) (slot : Nat)
  /-- MGMT_TIMEOUT (R367). -/
  | mgmtTimeout
  /-- ALERT_RESPONSE (R409). -/
  | alertResponse
  /-- DBG_REQUEST (R420). -/
  | dbgRequest (port : Port) (scope : Nat)
  /-- DBG_SUBMIT (R420). -/
  | dbgSubmit (port : Port)
  /-- FLASH_READ (R422). -/
  | flashRead (port : Port) (dead : List Nat)
  /-- FLASH_WRITE (R422). -/
  | flashWrite (port : Port)
  /-- FLASH_TRIM (R422). -/
  | flashTrim (port : Port)
  /-- FLASH_FLUSH (R422). -/
  | flashFlush (port : Port)
  /-- FLASH_CMD_DONE (R422). -/
  | flashCmdDone
  /-- SERVICE_BUTTON (R435). -/
  | serviceButton
  /-- SVC_PARK (R435). -/
  | svcPark (port : Port)
  /-- SVC_CANCEL (R435). -/
  | svcCancel (port : Port)
  /-- SVC_UNPARK (R438). -/
  | svcUnpark (port : Port)
  /-- PARK_FENCE (R436). -/
  | parkFence
  /-- PARK_TIMEOUT (R436). -/
  | parkTimeout
  /-- LATCH_SENSOR_OPEN (R439). -/
  | latchSensorOpen
  /-- LATCH_SENSOR_CLOSE (R440). -/
  | latchSensorClose
  /-- PHY_CHECK (R465). -/
  | phyCheck (stack : Nat) (ok : Bool)
  /-- PHY_RETRAIN_DONE (R465). -/
  | phyRetrainDone (stack : Nat) (ok : Bool) (us : Nat)
  /-- STKPHY_SOFT_RESET (R465). -/
  | stkphySoftReset (port : Port) (stack : Nat)
  /-- INPUT_POWER_LOST (R378). -/
  | inputPowerLost
  /-- FEC_DECODER_LOCK (R304). -/
  | fecDecoderLock (link chan : Nat) (locked : Bool)
  /-- RESTORE_REQUEST_RECEIVE (R347). -/
  | restoreRequestReceive (rx : Rx)
  /-- RESTORE_FRAME_RECEIVE (R20). -/
  | restoreFrameReceive (rx : Rx)
  /-- TRAIL_FLUSH_DONE (R340). -/
  | trailFlushDone
  deriving DecidableEq, Repr

end Sys2Proof
end

