-- ==== Sys2Proof/Decode.lean ====
section
/-!
DEFINITION. The command a word spells by the opcode table's bits. The module takes commands from outside and the table
gives no row any bits, so no word spells a command.
-/
namespace Sys2Proof

def decodeTableWord (_nbits _w : Nat) : Option Instr := none

end Sys2Proof
end

