-- ==== Sys2Proof/Machine/Float.lean ====
section
/-!
DEFINITION. Values of the element formats, their exact arithmetic, and rounding once to a format
(02 R31, R35 to R40, R44, R46 to R56).  A finite value is kept exactly, as sign, natural mantissa and integer
exponent, so a result is computed exactly and narrowed at one place.
-/
namespace Sys2Proof.Machine

/-- An element's value: NaN, an infinity, or the exact number (−1)^neg × man × 2^exp (02 R44). -/
inductive Val where
  | nan
  | inf (neg : Bool)
  | fin (neg : Bool) (man : Nat) (exp : Int)
  deriving DecidableEq, Repr

/-- The binary floating formats: exponent bits, fraction bits and bias; `top` is the largest significand the format
holds at its largest exponent and `emax` that exponent; W8 has no infinity (02 R36 to R40). -/
structure FloatFmt where
  ebits : Nat
  fbits : Nat
  bias  : Nat
  emax  : Int
  top   : Nat
  hasInf : Bool
  deriving DecidableEq, Repr

/-- FP16 and the element code of W16 (02 R35, R40). -/
def fp16Fmt : FloatFmt := ⟨5, 10, 15, 15, 2047, true⟩
/-- FP32 (02 R35). -/
def fp32Fmt : FloatFmt := ⟨8, 23, 127, 127, 16777215, true⟩
/-- M48: FP32 with 16 more fraction bits (02 R36). -/
def m48Fmt : FloatFmt := ⟨8, 39, 127, 127, 1099511627775, true⟩
/-- BIN64 (02 R38). -/
def bin64Fmt : FloatFmt := ⟨11, 52, 1023, 1023, 9007199254740991, true⟩
/-- The element code of W8: largest finite 448 = 14 × 2^5 and no infinity (02 R39). -/
def w8Fmt : FloatFmt := ⟨4, 3, 7, 8, 14, false⟩

/-- The smallest normal exponent of a format. -/
def FloatFmt.emin (f : FloatFmt) : Int := 1 - (f.bias : Int)
/-- Bits of one code. -/
def FloatFmt.width (f : FloatFmt) : Nat := 1 + f.ebits + f.fbits
/-- The sign bit's weight. -/
def FloatFmt.signBit (f : FloatFmt) : Nat := 2 ^ (f.ebits + f.fbits)
/-- The code of +Inf. -/
def FloatFmt.infCode (f : FloatFmt) : Nat := (2 ^ f.ebits - 1) * 2 ^ f.fbits
/-- The canonical NaN (02 R53): a quiet bit under an exponent of all ones; 0x7F for W8. -/
def FloatFmt.nanCode (f : FloatFmt) : Nat :=
  if f.hasInf then f.infCode + 2 ^ (f.fbits - 1) else f.infCode + (2 ^ f.fbits - 1)
/-- The code of the largest finite magnitude (02 R51). -/
def FloatFmt.maxCode (f : FloatFmt) : Nat := if f.hasInf then f.infCode - 1 else f.infCode + (2 ^ f.fbits - 2)

/-- Reads a code of a floating format (02 R35 to R40); every NaN payload reads as NaN (R53). -/
def FloatFmt.decode (f : FloatFmt) (w : Nat) : Val :=
  let neg := natBits w (f.ebits + f.fbits) 1 == 1
  let e := natBits w f.fbits f.ebits
  let m := natBits w 0 f.fbits
  if e = 2 ^ f.ebits - 1 ∧ f.hasInf then
    if m = 0 then .inf neg else .nan
  else if e = 2 ^ f.ebits - 1 ∧ m = 2 ^ f.fbits - 1 then .nan
  else if e = 0 then .fin neg m (f.emin - f.fbits)
  else .fin neg (2 ^ f.fbits + m) ((e : Int) - f.bias - f.fbits)

/-- The two rounding modes (02 R45, R47, R48); stochastic rounding carries its 32-bit random word. -/
inductive Rnd where
  | rne
  | sr (word : Nat)
  deriving DecidableEq, Repr

/-- Whether the magnitude is rounded up: `q0` the truncated significand, `r` the remainder below the last place of
weight `2^d` (02 R47, R48). -/
def Rnd.up (m : Rnd) (q0 r d : Nat) : Bool :=
  match m with
  | .rne => decide (2 ^ d < 2 * r) || (decide (2 * r = 2 ^ d) && decide (q0 % 2 = 1))
  | .sr word =>
    let dd := if 32 ≤ d then r / 2 ^ (d - 32) else r * 2 ^ (32 - d)
    decide (2 ^ 32 ≤ dd + word % 2 ^ 32)

/-- A rounded magnitude `q × 2^e` and whether it differs from the exact one. -/
structure Rounded where
  q : Nat
  e : Int
  inexact : Bool
  deriving DecidableEq, Repr

/-- Rounds `man × 2^exp` at the last place `2^e`. -/
def roundAt (m : Rnd) (man : Nat) (exp e : Int) : Rounded :=
  if e ≤ exp then ⟨man * 2 ^ (exp - e).toNat, e, false⟩
  else
    let d := (e - exp).toNat
    let q0 := man / 2 ^ d
    let r := man % 2 ^ d
    ⟨if m.up q0 r d then q0 + 1 else q0, e, decide (r ≠ 0)⟩

/-- The exponent of the leading one of `man × 2^exp`, for `man ≠ 0`. -/
def topExp (man : Nat) (exp : Int) : Int := (Nat.log2 man : Int) + exp

/-- The place of the target's least significant bit at a magnitude: the subnormal quantum in the subnormal range
(02 R48). -/
def FloatFmt.lastPlace (f : FloatFmt) (man : Nat) (exp : Int) : Int :=
  max (topExp man exp - f.fbits) (f.emin - f.fbits)

/-- Rounds a magnitude to a format with an unbounded exponent above (02 R46 to R48, R50). -/
def FloatFmt.roundMag (f : FloatFmt) (m : Rnd) (man : Nat) (exp : Int) : Rounded :=
  if man = 0 then ⟨0, 0, false⟩ else roundAt m man exp (f.lastPlace man exp)

/-- Whether a rounded magnitude exceeds the largest finite value (02 R50). -/
def FloatFmt.overflows (f : FloatFmt) (r : Rounded) : Bool :=
  if r.q = 0 then false
  else if topExp r.q r.e > f.emax then true
  else if topExp r.q r.e < f.emax then false
  else
    -- same leading exponent: compare significands at a common scale
    let k := f.emax - f.fbits
    if r.e ≤ k then decide (f.top * 2 ^ (k - r.e).toNat < r.q) else decide (f.top < r.q * 2 ^ (r.e - k).toNat)

/-- The magnitude code of a rounded value that does not overflow. -/
def FloatFmt.magCode (f : FloatFmt) (r : Rounded) : Nat :=
  if r.q = 0 then 0
  else
    let t := topExp r.q r.e
    if t < f.emin then r.q * 2 ^ (r.e - (f.emin - f.fbits)).toNat
    else
      let l := Nat.log2 r.q
      let sig := if f.fbits ≤ l then r.q / 2 ^ (l - f.fbits) else r.q * 2 ^ (f.fbits - l)
      (t + f.bias).toNat * 2 ^ f.fbits + (sig - 2 ^ f.fbits)

/-- Sign bit of a code. -/
def FloatFmt.signOf (f : FloatFmt) (neg : Bool) : Nat := if neg then f.signBit else 0

/-- Rounds a value to the nearest code, overflow giving an infinity: the arithmetic of binary32 and binary64
registers (IEEE 754, round to nearest, ties to even). -/
def FloatFmt.ofVal (f : FloatFmt) (v : Val) : Nat :=
  match v with
  | .nan => f.nanCode
  | .inf neg => f.signOf neg + f.infCode
  | .fin neg man exp =>
    let r := f.roundMag .rne man exp
    f.signOf neg + (if f.overflows r then f.infCode else f.magCode r)

/-- Rounds a value to a format and keeps it as a value. -/
def FloatFmt.roundVal (f : FloatFmt) (v : Val) : Val := f.decode (f.ofVal v)

/-! ### Exact arithmetic on values -/

/-- The sign of a value (a NaN has none: false). -/
def Val.neg : Val → Bool
  | .nan => false
  | .inf n => n
  | .fin n _ _ => n

/-- −v; a NaN stays NaN. -/
def Val.negate : Val → Val
  | .nan => .nan
  | .inf n => .inf (!n)
  | .fin n m e => .fin (!n) m e

/-- |v|; a NaN stays NaN. -/
def Val.abs : Val → Val
  | .nan => .nan
  | .inf _ => .inf false
  | .fin _ m e => .fin false m e

def Val.isNan : Val → Bool
  | .nan => true
  | _ => false

def Val.isInf : Val → Bool
  | .inf _ => true
  | _ => false

def Val.isZero : Val → Bool
  | .fin _ 0 _ => true
  | _ => false

def Val.isFinite : Val → Bool
  | .fin .. => true
  | _ => false

/-- The zero of a sign. -/
def Val.zero (neg : Bool) : Val := .fin neg 0 0

/-- The integer mantissa of a finite value at exponent `e ≤ exp`. -/
def scaledInt (neg : Bool) (man : Nat) (exp e : Int) : Int :=
  let a : Int := (man * 2 ^ (exp - e).toNat : Nat)
  if neg then -a else a

/-- A finite value from a signed integer; a zero takes the sign given. -/
def Val.ofInt (zeroNeg : Bool) (i : Int) (e : Int) : Val :=
  if i = 0 then .fin zeroNeg 0 0 else .fin (decide (i < 0)) i.natAbs e

/-- Exact a + b (IEEE 754 under round to nearest: opposite infinities give NaN, an exact cancellation gives +0,
equal-signed zeros keep their sign). -/
def Val.add (a b : Val) : Val :=
  match a, b with
  | .nan, _ | _, .nan => .nan
  | .inf x, .inf y => if x = y then .inf x else .nan
  | .inf x, .fin .. => .inf x
  | .fin .., .inf y => .inf y
  | .fin na ma ea, .fin nb mb eb =>
    if ma = 0 ∧ mb = 0 then .fin (na && nb) 0 0
    else if ma = 0 then .fin nb mb eb
    else if mb = 0 then .fin na ma ea
    else
      let e := min ea eb
      Val.ofInt false (scaledInt na ma ea e + scaledInt nb mb eb e) e

/-- Exact a − b. -/
def Val.sub (a b : Val) : Val := a.add b.negate

/-- Exact a × b (0 × Inf is NaN). -/
def Val.mul (a b : Val) : Val :=
  match a, b with
  | .nan, _ | _, .nan => .nan
  | .inf x, .inf y => .inf (x != y)
  | .inf x, .fin y m _ => if m = 0 then .nan else .inf (x != y)
  | .fin x m _, .inf y => if m = 0 then .nan else .inf (x != y)
  | .fin x ma ea, .fin y mb eb => .fin (x != y) (ma * mb) (ea + eb)

/-- a × 2^k. -/
def Val.scale2 (a : Val) (k : Int) : Val :=
  match a with
  | .fin n m e => if m = 0 then .fin n 0 0 else .fin n m (e + k)
  | v => v

/-- The quotient to more bits than any target keeps, with a sticky last bit, so that rounding it once to nearest gives
the correctly rounded quotient. -/
def Val.div (a b : Val) : Val :=
  match a, b with
  | .nan, _ | _, .nan => .nan
  | .inf _, .inf _ => .nan
  | .inf x, .fin y _ _ => .inf (x != y)
  | .fin x _ _, .inf y => .fin (x != y) 0 0
  | .fin x ma ea, .fin y mb eb =>
    if mb = 0 then (if ma = 0 then .nan else .inf (x != y))
    else if ma = 0 then .fin (x != y) 0 0
    else
      let k := 130 + Nat.log2 mb
      let q := ma * 2 ^ k / mb
      let sticky := if ma * 2 ^ k % mb = 0 then 0 else 1
      .fin (x != y) (2 * q + sticky) (ea - eb - k - 1)

/-- One step of the integer square root: the bit of weight `2^i` is kept if the square still fits. -/
def isqrtFrom (n : Nat) : Nat → Nat → Nat
  | 0, acc => acc
  | i + 1, acc =>
    let t := acc + 2 ^ i
    isqrtFrom n i (if t * t ≤ n then t else acc)

/-- The floor of the square root. -/
def isqrt (n : Nat) : Nat := isqrtFrom n (Nat.log2 n / 2 + 1) 0

/-- The square root to more bits than any target keeps, with a sticky last bit; −0 gives −0 and a negative number NaN. -/
def Val.sqrt (a : Val) : Val :=
  match a with
  | .nan => .nan
  | .inf neg => if neg then .nan else .inf false
  | .fin neg m e =>
    if m = 0 then .fin neg 0 0
    else if neg then .nan
    else
      let k : Nat := if e % 2 = 0 then 260 else 261
      let n := m * 2 ^ k
      let r := isqrt n
      let sticky := if r * r = n then 0 else 1
      .fin false (2 * r + sticky) ((e - k) / 2 - 1)

/-- The exact order of two finite values: a < b. -/
def Val.ltFin (na : Bool) (ma : Nat) (ea : Int) (nb : Bool) (mb : Nat) (eb : Int) : Bool :=
  let e := min ea eb
  decide (scaledInt na ma ea e < scaledInt nb mb eb e)

/-- IEEE a < b; false when either is NaN; zeros are equal whatever their sign. -/
def Val.lt (a b : Val) : Bool :=
  match a, b with
  | .nan, _ | _, .nan => false
  | .inf x, .inf y => x && !y
  | .inf x, .fin .. => x
  | .fin .., .inf y => !y
  | .fin na ma ea, .fin nb mb eb => Val.ltFin na ma ea nb mb eb

/-- IEEE a = b; false when either is NaN. -/
def Val.eqv (a b : Val) : Bool := !a.isNan && !b.isNan && !a.lt b && !b.lt a

/-- IEEE a ≤ b. -/
def Val.le (a b : Val) : Bool := a.lt b || a.eqv b

/-- The value 1. -/
def Val.one : Val := .fin false 1 0

end Sys2Proof.Machine
end

