-- ==== Sys2Proof/Machine/Approx.lean ====
section
/-!
DEFINITION. What the function class may return: the exact functions of 03 R86, R87, 07 R186 and 08 R207 to some 390 binary
places, in whole-number arithmetic, and whether a binary32 result lies within a stated number of units in the last place.
-/
namespace Sys2Proof.Machine
namespace Approx

/-- Binary places of the fixed-point numbers below. -/
def places : Nat := 400
def one : Nat := 2 ^ places
/-- ln 2, log2 e, √(2/π) and 2π, each times 2^400. -/
def ln2 : Nat :=
  1789879222497203190815761498240779176894896805856420935579692301363062920687047601279850318367644315849030039181347319086
def log2e : Nat :=
  3725399093452113361508878261685348397064333121840474113669779251110053462896811095071531244706817557295705407090210624801
def sqrt2Pi : Nat :=
  2060337309860625669158887524896583040847384015804865113243324589387049149478680161082114736606036866790242378560860575272
def twoPi : Nat :=
  16224754493461942477724542702601789038322303200358530407182382075230461810747980997491046721853633630855133559454655152472

/-- A finite value in fixed point, rounded down; 0 for the rest. -/
def toFix : Val → Int
  | .fin neg m e =>
    let a : Nat := if 0 ≤ e + places then m * 2 ^ (e + places).toNat else m / 2 ^ (-(e + places)).toNat
    if neg then -(a : Int) else a
  | _ => 0
def ofFix (i : Int) : Val := Val.ofInt false i (-(places : Int))

/-- Σ z^k / k! from the innermost term out: 1 + z/1 · (1 + z/2 · (…)). -/
def expLoop (z : Nat) : Nat → Nat → Nat
  | 0, acc => acc
  | k + 1, acc => expLoop z k (one + acc * z / one / (k + 1))

/-- 2^v. Past ±4096 every result is past binary32 too. -/
def exp2 (v : Val) : Val :=
  match v with
  | .fin neg m e =>
    if m = 0 then Val.one
    else if 12 ≤ topExp m e then (if neg then .fin false 1 (-4096) else .fin false 1 4096)
    else
      let t := toFix v
      let i := t / (one : Int)
      let f := (t % (one : Int)).toNat
      .fin false (expLoop (f * ln2 / one) 96 one) (i - places)
  | _ => Val.one

/-- e^v. -/
def exp (v : Val) : Val := exp2 (v.mul (.fin false log2e (-(places : Int))))

/-- Σ r^(2j) / (2j + 1), from the last of `k` terms out. -/
def atanhLoop (r2 : Nat) : Nat → Nat → Nat
  | 0, acc => acc
  | k + 1, acc => atanhLoop r2 k (one / (2 * k + 1) + acc * r2 / one)

/-- ln v in fixed point, for v > 0. -/
def lnFix (v : Val) : Int :=
  match v with
  | .fin _ m e =>
    let k := Nat.log2 m
    let x := m * one / 2 ^ k
    let r := (x - one) * one / (x + one)
    ((2 * (atanhLoop (r * r / one) 140 0 * r / one) : Nat) : Int) + ((k : Int) + e) * ln2
  | _ => 0

/-- Σ of the cosine series from the innermost term out. -/
def cosLoop (x2 : Int) : Nat → Int → Int
  | 0, acc => acc
  | k + 1, acc => cosLoop x2 k (one - acc * x2 / one / ((2 * k + 1) * (2 * k + 2)))

/-- cos(2π u) for u in [0, 1). -/
def cosTurn (u : Val) : Val :=
  let f := toFix u
  let g := if (one : Int) / 2 < f then f - one else f
  let x := g * twoPi / one
  ofFix (cosLoop (x * x / one) 70 one)

/-- 1 / (1 + e^−v). -/
def sigmoid (v : Val) : Val := Val.one.div (Val.one.add (exp v.negate))
/-- (e^2v − 1) / (e^2v + 1). -/
def tanh (v : Val) : Val :=
  let x := exp (v.scale2 1)
  (x.sub Val.one).div (x.add Val.one)

def half : Val := .fin false 1 (-1)
def root2Pi : Val := .fin false sqrt2Pi (-(places : Int))
/-- 0.044715, to 400 places. -/
def cube : Val := .fin false (44715 * one / 1000000) (-(places : Int))

/-- u = √(2/π)(v + 0.044715 v³), and its derivative. -/
def geluArg (v : Val) : Val := root2Pi.mul (v.add (cube.mul (v.mul (v.mul v))))
def geluArg' (v : Val) : Val := root2Pi.mul (Val.one.add ((cube.mul (.fin false 3 0)).mul (v.mul v)))

/-- 0.5 v (1 + tanh u) = v σ(2u), and v σ(v). -/
def gelu (v : Val) : Val := v.mul (sigmoid ((geluArg v).scale2 1))
def silu (v : Val) : Val := v.mul (sigmoid v)
/-- Their derivatives. -/
def gelu' (v : Val) : Val :=
  let p := sigmoid ((geluArg v).scale2 1)
  let q := sigmoid ((geluArg v).scale2 1).negate
  p.add ((v.mul (p.mul q)).mul ((geluArg' v).scale2 1))
def silu' (v : Val) : Val :=
  let p := sigmoid v
  p.add (v.mul (p.mul (sigmoid v.negate)))

/-- Whether a value is finite and above 0. -/
def pos (v : Val) : Bool := v.isFinite && !v.isZero && !v.neg

/-- The exact value of a function on finite operands where it has one (07, Vector operations). -/
def exact (fn : Nat) (a b : Val) : Option Val :=
  if !a.isFinite || !b.isFinite then none
  else
    match fn with
    | 0x10 => if pos a then some (Val.one.div a.sqrt) else none
    | 0x11 => some (exp2 a)
    | 0x12 => if pos a then some (ofFix (lnFix a * one / ln2)) else none
    | 0x13 => some (tanh a)
    | 0x14 => some (gelu a)
    | 0x15 => some (silu a)
    | 0x16 => some (a.mul (gelu' b))
    | 0x17 => some (a.mul (silu' b))
    | _ => none

/-- The stated accuracy in units in the last place. -/
def ulps (fn : Nat) : Nat := if fn < 0x13 then 1 else if fn < 0x16 then 2 else 3

/-- √(−2 ln u1) cos(2π u2) σ (08 R207), to 4 units (R208). -/
def normal (w0 w1 : Nat) (sigma : Val) : Option Val :=
  if sigma.isFinite then
    let u1 : Val := .fin false (w0 + 1) (-24)
    some (((ofFix (-2 * lnFix u1)).sqrt.mul (cosTurn (.fin false w1 (-24)))).mul sigma)
  else none

/-- `n` units in the last place of binary32 at a value. -/
def slack (n : Nat) (x : Val) : Val :=
  match x with
  | .fin _ m e => .fin false n (if m = 0 then -149 else fp32Fmt.lastPlace m e)
  | _ => .fin false 0 0

/-- Whether a binary32 value is within `n` units of the exact one. -/
def near (n : Nat) (x c : Val) : Bool := c.isFinite && ((x.sub c).abs).le (slack n x)
/-- Whether a result within `n` units of the exact one may be too large for binary32. -/
def mayOverflow (n : Nat) (x : Val) : Bool := (Val.fin false (2 ^ 25 - 1) 103).le (x.abs.add (slack n x))

end Approx
end Sys2Proof.Machine
end

