-- ==== Sys2Proof/Machine/Accum.lean ====
section
/-!
DEFINITION. The reference order of accumulation: product, group, run and total (03 R68 to R73, 04 R96, R97).
-/
namespace Sys2Proof.Machine

/-- The exponent of a decoded operand's leading bit (02 R44). -/
def Val.leadExp : Val → Int
  | .fin _ m e => topExp m e
  | _ => 0

/-- A product of two decoded operands: its exact value, and e = E_a + E_b when it is finite and nonzero (03 R68). -/
structure Product where
  val : Val
  e   : Int
  deriving DecidableEq, Repr

/-- Forms one product exactly (03 R68). -/
def product (a b : Val) : Product := ⟨a.mul b, a.leadExp + b.leadExp⟩

/-- The largest exponent of a list of nonzero products. -/
def maxExp : List Product → Int → Int
  | [], acc => acc
  | p :: r, acc => maxExp r (max acc p.e)

/-- A product's magnitude in units of 2^q, truncated, then signed (03 R69 step 3). -/
def placed (q : Int) (p : Product) : Int :=
  match p.val with
  | .fin neg m e =>
    let mag : Nat := if q ≤ e then m * 2 ^ (e - q).toNat else m / 2 ^ (q - e).toNat
    if neg then -(mag : Int) else (mag : Int)
  | _ => 0

/-- The exact sum of the placed products. -/
def placedSum (q : Int) : List Product → Int
  | [] => 0
  | p :: r => placed q p + placedSum q r

/-- Binary32 bits and whether a finite computation overflowed to an infinity (ACC_INF). -/
structure Acc32 where
  bits : Nat
  inf  : Bool
  deriving DecidableEq, Repr

/-- Rounds an exact value to binary32 and notes an overflow from a finite value. -/
def acc32 (v : Val) : Acc32 :=
  match v with
  | .fin neg m e => ⟨fp32Fmt.ofVal (.fin neg m e), fp32Fmt.overflows (fp32Fmt.roundMag .rne m e)⟩
  | v => ⟨fp32Fmt.ofVal v, false⟩

/-- The value of a group from its present products, the window being `w` bits wide (03 R69 to R71). -/
def groupValue (w : Nat) (ps : List Product) : Acc32 :=
  if ps.any (fun p => p.val.isNan) then ⟨fp32Fmt.nanCode, false⟩
  else
    let pos := ps.any (fun p => decide (p.val = .inf false))
    let neg := ps.any (fun p => decide (p.val = .inf true))
    if pos && neg then ⟨fp32Fmt.nanCode, false⟩
    else if pos then ⟨fp32Fmt.ofVal (.inf false), false⟩
    else if neg then ⟨fp32Fmt.ofVal (.inf true), false⟩
    else
      match ps.filter (fun p => !p.val.isZero) with
      | [] => ⟨fp32Fmt.ofVal (.zero (ps.all (fun p => p.val.neg))), false⟩
      | p :: r =>
        let q := maxExp r p.e + 2 - w
        acc32 (Val.ofInt false (placedSum q (p :: r)) q)

/-- Binary32 addition, round to nearest even (03 R72). -/
def add32 (a b : Acc32) : Acc32 :=
  let x := acc32 ((fp32Fmt.decode a.bits).add (fp32Fmt.decode b.bits))
  ⟨x.bits, a.inf || b.inf || x.inf⟩

/-- One level of the run tree: leaves paired (0, 1), (2, 3) and so on; a leaf without a partner passes unchanged. -/
def pairLevel : List Acc32 → List Acc32
  | a :: b :: r => add32 a b :: pairLevel r
  | l => l

/-- The run tree over at most 2^n present groups. -/
def runTree : Nat → List Acc32 → Acc32
  | 0, l => l.headD ⟨0, false⟩
  | n + 1, l => runTree n (pairLevel l)

/-- The binary32 value of a run of 1 to 32 group values (03 R72). -/
def runValue (gs : List Acc32) : Acc32 := runTree 5 gs

/-- The exact value of a binary32 code. -/
def val32 (bits : Nat) : Val := fp32Fmt.decode bits
/-- The exact value of a binary64 code. -/
def val64 (bits : Nat) : Val := bin64Fmt.decode bits

/-- Adds a run value, promoted exactly, to a binary64 total, round to nearest even (03 R73). -/
def addRun (total : Nat) (run : Acc32) : Nat := bin64Fmt.ofVal ((val64 total).add (val32 run.bits))

/-- Binary64 addition, round to nearest even. -/
def add64 (a b : Nat) : Nat := bin64Fmt.ofVal ((val64 a).add (val64 b))

/-- Cuts a list into consecutive pieces of `n` elements, the last one shorter; `fuel` bounds the pieces. -/
def chunks {α : Type} (n : Nat) : Nat → List α → List (List α)
  | 0, _ => []
  | fuel + 1, l =>
    match l with
    | [] => []
    | l => l.take n :: chunks n fuel (l.drop n)

/-- The window width of a format pair (03 R69): 40 bits when both operands are FP16, 64 otherwise. -/
def windowWidth (pair16 : Bool) : Nat := if pair16 then 40 else 64

/-- The group values of a stretch of K, in ascending order (03 R69, R71). -/
def groupValues (pair16 : Bool) (ps : List (Val × Val)) : List Acc32 :=
  (chunks 32 (ps.length + 1) (ps.map fun x => product x.1 x.2)).map (groupValue (windowWidth pair16))

/-- The whole-descriptor total of the reference order: runs of `runLen` groups added in ascending K order
(04 R96, R97). -/
def matmulTotal (pair16 : Bool) (runLen : Nat) (start : Nat) (ps : List (Val × Val)) : Nat :=
  let gs := groupValues pair16 ps
  (chunks runLen (gs.length + 1) gs).foldl (fun t run => addRun t (runValue run)) start

end Sys2Proof.Machine
end

