-- ==== Sys2Proof/Config.lean ====
section
/-!
DEFINITION. What one implementation fixes and the spec leaves open: constants without a body, so that a statement about
a run holds whatever they are.
-/
namespace Sys2Proof.Config

/-- A free value: what the spec calls undefined, or a value it does not state. The step applies it to the counter
`State.free` and advances the counter, so every use is a fresh value (notes/assumptions/3.md). -/
opaque freeValue : Nat → BitVec 64

/-- The function-class results on ordinary inputs: unit algorithm number, then the operand codes, in the working width
`w` of 32 or 64 bits. The spec fixes each result only to a bound in units of the last place and says that every member
returns the same bits (03 R86, 07 R179; notes/assumptions/12.md). -/
opaque fnClass : (fn w a b : Nat) → Nat

/-- The stack controller's fixed mapping of a unit's offset bits x[35:14] to a bank's row, which software cannot see
(05 R125, R131). -/
opaque stackRow : (stack x : Nat) → Nat

/-- The understory lines and the stack rows, by the keys of 05 R131, that the fuses' repair data name; the coding of the field
is not stated (16 R417). -/
opaque fuseLines : (repair : BitVec 16384) → List Nat
opaque fuseRows : (repair : BitVec 16384) → List Nat

/-- The SHA-384 hash of the public key that an image carries, and whether its ECDSA P-384 signature verifies
(16 R413). -/
opaque firmwareKeyHash : (image : List (BitVec 8)) → List (BitVec 8)
opaque firmwareSigned : (image : List (BitVec 8)) → Bool
/-- The security version an image carries (16 R413). -/
opaque firmwareSvn : (image : List (BitVec 8)) → Nat
/-- The member code an image is built for (16 R413). -/
opaque firmwareMember : (image : List (BitVec 8)) → Nat
/-- The version number an image carries (16 R427, FW_VER). -/
opaque firmwareVersion : (image : List (BitVec 8)) → Nat

/-- The random debug challenge of the `n`-th request (16 R420 step 2). -/
opaque debugChallenge : (n : Nat) → List (BitVec 32)
/-- Whether a debug response verifies with the key of this hash (16 R417, R420 step 3). -/
opaque debugOk : (keyHash : List (BitVec 8)) → (challenge response : List (BitVec 32)) → (serial : BitVec 64) →
  (scope : Nat) → Bool

/-- The calibration store's content (11 R298, R299): an engine, the number of calibrations it has completed, and a byte
address in its 256 KiB store, to a word. -/
opaque calWord : (engine generation addr : Nat) → BitVec 32
/-- The level of a monitor (MON_IDX) recorded at an engine's `generation`-th calibration, in MON_VAL coding (11 R289). -/
opaque calLevel : (engine generation monitor : Nat) → BitVec 16

/-- The timing margin (low byte) and voltage margin of a stack's data pin at the training that `mark` names (18 R464). -/
opaque phyMargin : (stack mark channel lane : Nat) → BitVec 16

end Sys2Proof.Config
end

