-- ==== Sys2Proof/Machine/Regs.lean ====
section
/-!
DEFINITION. The register tables of every page type: each field's place, and for every register its reset value and the
bits of each access code (00 R11, 18 R449; the block tables of 03 R95, 04 R108, 05 R134 to R136, 06 R170, 07 R201,
08 R225, 10 R269, 11 R299, 12 R323 and R324, 13 R353, 14 R370, 15 R399 and R400, 16 R427 to R431, 17 R445, 18 R463 to
R465).  One constant per field, under the spec's own name.
-/
namespace Sys2Proof.Machine

/-- A register field: offset in its page, lowest bit, width. -/
structure Fd where
  off : Nat
  lo  : Nat
  w   : Nat
  deriving DecidableEq, Repr

/-- The same field of a later element of a register array. -/
abbrev Fd.plus (f : Fd) (d : Nat) : Fd := { f with off := f.off + d }

/-- One register of a page's tables: its offset, reset value, and the bits that are RW, RC, W1C, W1S and WO
(00, Access codes); a bit in none of the masks is RO or reserved.  `ranges` are the stated ranges of RW fields
(lowest bit, width, least and greatest value; 18 R455). -/
structure RegRow where
  off : Nat
  rst : Nat
  rw  : Nat
  rc  : Nat
  w1c : Nat
  w1s : Nat
  wo  : Nat
  ranges : List (Nat × Nat × Nat × Nat)
  deriving DecidableEq, Repr

/-- The page types of the page map (18 R461). -/
inductive PageType where
  | module
  | fuse
  | ranger
  | pwr
  | clk
  | flash
  | snap
  | trail
  | pcie
  | tseq
  | te
  | ve
  | dma
  | spad
  | rng
  | scale
  | watch
  | scrub
  | stk
  | stkphy
  | link
  | pe
  | pech
  | pecal
  | coll
  | norm
  | plan
  | route
  deriving DecidableEq, Repr

/-! ### MODULE page -/
abbrev MODULE.PAGE_CAP_tiles : Fd := ⟨0x004, 0, 8⟩
abbrev MODULE.PAGE_CAP_stacks : Fd := ⟨0x004, 8, 8⟩
abbrev MODULE.PAGE_CAP_pes : Fd := ⟨0x004, 16, 5⟩
abbrev MODULE.PAGE_CAP_flash : Fd := ⟨0x004, 21, 1⟩
abbrev MODULE.PAGE_CAP_links : Fd := ⟨0x004, 22, 6⟩
abbrev MODULE.PAGE_CTRL_enable : Fd := ⟨0x008, 0, 1⟩
abbrev MODULE.PAGE_STAT_ready : Fd := ⟨0x00C, 0, 1⟩
abbrev MODULE.PAGE_STAT_coord_valid : Fd := ⟨0x00C, 1, 1⟩
abbrev MODULE.PAGE_STAT_census_busy : Fd := ⟨0x00C, 2, 1⟩
abbrev MODULE.PAGE_EVT_ready : Fd := ⟨0x010, 0, 1⟩
abbrev MODULE.PAGE_EVT_coord_change : Fd := ⟨0x010, 1, 1⟩
abbrev MODULE.PAGE_EVT_census_done : Fd := ⟨0x010, 2, 1⟩
abbrev MODULE.PAGE_EVT_ctrl_err : Fd := ⟨0x010, 3, 1⟩
abbrev MODULE.PAGE_EVT_EN : Fd := ⟨0x014, 0, 4⟩
abbrev MODULE.PAGE_ERR_code : Fd := ⟨0x018, 0, 8⟩
abbrev MODULE.PAGE_ERR_CNT_count : Fd := ⟨0x01C, 0, 32⟩
abbrev MODULE.COORD_rank : Fd := ⟨0x040, 0, 16⟩
abbrev MODULE.FEED_id : Fd := ⟨0x044, 0, 16⟩
abbrev MODULE.BOOT_STAT_stage : Fd := ⟨0x048, 0, 4⟩
abbrev MODULE.BOOT_STAT_optics : Fd := ⟨0x048, 4, 1⟩
abbrev MODULE.BOOT_STAT_fail : Fd := ⟨0x048, 5, 1⟩
abbrev MODULE.BOOT_STAT_fallback : Fd := ⟨0x048, 6, 1⟩
abbrev MODULE.BOOT_STAT_slot : Fd := ⟨0x048, 7, 1⟩
abbrev MODULE.BOOT_STAT_starts : Fd := ⟨0x048, 16, 16⟩
abbrev MODULE.BOOT_TIME_ms : Fd := ⟨0x04C, 0, 32⟩
abbrev MODULE.FW_VER_version : Fd := ⟨0x050, 0, 32⟩
abbrev MODULE.UPTIME_LO_us : Fd := ⟨0x054, 0, 32⟩
abbrev MODULE.UPTIME_HI_us : Fd := ⟨0x058, 0, 32⟩
abbrev MODULE.CENSUS_BASE_LO_addr : Fd := ⟨0x05C, 0, 32⟩
abbrev MODULE.CENSUS_BASE_HI_addr : Fd := ⟨0x060, 0, 16⟩
abbrev MODULE.CENSUS_CTRL_go : Fd := ⟨0x064, 0, 1⟩
abbrev MODULE.CENSUS_STAT_code : Fd := ⟨0x068, 0, 2⟩
abbrev MODULE.CENSUS_GEN_count : Fd := ⟨0x06C, 0, 32⟩
abbrev MODULE.CENSUS_US_us : Fd := ⟨0x070, 0, 32⟩
abbrev MODULE.ERR_SUM_sev : Fd := ⟨0x080, 0, 3⟩
abbrev MODULE.ERR_SUM_pend : Fd := ⟨0x080, 3, 1⟩
abbrev MODULE.ERR_SUM_fatal : Fd := ⟨0x080, 4, 1⟩
abbrev MODULE.ERR_SUM_depth : Fd := ⟨0x080, 8, 7⟩
abbrev MODULE.ERR_ACK_ack : Fd := ⟨0x084, 0, 1⟩
abbrev MODULE.ERR_CFG_int_min : Fd := ⟨0x088, 0, 3⟩
abbrev MODULE.ERR_CFG_ce_fifo : Fd := ⟨0x088, 3, 1⟩
abbrev MODULE.ERR_CFG_alert_min : Fd := ⟨0x088, 4, 3⟩
abbrev MODULE.ERR_OVF_CNT_count : Fd := ⟨0x08C, 0, 32⟩
abbrev MODULE.ERR_ENTRY0_word : Fd := ⟨0x090, 0, 32⟩
abbrev MODULE.ERR_ENTRY1_word : Fd := ⟨0x094, 0, 32⟩
abbrev MODULE.ERR_ENTRY2_word : Fd := ⟨0x098, 0, 32⟩
abbrev MODULE.ERR_ENTRY3_word : Fd := ⟨0x09C, 0, 32⟩
abbrev MODULE.ERR_POP_pop : Fd := ⟨0x0A0, 0, 1⟩
abbrev MODULE.FATAL_REC_code : Fd := ⟨0x0A4, 0, 8⟩
abbrev MODULE.FATAL_REC_page : Fd := ⟨0x0A4, 8, 12⟩
abbrev MODULE.FATAL_DETAIL_word : Fd := ⟨0x0A8, 0, 32⟩
abbrev MODULE.FATAL_TIME_us : Fd := ⟨0x0AC, 0, 32⟩
abbrev MODULE.FIREBREAK_force : Fd := ⟨0x0B0, 0, 1⟩
abbrev MODULE.FIREBREAK_state : Fd := ⟨0x0B0, 1, 2⟩
abbrev MODULE.FENCE_DROP_CNT_count : Fd := ⟨0x0B4, 0, 32⟩
abbrev MODULE.FAB_CE1_CNT_count : Fd := ⟨0x0C0, 0, 32⟩
abbrev MODULE.FAB_CE2_CNT_count : Fd := ⟨0x0C4, 0, 32⟩
abbrev MODULE.SVC_CTRL_park : Fd := ⟨0x0D0, 0, 1⟩
abbrev MODULE.SVC_CTRL_cancel : Fd := ⟨0x0D0, 1, 1⟩
abbrev MODULE.SVC_CTRL_unpark : Fd := ⟨0x0D0, 2, 1⟩
abbrev MODULE.SVC_CTRL_button_en : Fd := ⟨0x0D0, 3, 1⟩
abbrev MODULE.SVC_CTRL_locate : Fd := ⟨0x0D0, 4, 1⟩
abbrev MODULE.SVC_STAT_park_state : Fd := ⟨0x0D4, 0, 3⟩
abbrev MODULE.SVC_STAT_latch : Fd := ⟨0x0D4, 3, 1⟩
abbrev MODULE.SVC_STAT_button : Fd := ⟨0x0D4, 4, 1⟩
abbrev MODULE.SVC_STAT_plug : Fd := ⟨0x0D4, 8, 5⟩
abbrev MODULE.LANTERN_conn : Fd := ⟨0x0D8, 0, 10⟩
abbrev MODULE.LANTERN_module : Fd := ⟨0x0D8, 10, 2⟩
abbrev MODULE.LANTERN_flash : Fd := ⟨0x0D8, 12, 1⟩
abbrev MODULE.SVC_EVT_button : Fd := ⟨0x0DC, 0, 1⟩
abbrev MODULE.SVC_EVT_park_requested : Fd := ⟨0x0DC, 1, 1⟩
abbrev MODULE.SVC_EVT_blue : Fd := ⟨0x0DC, 2, 1⟩
abbrev MODULE.SVC_EVT_park_timeout : Fd := ⟨0x0DC, 3, 1⟩
abbrev MODULE.SVC_EVT_latch_open : Fd := ⟨0x0DC, 4, 1⟩
abbrev MODULE.SVC_EVT_plug_change : Fd := ⟨0x0DC, 5, 1⟩
abbrev MODULE.SVC_EVT_cancel : Fd := ⟨0x0DC, 6, 1⟩
abbrev MODULE.SVC_EVT_EN : Fd := ⟨0x0E0, 0, 7⟩
abbrev MODULE.PARK_LIMIT_s : Fd := ⟨0x0E4, 0, 16⟩
abbrev MODULE.gen : Fd := ⟨0x0F0, 0, 8⟩

/-! ### FUSE page -/
abbrev FUSE.PAGE_CAP_present : Fd := ⟨0x004, 0, 1⟩
abbrev FUSE.PAGE_EVT_dbg_open : Fd := ⟨0x010, 0, 1⟩
abbrev FUSE.PAGE_EVT_dbg_refused : Fd := ⟨0x010, 1, 1⟩
abbrev FUSE.PAGE_EVT_ctrl_err : Fd := ⟨0x010, 2, 1⟩
abbrev FUSE.PAGE_EVT_EN : Fd := ⟨0x014, 0, 3⟩
abbrev FUSE.PAGE_ERR_code : Fd := ⟨0x018, 0, 8⟩
abbrev FUSE.PAGE_ERR_CNT_count : Fd := ⟨0x01C, 0, 32⟩
abbrev FUSE.SERIAL_LO_sn : Fd := ⟨0x040, 0, 32⟩
abbrev FUSE.SERIAL_HI_sn : Fd := ⟨0x044, 0, 32⟩
abbrev FUSE.VARIANT_masks : Fd := ⟨0x048, 0, 24⟩
abbrev FUSE.VARIANT_member : Fd := ⟨0x048, 24, 2⟩
abbrev FUSE.SVN_value : Fd := ⟨0x04C, 0, 7⟩
abbrev FUSE.HASH_IDX_word : Fd := ⟨0x050, 0, 4⟩
abbrev FUSE.HASH_IDX_debug : Fd := ⟨0x050, 4, 1⟩
abbrev FUSE.HASH_DATA_word : Fd := ⟨0x054, 0, 32⟩
abbrev FUSE.LOCK_HOST_groups : Fd := ⟨0x058, 0, 32⟩
abbrev FUSE.LOCK_MGMT_groups : Fd := ⟨0x05C, 0, 32⟩
abbrev FUSE.DBG_REQ_scope : Fd := ⟨0x060, 0, 2⟩
abbrev FUSE.DBG_REQ_go : Fd := ⟨0x060, 4, 1⟩
abbrev FUSE.DBG_IDX_word : Fd := ⟨0x064, 0, 4⟩
abbrev FUSE.DBG_IDX_resp : Fd := ⟨0x064, 8, 5⟩
abbrev FUSE.DBG_CHAL_word : Fd := ⟨0x068, 0, 32⟩
abbrev FUSE.DBG_RESP_word : Fd := ⟨0x06C, 0, 32⟩
abbrev FUSE.DBG_SUBMIT_go : Fd := ⟨0x070, 0, 1⟩
abbrev FUSE.DBG_STAT_state : Fd := ⟨0x074, 0, 2⟩
abbrev FUSE.DBG_STAT_scope : Fd := ⟨0x074, 2, 2⟩
abbrev FUSE.DBG_STAT_err : Fd := ⟨0x074, 4, 4⟩
abbrev FUSE.REPAIR_lines : Fd := ⟨0x078, 0, 16⟩
abbrev FUSE.REPAIR_rows : Fd := ⟨0x078, 16, 8⟩
abbrev FUSE.INTEG_ok : Fd := ⟨0x07C, 0, 1⟩
abbrev FUSE.INTEG_CNT_count : Fd := ⟨0x080, 0, 32⟩

/-! ### RANGER page -/
abbrev RANGER.PAGE_CAP_present : Fd := ⟨0x004, 0, 1⟩
abbrev RANGER.PAGE_EVT_mbx_done : Fd := ⟨0x010, 0, 1⟩
abbrev RANGER.PAGE_EVT_sens_ready : Fd := ⟨0x010, 1, 1⟩
abbrev RANGER.PAGE_EVT_wdt : Fd := ⟨0x010, 2, 1⟩
abbrev RANGER.PAGE_EVT_ctrl_err : Fd := ⟨0x010, 3, 1⟩
abbrev RANGER.PAGE_EVT_EN : Fd := ⟨0x014, 0, 4⟩
abbrev RANGER.PAGE_ERR_code : Fd := ⟨0x018, 0, 8⟩
abbrev RANGER.PAGE_ERR_CNT_count : Fd := ⟨0x01C, 0, 32⟩
abbrev RANGER.MBX_CMD_code : Fd := ⟨0x040, 0, 8⟩
abbrev RANGER.MBX_CMD_go : Fd := ⟨0x040, 31, 1⟩
abbrev RANGER.MBX_ARG_value : Fd := ⟨0x044, 0, 32⟩
abbrev RANGER.MBX_STAT_busy : Fd := ⟨0x054, 0, 1⟩
abbrev RANGER.MBX_STAT_result : Fd := ⟨0x054, 4, 4⟩
abbrev RANGER.MBX_RES_value : Fd := ⟨0x058, 0, 32⟩
abbrev RANGER.FW_SLOT_running : Fd := ⟨0x068, 0, 1⟩
abbrev RANGER.FW_SLOT_active : Fd := ⟨0x068, 1, 1⟩
abbrev RANGER.FW_SLOT_a_ok : Fd := ⟨0x068, 2, 1⟩
abbrev RANGER.FW_SLOT_b_ok : Fd := ⟨0x068, 3, 1⟩
abbrev RANGER.MGMT_ADDR_addr : Fd := ⟨0x06C, 0, 7⟩
abbrev RANGER.MGMT_NAK_CNT_count : Fd := ⟨0x070, 0, 32⟩
abbrev RANGER.MGMT_PEC_CNT_count : Fd := ⟨0x074, 0, 32⟩
abbrev RANGER.WDT_CNT_count : Fd := ⟨0x078, 0, 32⟩
abbrev RANGER.SENS_FLAG_ready : Fd := ⟨0x07C, 0, 1⟩
abbrev RANGER.SENS_A_inlet : Fd := ⟨0x080, 0, 16⟩
abbrev RANGER.SENS_A_outlet : Fd := ⟨0x080, 16, 16⟩
abbrev RANGER.SENS_B_die : Fd := ⟨0x084, 0, 16⟩
abbrev RANGER.SENS_B_hub : Fd := ⟨0x084, 16, 16⟩
abbrev RANGER.SENS_C_volts : Fd := ⟨0x088, 0, 16⟩
abbrev RANGER.SENS_C_amps : Fd := ⟨0x088, 16, 16⟩
abbrev RANGER.SENS_D_watts : Fd := ⟨0x08C, 0, 16⟩
abbrev RANGER.SENS_D_flow : Fd := ⟨0x08C, 16, 16⟩

/-! ### PWR page -/
abbrev PWR.PAGE_CAP_present : Fd := ⟨0x004, 0, 1⟩
abbrev PWR.PAGE_CAP_fast_limit : Fd := ⟨0x004, 1, 1⟩
abbrev PWR.PAGE_CAP_coolant : Fd := ⟨0x004, 2, 1⟩
abbrev PWR.PAGE_CAP_states : Fd := ⟨0x004, 3, 5⟩
abbrev PWR.PAGE_CTRL_enable : Fd := ⟨0x008, 0, 1⟩
abbrev PWR.PAGE_STAT_state : Fd := ⟨0x00C, 0, 3⟩
abbrev PWR.PAGE_STAT_moving : Fd := ⟨0x00C, 3, 1⟩
abbrev PWR.PAGE_STAT_target : Fd := ⟨0x00C, 4, 3⟩
abbrev PWR.PAGE_STAT_pend_valid : Fd := ⟨0x00C, 7, 1⟩
abbrev PWR.PAGE_STAT_pending : Fd := ⟨0x00C, 8, 3⟩
abbrev PWR.PAGE_STAT_cap_over : Fd := ⟨0x00C, 11, 1⟩
abbrev PWR.PAGE_STAT_fast_limit : Fd := ⟨0x00C, 12, 1⟩
abbrev PWR.PAGE_STAT_throttle : Fd := ⟨0x00C, 13, 1⟩
abbrev PWR.PAGE_STAT_ramp : Fd := ⟨0x00C, 14, 1⟩
abbrev PWR.PAGE_EVT_state_done : Fd := ⟨0x010, 0, 1⟩
abbrev PWR.PAGE_EVT_req_absorbed : Fd := ⟨0x010, 1, 1⟩
abbrev PWR.PAGE_EVT_req_replaced : Fd := ⟨0x010, 2, 1⟩
abbrev PWR.PAGE_EVT_req_refused : Fd := ⟨0x010, 3, 1⟩
abbrev PWR.PAGE_EVT_wake_fail : Fd := ⟨0x010, 4, 1⟩
abbrev PWR.PAGE_EVT_cap_over : Fd := ⟨0x010, 5, 1⟩
abbrev PWR.PAGE_EVT_cap_below_floor : Fd := ⟨0x010, 6, 1⟩
abbrev PWR.PAGE_EVT_thermal_step : Fd := ⟨0x010, 7, 1⟩
abbrev PWR.PAGE_EVT_throttle : Fd := ⟨0x010, 8, 1⟩
abbrev PWR.PAGE_EVT_coolant_warn : Fd := ⟨0x010, 9, 1⟩
abbrev PWR.PAGE_EVT_fast_limit : Fd := ⟨0x010, 10, 1⟩
abbrev PWR.PAGE_EVT_ctrl_err : Fd := ⟨0x010, 11, 1⟩
abbrev PWR.PAGE_EVT_EN : Fd := ⟨0x014, 0, 12⟩
abbrev PWR.PAGE_ERR_code : Fd := ⟨0x018, 0, 8⟩
abbrev PWR.PAGE_ERR_CNT_count : Fd := ⟨0x01C, 0, 32⟩
abbrev PWR.PWR_REQ_state : Fd := ⟨0x040, 0, 3⟩
abbrev PWR.CAP_watts : Fd := ⟨0x044, 0, 13⟩
abbrev PWR.SLEW_w_per_ms : Fd := ⟨0x048, 0, 8⟩
abbrev PWR.FAST_LIMIT_duty : Fd := ⟨0x04C, 0, 6⟩
abbrev PWR.PWR_CFG_auto_idle : Fd := ⟨0x050, 0, 1⟩
abbrev PWR.PWR_CFG_idle_delay : Fd := ⟨0x050, 8, 8⟩
abbrev PWR.PWR_CFG_quiesce_ms : Fd := ⟨0x050, 16, 16⟩
abbrev PWR.WAKE_EN_pin : Fd := ⟨0x054, 0, 1⟩
abbrev PWR.WAKE_EN_pcie : Fd := ⟨0x054, 1, 1⟩
abbrev PWR.WAKE_EN_mgmt : Fd := ⟨0x054, 2, 1⟩
abbrev PWR.WAKE_EN_alarm : Fd := ⟨0x054, 3, 1⟩
abbrev PWR.WAKE_EN_doorbell : Fd := ⟨0x054, 4, 1⟩
abbrev PWR.ALARM_seconds : Fd := ⟨0x058, 0, 32⟩
abbrev PWR.POWER_NOW_watts : Fd := ⟨0x05C, 0, 16⟩
abbrev PWR.POWER_NOW_peak : Fd := ⟨0x05C, 16, 16⟩
abbrev PWR.INPUT_mv10 : Fd := ⟨0x060, 0, 16⟩
abbrev PWR.INPUT_ma10 : Fd := ⟨0x060, 16, 16⟩
abbrev PWR.TDP_tdp_w : Fd := ⟨0x064, 0, 13⟩
abbrev PWR.TDP_floor_w : Fd := ⟨0x064, 16, 13⟩
abbrev PWR.TILE_IDX_tile : Fd := ⟨0x068, 0, 3⟩
abbrev PWR.TILE_PWR_est : Fd := ⟨0x06C, 0, 12⟩
abbrev PWR.TILE_PWR_limit : Fd := ⟨0x06C, 12, 12⟩
abbrev PWR.TILE_PWR_die : Fd := ⟨0x06C, 24, 8⟩
abbrev PWR.TEMP_IDX_sensor : Fd := ⟨0x070, 0, 6⟩
abbrev PWR.TEMP_now : Fd := ⟨0x074, 0, 16⟩
abbrev PWR.TEMP_max : Fd := ⟨0x074, 16, 16⟩
abbrev PWR.COOLANT_inlet : Fd := ⟨0x078, 0, 16⟩
abbrev PWR.COOLANT_outlet : Fd := ⟨0x078, 16, 16⟩
abbrev PWR.FLOW_lpm100 : Fd := ⟨0x07C, 0, 16⟩
abbrev PWR.WAKE_REC0_source : Fd := ⟨0x080, 0, 4⟩
abbrev PWR.WAKE_REC0_from : Fd := ⟨0x080, 4, 3⟩
abbrev PWR.WAKE_REC0_reached : Fd := ⟨0x080, 7, 3⟩
abbrev PWR.WAKE_REC0_attempts : Fd := ⟨0x080, 10, 2⟩
abbrev PWR.WAKE_REC0_fail : Fd := ⟨0x080, 12, 1⟩
abbrev PWR.WAKE_REC0_bclk_fb : Fd := ⟨0x080, 13, 1⟩
abbrev PWR.WAKE_REC0_retain_err : Fd := ⟨0x080, 14, 1⟩
abbrev PWR.WAKE_REC0_fail_elem : Fd := ⟨0x080, 16, 8⟩
abbrev PWR.WAKE_REC0_fail_stage : Fd := ⟨0x080, 24, 2⟩
abbrev PWR.WAKE_REC1_seconds : Fd := ⟨0x084, 0, 32⟩
abbrev PWR.WAKE_REC2_us10 : Fd := ⟨0x088, 0, 24⟩
abbrev PWR.CAP_OVER_US_us : Fd := ⟨0x08C, 0, 24⟩
abbrev PWR.ENERGY_LO_joules : Fd := ⟨0x090, 0, 32⟩
abbrev PWR.ENERGY_HI_joules : Fd := ⟨0x094, 0, 32⟩
abbrev PWR.THROTTLE_CNT_count : Fd := ⟨0x098, 0, 32⟩
abbrev PWR.FILLER_CNT_count : Fd := ⟨0x09C, 0, 32⟩
abbrev PWR.STEP_CNT_count : Fd := ⟨0x0A0, 0, 32⟩
abbrev PWR.FASTLIM_CNT_count : Fd := ⟨0x0A4, 0, 32⟩

/-! ### CLK page -/
abbrev CLK.PAGE_CAP_present : Fd := ⟨0x004, 0, 1⟩
abbrev CLK.PAGE_CAP_tclk_divs : Fd := ⟨0x004, 1, 3⟩
abbrev CLK.PAGE_CAP_int_ref : Fd := ⟨0x004, 4, 1⟩
abbrev CLK.PAGE_CTRL_enable : Fd := ⟨0x008, 0, 1⟩
abbrev CLK.PAGE_STAT_pll_lock : Fd := ⟨0x00C, 0, 1⟩
abbrev CLK.PAGE_STAT_src : Fd := ⟨0x00C, 1, 1⟩
abbrev CLK.PAGE_STAT_refclk : Fd := ⟨0x00C, 2, 1⟩
abbrev CLK.PAGE_STAT_bclk_fallback : Fd := ⟨0x00C, 3, 1⟩
abbrev CLK.PAGE_STAT_div_pend : Fd := ⟨0x00C, 8, 8⟩
abbrev CLK.PAGE_EVT_div_done : Fd := ⟨0x010, 0, 1⟩
abbrev CLK.PAGE_EVT_timeout : Fd := ⟨0x010, 1, 1⟩
abbrev CLK.PAGE_EVT_bclk_fallback : Fd := ⟨0x010, 2, 1⟩
abbrev CLK.PAGE_EVT_ref_internal : Fd := ⟨0x010, 3, 1⟩
abbrev CLK.PAGE_EVT_ctrl_err : Fd := ⟨0x010, 4, 1⟩
abbrev CLK.PAGE_EVT_EN : Fd := ⟨0x014, 0, 5⟩
abbrev CLK.PAGE_ERR_code : Fd := ⟨0x018, 0, 8⟩
abbrev CLK.PAGE_ERR_CNT_count : Fd := ⟨0x01C, 0, 32⟩
abbrev CLK.TCLK_DIV_div : Fd := ⟨0x040, 0, 16⟩
abbrev CLK.TCLK_CUR_div : Fd := ⟨0x044, 0, 16⟩
abbrev CLK.DOMAIN_RUN_LO_eng : Fd := ⟨0x048, 0, 8⟩
abbrev CLK.DOMAIN_RUN_LO_spad : Fd := ⟨0x048, 8, 8⟩
abbrev CLK.DOMAIN_RUN_LO_fclk : Fd := ⟨0x048, 16, 1⟩
abbrev CLK.DOMAIN_RUN_LO_cclk : Fd := ⟨0x048, 17, 1⟩
abbrev CLK.DOMAIN_RUN_LO_fuse : Fd := ⟨0x048, 18, 1⟩
abbrev CLK.DOMAIN_RUN_HI_phy : Fd := ⟨0x04C, 0, 8⟩
abbrev CLK.DOMAIN_RUN_HI_photonic : Fd := ⟨0x04C, 8, 5⟩
abbrev CLK.REF_PPM_offset : Fd := ⟨0x050, 0, 16⟩
abbrev CLK.WAKE_ACC_CNT_count : Fd := ⟨0x054, 0, 32⟩
abbrev CLK.TIMEOUT_CNT_count : Fd := ⟨0x058, 0, 32⟩
abbrev CLK.LAST_TIMEOUT_page : Fd := ⟨0x05C, 0, 12⟩
abbrev CLK.LAST_TIMEOUT_port : Fd := ⟨0x05C, 12, 2⟩
abbrev CLK.LAST_TIMEOUT_offset : Fd := ⟨0x05C, 16, 12⟩
abbrev CLK.LOCK_CNT_count : Fd := ⟨0x060, 0, 32⟩

/-! ### FLASH page -/
abbrev FLASH.PAGE_CAP_present : Fd := ⟨0x004, 0, 1⟩
abbrev FLASH.PAGE_EVT_done : Fd := ⟨0x010, 0, 1⟩
abbrev FLASH.PAGE_EVT_uc : Fd := ⟨0x010, 1, 1⟩
abbrev FLASH.PAGE_EVT_ctrl_err : Fd := ⟨0x010, 2, 1⟩
abbrev FLASH.PAGE_EVT_EN : Fd := ⟨0x014, 0, 3⟩
abbrev FLASH.PAGE_ERR_code : Fd := ⟨0x018, 0, 8⟩
abbrev FLASH.PAGE_ERR_CNT_count : Fd := ⟨0x01C, 0, 32⟩
abbrev FLASH.FC_CMD_op : Fd := ⟨0x040, 0, 3⟩
abbrev FLASH.FC_CMD_go : Fd := ⟨0x040, 31, 1⟩
abbrev FLASH.FC_BLOCK_block : Fd := ⟨0x044, 0, 31⟩
abbrev FLASH.FC_COUNT_blocks : Fd := ⟨0x048, 0, 19⟩
abbrev FLASH.FC_ADDR_LO_addr : Fd := ⟨0x04C, 0, 32⟩
abbrev FLASH.FC_ADDR_HI_addr : Fd := ⟨0x050, 0, 16⟩
abbrev FLASH.FC_STAT_busy : Fd := ⟨0x054, 0, 1⟩
abbrev FLASH.FC_STAT_code : Fd := ⟨0x054, 4, 4⟩
abbrev FLASH.FC_DONE_blocks : Fd := ⟨0x058, 0, 32⟩
abbrev FLASH.PIN_BLOCK_block : Fd := ⟨0x05C, 0, 31⟩
abbrev FLASH.PIN_COUNT_blocks : Fd := ⟨0x060, 0, 25⟩
abbrev FLASH.BOOT_REC_block : Fd := ⟨0x064, 0, 31⟩
abbrev FLASH.WEAR_percent : Fd := ⟨0x068, 0, 8⟩
abbrev FLASH.UC_CNT_count : Fd := ⟨0x06C, 0, 32⟩

/-! ### SNAP page -/
abbrev SNAP.PAGE_CAP_present : Fd := ⟨0x004, 0, 1⟩
abbrev SNAP.PAGE_CAP_l1 : Fd := ⟨0x004, 1, 1⟩
abbrev SNAP.PAGE_CAP_l2 : Fd := ⟨0x004, 2, 1⟩
abbrev SNAP.PAGE_CAP_slots : Fd := ⟨0x004, 4, 4⟩
abbrev SNAP.PAGE_CTRL_enable : Fd := ⟨0x008, 0, 1⟩
abbrev SNAP.PAGE_CTRL_soft_reset : Fd := ⟨0x008, 1, 1⟩
abbrev SNAP.PAGE_CTRL_quiesce : Fd := ⟨0x008, 2, 1⟩
abbrev SNAP.PAGE_CTRL_auto_hold : Fd := ⟨0x008, 3, 1⟩
abbrev SNAP.PAGE_STAT_busy : Fd := ⟨0x00C, 0, 1⟩
abbrev SNAP.PAGE_STAT_quiesced : Fd := ⟨0x00C, 1, 1⟩
abbrev SNAP.PAGE_STAT_hold : Fd := ⟨0x00C, 2, 1⟩
abbrev SNAP.PAGE_STAT_phase : Fd := ⟨0x00C, 3, 4⟩
abbrev SNAP.PAGE_STAT_same_feed : Fd := ⟨0x00C, 7, 1⟩
abbrev SNAP.PAGE_STAT_self_lost : Fd := ⟨0x00C, 8, 1⟩
abbrev SNAP.PAGE_STAT_park : Fd := ⟨0x00C, 9, 1⟩
abbrev SNAP.PAGE_EVT_captured : Fd := ⟨0x010, 0, 1⟩
abbrev SNAP.PAGE_EVT_secure : Fd := ⟨0x010, 1, 1⟩
abbrev SNAP.PAGE_EVT_clr_err : Fd := ⟨0x010, 2, 1⟩
abbrev SNAP.PAGE_EVT_peer_lost : Fd := ⟨0x010, 3, 1⟩
abbrev SNAP.PAGE_EVT_restore_done : Fd := ⟨0x010, 4, 1⟩
abbrev SNAP.PAGE_EVT_restore_skew : Fd := ⟨0x010, 5, 1⟩
abbrev SNAP.PAGE_EVT_restore_err : Fd := ⟨0x010, 6, 1⟩
abbrev SNAP.PAGE_EVT_pair_done : Fd := ⟨0x010, 7, 1⟩
abbrev SNAP.PAGE_EVT_pair_same_feed : Fd := ⟨0x010, 8, 1⟩
abbrev SNAP.PAGE_EVT_self_lost : Fd := ⟨0x010, 9, 1⟩
abbrev SNAP.PAGE_EVT_ctrl_err : Fd := ⟨0x010, 10, 1⟩
abbrev SNAP.PAGE_EVT_l3_ready : Fd := ⟨0x010, 11, 1⟩
abbrev SNAP.PAGE_EVT_hold_timeout : Fd := ⟨0x010, 12, 1⟩
abbrev SNAP.PAGE_EVT_EN : Fd := ⟨0x014, 0, 13⟩
abbrev SNAP.PAGE_ERR_code : Fd := ⟨0x018, 0, 8⟩
abbrev SNAP.PAGE_ERR_CNT_count : Fd := ⟨0x01C, 0, 32⟩
abbrev SNAP.CAP_BASE_LO_addr : Fd := ⟨0x040, 0, 32⟩
abbrev SNAP.CAP_BASE_HI_addr : Fd := ⟨0x044, 0, 16⟩
abbrev SNAP.CAP_COUNT_entries : Fd := ⟨0x048, 0, 9⟩
abbrev SNAP.L0_CFG_off : Fd := ⟨0x04C, 0, 7⟩
abbrev SNAP.L0_CFG_size : Fd := ⟨0x04C, 8, 7⟩
abbrev SNAP.PART_CFG_off : Fd := ⟨0x050, 0, 7⟩
abbrev SNAP.PART_CFG_size : Fd := ⟨0x050, 8, 5⟩
abbrev SNAP.PAIR_rank : Fd := ⟨0x054, 0, 16⟩
abbrev SNAP.PAIR_go : Fd := ⟨0x054, 31, 1⟩
abbrev SNAP.PAIR_FEED_own : Fd := ⟨0x058, 0, 16⟩
abbrev SNAP.PAIR_FEED_peer : Fd := ⟨0x058, 16, 16⟩
abbrev SNAP.PAIR_STAT_state : Fd := ⟨0x05C, 0, 2⟩
abbrev SNAP.PAIR_STAT_err : Fd := ⟨0x05C, 4, 4⟩
abbrev SNAP.HB_CFG_period : Fd := ⟨0x060, 0, 8⟩
abbrev SNAP.HB_CFG_miss : Fd := ⟨0x060, 8, 4⟩
abbrev SNAP.HB_CFG_group : Fd := ⟨0x060, 16, 12⟩
abbrev SNAP.HB_CFG_en : Fd := ⟨0x060, 31, 1⟩
abbrev SNAP.LAST_CLR_LO_number : Fd := ⟨0x064, 0, 32⟩
abbrev SNAP.LAST_CLR_HI_number : Fd := ⟨0x068, 0, 32⟩
abbrev SNAP.SECURE_LO_number : Fd := ⟨0x06C, 0, 32⟩
abbrev SNAP.SECURE_HI_number : Fd := ⟨0x070, 0, 32⟩
abbrev SNAP.PARTNER_SECURE_LO_number : Fd := ⟨0x074, 0, 32⟩
abbrev SNAP.PARTNER_SECURE_HI_number : Fd := ⟨0x078, 0, 32⟩
abbrev SNAP.CLR_STAT_code : Fd := ⟨0x07C, 0, 8⟩
abbrev SNAP.CLR_STAT_levels : Fd := ⟨0x07C, 8, 4⟩
abbrev SNAP.CLR_STAT_poison : Fd := ⟨0x07C, 16, 16⟩
abbrev SNAP.CAPTURE_US_us : Fd := ⟨0x080, 0, 32⟩
abbrev SNAP.L2_LAST_number : Fd := ⟨0x084, 0, 32⟩
abbrev SNAP.L3_CTRL_release : Fd := ⟨0x088, 0, 1⟩
abbrev SNAP.HOLD_LIMIT_ms : Fd := ⟨0x08C, 0, 16⟩
abbrev SNAP.RESTORE_NUM_LO_number : Fd := ⟨0x090, 0, 32⟩
abbrev SNAP.RESTORE_NUM_HI_number : Fd := ⟨0x094, 0, 32⟩
abbrev SNAP.RESTORE_CTRL_src : Fd := ⟨0x098, 0, 2⟩
abbrev SNAP.RESTORE_CTRL_go : Fd := ⟨0x098, 4, 1⟩
abbrev SNAP.RESTORE_CTRL_realign : Fd := ⟨0x098, 5, 1⟩
abbrev SNAP.RESTORE_CTRL_accept_gen : Fd := ⟨0x098, 6, 1⟩
abbrev SNAP.RESTORE_CTRL_as_rank : Fd := ⟨0x098, 16, 16⟩
abbrev SNAP.RESTORE_STAT_code : Fd := ⟨0x09C, 0, 8⟩
abbrev SNAP.RESTORE_STAT_step : Fd := ⟨0x09C, 8, 4⟩
abbrev SNAP.SKEW_tile : Fd := ⟨0x0A0, 0, 3⟩
abbrev SNAP.SKEW_counter : Fd := ⟨0x0A0, 4, 3⟩
abbrev SNAP.SKEW_step : Fd := ⟨0x0A0, 7, 1⟩
abbrev SNAP.SKEW_diff : Fd := ⟨0x0A0, 8, 24⟩
abbrev SNAP.DATA_POS_step : Fd := ⟨0x0A4, 0, 32⟩
abbrev SNAP.LOST_CNT_count : Fd := ⟨0x0A8, 0, 32⟩
abbrev SNAP.LOST_LAST_rank : Fd := ⟨0x0AC, 0, 16⟩
abbrev SNAP.LOST_IDX_word : Fd := ⟨0x0B0, 0, 12⟩
abbrev SNAP.LOST_WORD_bits : Fd := ⟨0x0B4, 0, 32⟩
abbrev SNAP.LOST_CLR_go : Fd := ⟨0x0B8, 0, 1⟩

/-! ### TRAIL page -/
abbrev TRAIL.PAGE_CAP_present : Fd := ⟨0x004, 0, 1⟩
abbrev TRAIL.PAGE_CAP_mirror : Fd := ⟨0x004, 1, 1⟩
abbrev TRAIL.PAGE_CTRL_enable : Fd := ⟨0x008, 0, 1⟩
abbrev TRAIL.PAGE_CTRL_soft_reset : Fd := ⟨0x008, 1, 1⟩
abbrev TRAIL.PAGE_CTRL_quiesce : Fd := ⟨0x008, 2, 1⟩
abbrev TRAIL.PAGE_STAT_busy : Fd := ⟨0x00C, 0, 1⟩
abbrev TRAIL.PAGE_STAT_quiesced : Fd := ⟨0x00C, 1, 1⟩
abbrev TRAIL.PAGE_STAT_verify : Fd := ⟨0x00C, 2, 1⟩
abbrev TRAIL.PAGE_EVT_done : Fd := ⟨0x010, 0, 1⟩
abbrev TRAIL.PAGE_EVT_full : Fd := ⟨0x010, 1, 1⟩
abbrev TRAIL.PAGE_EVT_diverge : Fd := ⟨0x010, 2, 1⟩
abbrev TRAIL.PAGE_EVT_unmirrored : Fd := ⟨0x010, 3, 1⟩
abbrev TRAIL.PAGE_EVT_replay_end : Fd := ⟨0x010, 4, 1⟩
abbrev TRAIL.PAGE_EVT_ctrl_err : Fd := ⟨0x010, 5, 1⟩
abbrev TRAIL.PAGE_EVT_EN : Fd := ⟨0x014, 0, 6⟩
abbrev TRAIL.PAGE_ERR_code : Fd := ⟨0x018, 0, 8⟩
abbrev TRAIL.PAGE_ERR_CNT_count : Fd := ⟨0x01C, 0, 32⟩
abbrev TRAIL.TRAIL_BASE_LO_addr : Fd := ⟨0x040, 0, 32⟩
abbrev TRAIL.TRAIL_BASE_HI_addr : Fd := ⟨0x044, 0, 16⟩
abbrev TRAIL.TRAIL_SIZE_mib : Fd := ⟨0x048, 0, 9⟩
abbrev TRAIL.HEAD_LO_bytes : Fd := ⟨0x04C, 0, 32⟩
abbrev TRAIL.HEAD_HI_bytes : Fd := ⟨0x050, 0, 32⟩
abbrev TRAIL.KEEP_LO_bytes : Fd := ⟨0x054, 0, 32⟩
abbrev TRAIL.KEEP_HI_bytes : Fd := ⟨0x058, 0, 32⟩
abbrev TRAIL.FLUSHED_LO_bytes : Fd := ⟨0x05C, 0, 32⟩
abbrev TRAIL.FLUSHED_HI_bytes : Fd := ⟨0x060, 0, 32⟩
abbrev TRAIL.REPLAY_POS_LO_bytes : Fd := ⟨0x064, 0, 32⟩
abbrev TRAIL.REPLAY_POS_HI_bytes : Fd := ⟨0x068, 0, 32⟩
abbrev TRAIL.REPLAY_CTRL_start : Fd := ⟨0x06C, 0, 1⟩
abbrev TRAIL.REPLAY_CTRL_stop : Fd := ⟨0x06C, 1, 1⟩
abbrev TRAIL.DIVERGE_REC_index : Fd := ⟨0x070, 0, 32⟩
abbrev TRAIL.RECORDS_count : Fd := ⟨0x074, 0, 32⟩
abbrev TRAIL.MIRROR_LAG_bytes : Fd := ⟨0x078, 0, 32⟩
abbrev TRAIL.UNMIRRORED_CNT_count : Fd := ⟨0x07C, 0, 32⟩

/-! ### PCIE page -/
abbrev PCIE.PAGE_CAP_present : Fd := ⟨0x004, 0, 1⟩
abbrev PCIE.PAGE_EVT_link_up : Fd := ⟨0x010, 0, 1⟩
abbrev PCIE.PAGE_EVT_link_down : Fd := ⟨0x010, 1, 1⟩
abbrev PCIE.PAGE_EVT_reset : Fd := ⟨0x010, 2, 1⟩
abbrev PCIE.PAGE_EVT_hole : Fd := ⟨0x010, 3, 1⟩
abbrev PCIE.PAGE_EVT_ctrl_err : Fd := ⟨0x010, 4, 1⟩
abbrev PCIE.PAGE_EVT_EN : Fd := ⟨0x014, 0, 5⟩
abbrev PCIE.PAGE_ERR_code : Fd := ⟨0x018, 0, 8⟩
abbrev PCIE.PAGE_ERR_CNT_count : Fd := ⟨0x01C, 0, 32⟩
abbrev PCIE.LINK_STAT_speed : Fd := ⟨0x040, 0, 4⟩
abbrev PCIE.LINK_STAT_width : Fd := ⟨0x040, 4, 5⟩
abbrev PCIE.LINK_STAT_flit : Fd := ⟨0x040, 9, 1⟩
abbrev PCIE.WIN_BASE_LO_addr : Fd := ⟨0x044, 0, 32⟩
abbrev PCIE.WIN_BASE_HI_addr : Fd := ⟨0x048, 0, 16⟩
abbrev PCIE.BAR2_SIZE_log2 : Fd := ⟨0x04C, 0, 6⟩
abbrev PCIE.HOLE_CNT_count : Fd := ⟨0x050, 0, 32⟩
abbrev PCIE.EP_RX_CNT_count : Fd := ⟨0x054, 0, 32⟩
abbrev PCIE.EP_TX_CNT_count : Fd := ⟨0x058, 0, 32⟩
abbrev PCIE.EARLY_CNT_count : Fd := ⟨0x05C, 0, 32⟩
abbrev PCIE.ERR_CNT_count : Fd := ⟨0x060, 0, 32⟩
abbrev PCIE.RESET_CNT_perst : Fd := ⟨0x064, 0, 8⟩
abbrev PCIE.RESET_CNT_hot : Fd := ⟨0x064, 8, 8⟩
abbrev PCIE.RESET_CNT_flr : Fd := ⟨0x064, 16, 8⟩
abbrev PCIE.MSIX_PEND_vec : Fd := ⟨0x068, 0, 16⟩
abbrev PCIE.MSIX_ADDR_LO_addr : Fd := ⟨0x800, 0, 32⟩
abbrev PCIE.MSIX_ADDR_HI_addr : Fd := ⟨0x804, 0, 32⟩
abbrev PCIE.MSIX_DATA_data : Fd := ⟨0x808, 0, 32⟩
abbrev PCIE.MSIX_CTRL_mask : Fd := ⟨0x80C, 0, 1⟩
abbrev PCIE.MSIX_PBA_vec : Fd := ⟨0x900, 0, 16⟩

/-! ### TSEQ page -/
abbrev TSEQ.PAGE_CAP_queues : Fd := ⟨0x004, 0, 4⟩
abbrev TSEQ.PAGE_CAP_repeat_depth : Fd := ⟨0x004, 4, 4⟩
abbrev TSEQ.PAGE_CAP_sem_log2 : Fd := ⟨0x004, 8, 4⟩
abbrev TSEQ.PAGE_CAP_remote_sig : Fd := ⟨0x004, 12, 1⟩
abbrev TSEQ.PAGE_CAP_gate : Fd := ⟨0x004, 13, 1⟩
abbrev TSEQ.PAGE_CTRL_enable : Fd := ⟨0x008, 0, 1⟩
abbrev TSEQ.PAGE_CTRL_soft_reset : Fd := ⟨0x008, 1, 1⟩
abbrev TSEQ.PAGE_CTRL_quiesce : Fd := ⟨0x008, 2, 1⟩
abbrev TSEQ.PAGE_CTRL_sem_clear : Fd := ⟨0x008, 3, 1⟩
abbrev TSEQ.PAGE_STAT_quiesced : Fd := ⟨0x00C, 0, 1⟩
abbrev TSEQ.PAGE_STAT_busy : Fd := ⟨0x00C, 1, 1⟩
abbrev TSEQ.PAGE_STAT_q_active : Fd := ⟨0x00C, 8, 8⟩
abbrev TSEQ.PAGE_STAT_q_halted : Fd := ⟨0x00C, 16, 8⟩
abbrev TSEQ.PAGE_STAT_q_waiting : Fd := ⟨0x00C, 24, 8⟩
abbrev TSEQ.PAGE_EVT_desc_evt : Fd := ⟨0x010, 0, 1⟩
abbrev TSEQ.PAGE_EVT_desc_err : Fd := ⟨0x010, 1, 1⟩
abbrev TSEQ.PAGE_EVT_halted : Fd := ⟨0x010, 2, 1⟩
abbrev TSEQ.PAGE_EVT_db_err : Fd := ⟨0x010, 3, 1⟩
abbrev TSEQ.PAGE_EVT_wait_long : Fd := ⟨0x010, 4, 1⟩
abbrev TSEQ.PAGE_EVT_ctrl_err : Fd := ⟨0x010, 5, 1⟩
abbrev TSEQ.PAGE_EVT_poison : Fd := ⟨0x010, 6, 1⟩
abbrev TSEQ.PAGE_EVT_gated : Fd := ⟨0x010, 7, 1⟩
abbrev TSEQ.PAGE_EVT_EN : Fd := ⟨0x014, 0, 8⟩
abbrev TSEQ.PAGE_ERR_code : Fd := ⟨0x018, 0, 8⟩
abbrev TSEQ.PAGE_ERR_queue : Fd := ⟨0x018, 8, 3⟩
abbrev TSEQ.PAGE_ERR_slot : Fd := ⟨0x018, 16, 16⟩
abbrev TSEQ.PAGE_ERR_CNT_count : Fd := ⟨0x01C, 0, 32⟩
abbrev TSEQ.TD_BASE_LO_addr : Fd := ⟨0x040, 0, 32⟩
abbrev TSEQ.TD_BASE_HI_addr : Fd := ⟨0x044, 0, 16⟩
abbrev TSEQ.TD_COUNT_entries : Fd := ⟨0x048, 0, 16⟩
abbrev TSEQ.SEM_IDX_sem : Fd := ⟨0x050, 0, 12⟩
abbrev TSEQ.SEM_VAL_value : Fd := ⟨0x054, 0, 32⟩
abbrev TSEQ.SEM_ADD_value : Fd := ⟨0x058, 0, 32⟩
abbrev TSEQ.DISP_CNT_LO_count : Fd := ⟨0x060, 0, 32⟩
abbrev TSEQ.DISP_CNT_HI_count : Fd := ⟨0x064, 0, 32⟩
abbrev TSEQ.GATED_CNT_count : Fd := ⟨0x068, 0, 32⟩
abbrev TSEQ.DESC_ERR_CNT_count : Fd := ⟨0x06C, 0, 32⟩
abbrev TSEQ.Q_BASE_LO_addr : Fd := ⟨0x100, 12, 20⟩
abbrev TSEQ.Q_BASE_HI_addr : Fd := ⟨0x104, 0, 16⟩
abbrev TSEQ.Q_SBASE_LO_addr : Fd := ⟨0x108, 12, 20⟩
abbrev TSEQ.Q_SBASE_HI_addr : Fd := ⟨0x10C, 0, 16⟩
abbrev TSEQ.Q_CTRL_enable : Fd := ⟨0x110, 0, 1⟩
abbrev TSEQ.Q_CTRL_reset : Fd := ⟨0x110, 1, 1⟩
abbrev TSEQ.Q_CTRL_size_log2 : Fd := ⟨0x110, 2, 5⟩
abbrev TSEQ.Q_CTRL_prio : Fd := ⟨0x110, 8, 2⟩
abbrev TSEQ.Q_DOORBELL_tail : Fd := ⟨0x114, 0, 32⟩
abbrev TSEQ.Q_TAIL_count : Fd := ⟨0x118, 0, 32⟩
abbrev TSEQ.Q_HEAD_count : Fd := ⟨0x11C, 0, 32⟩
abbrev TSEQ.Q_DONE_count : Fd := ⟨0x120, 0, 32⟩
abbrev TSEQ.Q_STAT_idle : Fd := ⟨0x124, 0, 1⟩
abbrev TSEQ.Q_STAT_halted : Fd := ⟨0x124, 1, 1⟩
abbrev TSEQ.Q_STAT_waiting : Fd := ⟨0x124, 2, 1⟩
abbrev TSEQ.Q_STAT_cfg_err : Fd := ⟨0x124, 3, 1⟩
abbrev TSEQ.Q_STAT_wait_long : Fd := ⟨0x124, 4, 1⟩
abbrev TSEQ.Q_STAT_in_repeat : Fd := ⟨0x124, 5, 1⟩
abbrev TSEQ.Q_STAT_halt_code : Fd := ⟨0x124, 8, 8⟩
abbrev TSEQ.Q_WAIT_LIMIT_ms : Fd := ⟨0x128, 0, 16⟩
abbrev TSEQ.Q_DB_ERR_CNT_count : Fd := ⟨0x12C, 0, 32⟩
abbrev TSEQ.Q_REPEAT_depth : Fd := ⟨0x130, 0, 3⟩
abbrev TSEQ.Q_REPEAT_iter : Fd := ⟨0x130, 8, 24⟩

/-! ### TE page -/
abbrev TE.PAGE_CAP_present : Fd := ⟨0x004, 0, 1⟩
abbrev TE.PAGE_CAP_quad : Fd := ⟨0x004, 1, 1⟩
abbrev TE.PAGE_CAP_fp32 : Fd := ⟨0x004, 2, 1⟩
abbrev TE.PAGE_CAP_attn : Fd := ⟨0x004, 3, 1⟩
abbrev TE.PAGE_CAP_runlen : Fd := ⟨0x004, 4, 4⟩
abbrev TE.PAGE_CTRL_enable : Fd := ⟨0x008, 0, 1⟩
abbrev TE.PAGE_CTRL_soft_reset : Fd := ⟨0x008, 1, 1⟩
abbrev TE.PAGE_CTRL_quiesce : Fd := ⟨0x008, 2, 1⟩
abbrev TE.PAGE_STAT_busy : Fd := ⟨0x00C, 0, 1⟩
abbrev TE.PAGE_STAT_quiesced : Fd := ⟨0x00C, 1, 1⟩
abbrev TE.PAGE_STAT_quad_active : Fd := ⟨0x00C, 2, 1⟩
abbrev TE.PAGE_STAT_drain_busy : Fd := ⟨0x00C, 3, 1⟩
abbrev TE.PAGE_STAT_run_open : Fd := ⟨0x00C, 4, 1⟩
abbrev TE.PAGE_STAT_promo_full : Fd := ⟨0x00C, 5, 1⟩
abbrev TE.PAGE_EVT_done : Fd := ⟨0x010, 0, 1⟩
abbrev TE.PAGE_EVT_run_split : Fd := ⟨0x010, 1, 1⟩
abbrev TE.PAGE_EVT_acc_inf : Fd := ⟨0x010, 2, 1⟩
abbrev TE.PAGE_EVT_poison : Fd := ⟨0x010, 3, 1⟩
abbrev TE.PAGE_EVT_bad_desc : Fd := ⟨0x010, 4, 1⟩
abbrev TE.PAGE_EVT_aborted : Fd := ⟨0x010, 5, 1⟩
abbrev TE.PAGE_EVT_EN : Fd := ⟨0x014, 0, 6⟩
abbrev TE.PAGE_ERR_code : Fd := ⟨0x018, 0, 8⟩
abbrev TE.PAGE_ERR_CNT_count : Fd := ⟨0x01C, 0, 32⟩
abbrev TE.TE_CUR_DESC_LO_addr : Fd := ⟨0x040, 0, 32⟩
abbrev TE.TE_CUR_DESC_HI_addr : Fd := ⟨0x044, 0, 16⟩
abbrev TE.TE_BLOCK_ROW_row : Fd := ⟨0x048, 0, 17⟩
abbrev TE.TE_BLOCK_COL_col : Fd := ⟨0x04C, 0, 17⟩
abbrev TE.TE_KPOS_group : Fd := ⟨0x050, 0, 19⟩
abbrev TE.TE_RUNPOS_fill : Fd := ⟨0x054, 0, 6⟩
abbrev TE.TE_LAST_STATUS_code : Fd := ⟨0x058, 0, 8⟩
abbrev TE.TE_LAST_STATUS_flags : Fd := ⟨0x058, 8, 3⟩
abbrev TE.TE_BEAT_CNT_LO_count : Fd := ⟨0x060, 0, 32⟩
abbrev TE.TE_BEAT_CNT_HI_count : Fd := ⟨0x064, 0, 32⟩
abbrev TE.TE_STALL_CNT_LO_count : Fd := ⟨0x068, 0, 32⟩
abbrev TE.TE_STALL_CNT_HI_count : Fd := ⟨0x06C, 0, 32⟩
abbrev TE.TE_RUN_SPLIT_CNT_count : Fd := ⟨0x070, 0, 32⟩
abbrev TE.TE_ACC_INF_CNT_count : Fd := ⟨0x074, 0, 32⟩
abbrev TE.TE_POISON_CNT_count : Fd := ⟨0x078, 0, 32⟩
abbrev TE.TE_DRAIN_CNT_count : Fd := ⟨0x07C, 0, 32⟩

/-! ### VE page -/
abbrev VE.PAGE_CAP_present : Fd := ⟨0x004, 0, 1⟩
abbrev VE.PAGE_CAP_wide : Fd := ⟨0x004, 1, 1⟩
abbrev VE.PAGE_CAP_opt : Fd := ⟨0x004, 2, 1⟩
abbrev VE.PAGE_CAP_topk : Fd := ⟨0x004, 3, 1⟩
abbrev VE.PAGE_CAP_lanes_log2 : Fd := ⟨0x004, 8, 4⟩
abbrev VE.PAGE_CAP_windows : Fd := ⟨0x004, 12, 7⟩
abbrev VE.PAGE_CAP_topk_max : Fd := ⟨0x004, 19, 7⟩
abbrev VE.PAGE_CTRL_enable : Fd := ⟨0x008, 0, 1⟩
abbrev VE.PAGE_CTRL_soft_reset : Fd := ⟨0x008, 1, 1⟩
abbrev VE.PAGE_CTRL_quiesce : Fd := ⟨0x008, 2, 1⟩
abbrev VE.PAGE_STAT_busy : Fd := ⟨0x00C, 0, 1⟩
abbrev VE.PAGE_STAT_quiesced : Fd := ⟨0x00C, 1, 1⟩
abbrev VE.PAGE_STAT_norm_active : Fd := ⟨0x00C, 2, 1⟩
abbrev VE.PAGE_STAT_input_full : Fd := ⟨0x00C, 3, 1⟩
abbrev VE.PAGE_EVT_done : Fd := ⟨0x010, 0, 1⟩
abbrev VE.PAGE_EVT_flags : Fd := ⟨0x010, 1, 1⟩
abbrev VE.PAGE_EVT_poison : Fd := ⟨0x010, 2, 1⟩
abbrev VE.PAGE_EVT_bad_desc : Fd := ⟨0x010, 3, 1⟩
abbrev VE.PAGE_EVT_aborted : Fd := ⟨0x010, 4, 1⟩
abbrev VE.PAGE_EVT_EN : Fd := ⟨0x014, 0, 5⟩
abbrev VE.PAGE_ERR_code : Fd := ⟨0x018, 0, 8⟩
abbrev VE.PAGE_ERR_CNT_count : Fd := ⟨0x01C, 0, 32⟩
abbrev VE.WIN_BASE_LO_addr : Fd := ⟨0x040, 0, 32⟩
abbrev VE.WIN_BASE_HI_addr : Fd := ⟨0x044, 0, 16⟩
abbrev VE.VE_FLAGS_flags : Fd := ⟨0x048, 0, 6⟩
abbrev VE.VE_CUR_DESC_LO_addr : Fd := ⟨0x04C, 0, 32⟩
abbrev VE.VE_CUR_DESC_HI_addr : Fd := ⟨0x050, 0, 16⟩
abbrev VE.VE_CUR_VEC_vec : Fd := ⟨0x054, 0, 24⟩
abbrev VE.VE_LAST_STATUS_code : Fd := ⟨0x058, 0, 8⟩
abbrev VE.VE_LAST_FLAGS_word : Fd := ⟨0x05C, 0, 32⟩
abbrev VE.VE_VEC_CNT_LO_count : Fd := ⟨0x060, 0, 32⟩
abbrev VE.VE_VEC_CNT_HI_count : Fd := ⟨0x064, 0, 32⟩
abbrev VE.VE_STALL_CNT_LO_count : Fd := ⟨0x068, 0, 32⟩
abbrev VE.VE_STALL_CNT_HI_count : Fd := ⟨0x06C, 0, 32⟩
abbrev VE.VE_DESC_CNT_count : Fd := ⟨0x070, 0, 32⟩

/-! ### DMA page -/
abbrev DMA.PAGE_CAP_present : Fd := ⟨0x004, 0, 1⟩
abbrev DMA.PAGE_CAP_convert : Fd := ⟨0x004, 1, 1⟩
abbrev DMA.PAGE_CAP_gather : Fd := ⟨0x004, 2, 1⟩
abbrev DMA.PAGE_CAP_slots : Fd := ⟨0x004, 4, 4⟩
abbrev DMA.PAGE_CAP_depth : Fd := ⟨0x004, 8, 8⟩
abbrev DMA.PAGE_CTRL_enable : Fd := ⟨0x008, 0, 1⟩
abbrev DMA.PAGE_CTRL_soft_reset : Fd := ⟨0x008, 1, 1⟩
abbrev DMA.PAGE_CTRL_quiesce : Fd := ⟨0x008, 2, 1⟩
abbrev DMA.PAGE_STAT_busy : Fd := ⟨0x00C, 0, 1⟩
abbrev DMA.PAGE_STAT_quiesced : Fd := ⟨0x00C, 1, 1⟩
abbrev DMA.PAGE_STAT_active : Fd := ⟨0x00C, 2, 3⟩
abbrev DMA.PAGE_STAT_queued : Fd := ⟨0x00C, 8, 4⟩
abbrev DMA.PAGE_EVT_done : Fd := ⟨0x010, 0, 1⟩
abbrev DMA.PAGE_EVT_poison : Fd := ⟨0x010, 1, 1⟩
abbrev DMA.PAGE_EVT_bad_desc : Fd := ⟨0x010, 2, 1⟩
abbrev DMA.PAGE_EVT_aborted : Fd := ⟨0x010, 3, 1⟩
abbrev DMA.PAGE_EVT_peer : Fd := ⟨0x010, 4, 1⟩
abbrev DMA.PAGE_EVT_EN : Fd := ⟨0x014, 0, 5⟩
abbrev DMA.PAGE_ERR_code : Fd := ⟨0x018, 0, 8⟩
abbrev DMA.PAGE_ERR_CNT_count : Fd := ⟨0x01C, 0, 32⟩
abbrev DMA.DMA_CUR_DESC_LO_addr : Fd := ⟨0x040, 0, 32⟩
abbrev DMA.DMA_CUR_DESC_HI_addr : Fd := ⟨0x044, 0, 16⟩
abbrev DMA.DMA_SLOT_IDX_slot : Fd := ⟨0x048, 0, 2⟩
abbrev DMA.DMA_SLOT_DESC_LO_addr : Fd := ⟨0x04C, 0, 32⟩
abbrev DMA.DMA_SLOT_DESC_HI_addr : Fd := ⟨0x050, 0, 16⟩
abbrev DMA.DMA_SLOT_DESC_HI_valid : Fd := ⟨0x050, 16, 1⟩
abbrev DMA.DMA_SLOT_DONE_bytes : Fd := ⟨0x054, 0, 32⟩
abbrev DMA.DMA_LAST_STATUS_code : Fd := ⟨0x058, 0, 8⟩
abbrev DMA.DMA_LAST_STATUS_poison : Fd := ⟨0x058, 8, 1⟩
abbrev DMA.DMA_RD_BYTES_LO_count : Fd := ⟨0x060, 0, 32⟩
abbrev DMA.DMA_RD_BYTES_HI_count : Fd := ⟨0x064, 0, 32⟩
abbrev DMA.DMA_WR_BYTES_LO_count : Fd := ⟨0x068, 0, 32⟩
abbrev DMA.DMA_WR_BYTES_HI_count : Fd := ⟨0x06C, 0, 32⟩
abbrev DMA.DMA_DESC_CNT_count : Fd := ⟨0x070, 0, 32⟩
abbrev DMA.DMA_POISON_CNT_count : Fd := ⟨0x074, 0, 32⟩
abbrev DMA.DMA_ABORT_CNT_count : Fd := ⟨0x078, 0, 32⟩

/-! ### SPAD page -/
abbrev SPAD.PAGE_CAP_present : Fd := ⟨0x004, 0, 1⟩
abbrev SPAD.PAGE_CAP_banks : Fd := ⟨0x004, 8, 8⟩
abbrev SPAD.PAGE_CAP_bank_mib : Fd := ⟨0x004, 16, 8⟩
abbrev SPAD.PAGE_CAP_spares : Fd := ⟨0x004, 24, 8⟩
abbrev SPAD.PAGE_CTRL_enable : Fd := ⟨0x008, 0, 1⟩
abbrev SPAD.PAGE_CTRL_soft_reset : Fd := ⟨0x008, 1, 1⟩
abbrev SPAD.PAGE_STAT_init_done : Fd := ⟨0x00C, 0, 1⟩
abbrev SPAD.PAGE_STAT_corrq_full : Fd := ⟨0x00C, 1, 1⟩
abbrev SPAD.PAGE_EVT_ce_single : Fd := ⟨0x010, 0, 1⟩
abbrev SPAD.PAGE_EVT_ce_double : Fd := ⟨0x010, 1, 1⟩
abbrev SPAD.PAGE_EVT_uc : Fd := ⟨0x010, 2, 1⟩
abbrev SPAD.PAGE_EVT_corrq_drop : Fd := ⟨0x010, 3, 1⟩
abbrev SPAD.PAGE_EVT_repair_cand : Fd := ⟨0x010, 4, 1⟩
abbrev SPAD.PAGE_EVT_poison_read : Fd := ⟨0x010, 5, 1⟩
abbrev SPAD.PAGE_EVT_EN : Fd := ⟨0x014, 0, 6⟩
abbrev SPAD.PAGE_ERR_code : Fd := ⟨0x018, 0, 8⟩
abbrev SPAD.PAGE_ERR_CNT_count : Fd := ⟨0x01C, 0, 32⟩
abbrev SPAD.SPAD_ARB_w_tensor : Fd := ⟨0x040, 0, 4⟩
abbrev SPAD.SPAD_ARB_w_drain : Fd := ⟨0x040, 4, 4⟩
abbrev SPAD.SPAD_ARB_w_vector : Fd := ⟨0x040, 8, 4⟩
abbrev SPAD.SPAD_ARB_w_dma : Fd := ⟨0x040, 12, 4⟩
abbrev SPAD.SPAD_ARB_w_hub : Fd := ⟨0x040, 16, 4⟩
abbrev SPAD.SPAD_ARB_w_scrub : Fd := ⟨0x040, 20, 4⟩
abbrev SPAD.SPAD_CE1_CNT_count : Fd := ⟨0x048, 0, 32⟩
abbrev SPAD.SPAD_CE2_CNT_count : Fd := ⟨0x04C, 0, 32⟩
abbrev SPAD.SPAD_UC_CNT_count : Fd := ⟨0x050, 0, 32⟩
abbrev SPAD.SPAD_POISON_RD_CNT_count : Fd := ⟨0x054, 0, 32⟩
abbrev SPAD.SPAD_ERR_ADDR_LO_addr : Fd := ⟨0x058, 0, 32⟩
abbrev SPAD.SPAD_ERR_ADDR_HI_addr : Fd := ⟨0x05C, 0, 16⟩
abbrev SPAD.SPAD_ERR_SYN_s1 : Fd := ⟨0x060, 0, 7⟩
abbrev SPAD.SPAD_ERR_SYN_s3 : Fd := ⟨0x060, 7, 7⟩
abbrev SPAD.SPAD_ERR_SYN_p : Fd := ⟨0x060, 14, 1⟩
abbrev SPAD.SPAD_CORRQ_depth : Fd := ⟨0x064, 0, 5⟩
abbrev SPAD.SPAD_CORRQ_drops : Fd := ⟨0x064, 16, 16⟩
abbrev SPAD.SPAD_REPAIR_used : Fd := ⟨0x068, 0, 16⟩
abbrev SPAD.SPAD_REPAIR_pending : Fd := ⟨0x068, 16, 16⟩
abbrev SPAD.SPAD_CLASS_SEL_cls : Fd := ⟨0x070, 0, 3⟩
abbrev SPAD.SPAD_CLASS_CNT_LO_count : Fd := ⟨0x078, 0, 32⟩
abbrev SPAD.SPAD_CLASS_CNT_HI_count : Fd := ⟨0x07C, 0, 32⟩
abbrev SPAD.SPAD_CYCLE_CNT_LO_count : Fd := ⟨0x080, 0, 32⟩
abbrev SPAD.SPAD_CYCLE_CNT_HI_count : Fd := ⟨0x084, 0, 32⟩

/-! ### RNG page -/
abbrev RNG.PAGE_CAP_present : Fd := ⟨0x004, 0, 1⟩
abbrev RNG.PAGE_CAP_normal : Fd := ⟨0x004, 1, 1⟩
abbrev RNG.PAGE_CAP_seq_count : Fd := ⟨0x004, 4, 4⟩
abbrev RNG.PAGE_CTRL_enable : Fd := ⟨0x008, 0, 1⟩
abbrev RNG.PAGE_CTRL_soft_reset : Fd := ⟨0x008, 1, 1⟩
abbrev RNG.PAGE_CTRL_quiesce : Fd := ⟨0x008, 2, 1⟩
abbrev RNG.PAGE_STAT_busy : Fd := ⟨0x00C, 0, 1⟩
abbrev RNG.PAGE_STAT_quiesced : Fd := ⟨0x00C, 1, 1⟩
abbrev RNG.PAGE_EVT_done : Fd := ⟨0x010, 0, 1⟩
abbrev RNG.PAGE_EVT_ctrl_err : Fd := ⟨0x010, 1, 1⟩
abbrev RNG.PAGE_EVT_realign_done : Fd := ⟨0x010, 2, 1⟩
abbrev RNG.PAGE_EVT_EN : Fd := ⟨0x014, 0, 3⟩
abbrev RNG.PAGE_ERR_code : Fd := ⟨0x018, 0, 8⟩
abbrev RNG.PAGE_ERR_CNT_count : Fd := ⟨0x01C, 0, 32⟩
abbrev RNG.JOB_KEY_LO_key : Fd := ⟨0x040, 0, 32⟩
abbrev RNG.JOB_KEY_HI_key : Fd := ⟨0x044, 0, 32⟩
abbrev RNG.STEP_value : Fd := ⟨0x048, 0, 32⟩
abbrev RNG.REALIGN_go : Fd := ⟨0x04C, 0, 1⟩
abbrev RNG.BLOCK_CNT_LO_count : Fd := ⟨0x050, 0, 32⟩
abbrev RNG.BLOCK_CNT_HI_count : Fd := ⟨0x054, 0, 32⟩
abbrev RNG.DRAW_LO_count : Fd := ⟨0x080, 0, 32⟩
abbrev RNG.DRAW_HI_count : Fd := ⟨0x084, 0, 32⟩
abbrev RNG.SEQ_CFG_per_step : Fd := ⟨0x088, 0, 32⟩
abbrev RNG.SEQ_BASE_step : Fd := ⟨0x08C, 0, 32⟩

/-! ### SCALE page -/
abbrev SCALE.PAGE_CAP_present : Fd := ⟨0x004, 0, 1⟩
abbrev SCALE.PAGE_CAP_hist_log2 : Fd := ⟨0x004, 4, 4⟩
abbrev SCALE.PAGE_CAP_slots_log2 : Fd := ⟨0x004, 8, 4⟩
abbrev SCALE.PAGE_CTRL_enable : Fd := ⟨0x008, 0, 1⟩
abbrev SCALE.PAGE_CTRL_soft_reset : Fd := ⟨0x008, 1, 1⟩
abbrev SCALE.PAGE_CTRL_quiesce : Fd := ⟨0x008, 2, 1⟩
abbrev SCALE.PAGE_STAT_busy : Fd := ⟨0x00C, 0, 1⟩
abbrev SCALE.PAGE_STAT_quiesced : Fd := ⟨0x00C, 1, 1⟩
abbrev SCALE.PAGE_EVT_done : Fd := ⟨0x010, 0, 1⟩
abbrev SCALE.PAGE_EVT_clamp : Fd := ⟨0x010, 1, 1⟩
abbrev SCALE.PAGE_EVT_bad_amax : Fd := ⟨0x010, 2, 1⟩
abbrev SCALE.PAGE_EVT_EN : Fd := ⟨0x014, 0, 3⟩
abbrev SCALE.PAGE_ERR_code : Fd := ⟨0x018, 0, 8⟩
abbrev SCALE.PAGE_ERR_CNT_count : Fd := ⟨0x01C, 0, 32⟩
abbrev SCALE.SLOT_IDX_slot : Fd := ⟨0x040, 0, 12⟩
abbrev SCALE.SLOT_EXP_exp : Fd := ⟨0x044, 0, 8⟩
abbrev SCALE.SLOT_EXP_hidx : Fd := ⟨0x044, 8, 4⟩
abbrev SCALE.SLOT_TARGET_value : Fd := ⟨0x048, 0, 32⟩
abbrev SCALE.SLOT_AMAX_value : Fd := ⟨0x04C, 0, 32⟩
abbrev SCALE.SLOT_HMAX_value : Fd := ⟨0x050, 0, 32⟩
abbrev SCALE.CLAMP_CNT_count : Fd := ⟨0x054, 0, 32⟩
abbrev SCALE.BAD_AMAX_CNT_count : Fd := ⟨0x058, 0, 32⟩
abbrev SCALE.FIRST_CLAMP_slot : Fd := ⟨0x05C, 0, 12⟩
abbrev SCALE.FIRST_CLAMP_valid : Fd := ⟨0x05C, 12, 1⟩

/-! ### WATCH page -/
abbrev WATCH.PAGE_CAP_present : Fd := ⟨0x004, 0, 1⟩
abbrev WATCH.PAGE_CAP_count_bits : Fd := ⟨0x004, 8, 6⟩
abbrev WATCH.PAGE_CTRL_enable : Fd := ⟨0x008, 0, 1⟩
abbrev WATCH.PAGE_CTRL_soft_reset : Fd := ⟨0x008, 1, 1⟩
abbrev WATCH.PAGE_STAT_snap_valid : Fd := ⟨0x00C, 0, 1⟩
abbrev WATCH.PAGE_EVT_sat : Fd := ⟨0x010, 0, 1⟩
abbrev WATCH.PAGE_EVT_EN : Fd := ⟨0x014, 0, 1⟩
abbrev WATCH.PAGE_ERR_code : Fd := ⟨0x018, 0, 8⟩
abbrev WATCH.PAGE_ERR_CNT_count : Fd := ⟨0x01C, 0, 32⟩
abbrev WATCH.WATCH_IDX_slot : Fd := ⟨0x040, 0, 12⟩
abbrev WATCH.WATCH_IDX_clear : Fd := ⟨0x040, 31, 1⟩
abbrev WATCH.WATCH_SNAP_LO_count : Fd := ⟨0x048, 0, 32⟩
abbrev WATCH.WATCH_SNAP_HI_count : Fd := ⟨0x04C, 0, 16⟩

/-! ### SCRUB page -/
abbrev SCRUB.PAGE_CAP_present : Fd := ⟨0x004, 0, 1⟩
abbrev SCRUB.PAGE_CTRL_enable : Fd := ⟨0x008, 0, 1⟩
abbrev SCRUB.PAGE_CTRL_soft_reset : Fd := ⟨0x008, 1, 1⟩
abbrev SCRUB.PAGE_CTRL_quiesce : Fd := ⟨0x008, 2, 1⟩
abbrev SCRUB.PAGE_EVT_u_pass_done : Fd := ⟨0x010, 0, 1⟩
abbrev SCRUB.PAGE_EVT_s_pass_done : Fd := ⟨0x010, 1, 1⟩
abbrev SCRUB.PAGE_EVT_u_late : Fd := ⟨0x010, 2, 1⟩
abbrev SCRUB.PAGE_EVT_s_late : Fd := ⟨0x010, 3, 1⟩
abbrev SCRUB.PAGE_EVT_found_uc : Fd := ⟨0x010, 4, 1⟩
abbrev SCRUB.PAGE_EVT_EN : Fd := ⟨0x014, 0, 5⟩
abbrev SCRUB.PAGE_ERR_code : Fd := ⟨0x018, 0, 8⟩
abbrev SCRUB.PAGE_ERR_CNT_count : Fd := ⟨0x01C, 0, 32⟩
abbrev SCRUB.SCRUB_U_INTERVAL_hours : Fd := ⟨0x040, 0, 8⟩
abbrev SCRUB.SCRUB_S_INTERVAL_hours : Fd := ⟨0x044, 0, 8⟩
abbrev SCRUB.SCRUB_U_POS_line : Fd := ⟨0x048, 0, 20⟩
abbrev SCRUB.SCRUB_S_POS_unit : Fd := ⟨0x04C, 0, 29⟩
abbrev SCRUB.SCRUB_U_PASS_CNT_count : Fd := ⟨0x050, 0, 32⟩
abbrev SCRUB.SCRUB_S_PASS_CNT_count : Fd := ⟨0x054, 0, 32⟩
abbrev SCRUB.SCRUB_LAST_u_min : Fd := ⟨0x058, 0, 16⟩
abbrev SCRUB.SCRUB_LAST_s_min : Fd := ⟨0x058, 16, 16⟩
abbrev SCRUB.SCRUB_CE_CNT_count : Fd := ⟨0x060, 0, 32⟩
abbrev SCRUB.SCRUB_UC_CNT_count : Fd := ⟨0x064, 0, 32⟩

/-! ### STK page -/
abbrev STK.PAGE_CAP_present : Fd := ⟨0x004, 0, 1⟩
abbrev STK.PAGE_CAP_sids : Fd := ⟨0x004, 4, 4⟩
abbrev STK.PAGE_CAP_data_gib : Fd := ⟨0x004, 8, 8⟩
abbrev STK.PAGE_CAP_pcs : Fd := ⟨0x004, 16, 8⟩
abbrev STK.PAGE_CTRL_enable : Fd := ⟨0x008, 0, 1⟩
abbrev STK.PAGE_CTRL_soft_reset : Fd := ⟨0x008, 1, 1⟩
abbrev STK.PAGE_CTRL_quiesce : Fd := ⟨0x008, 2, 1⟩
abbrev STK.PAGE_STAT_trained : Fd := ⟨0x00C, 0, 1⟩
abbrev STK.PAGE_STAT_self_refresh : Fd := ⟨0x00C, 1, 1⟩
abbrev STK.PAGE_STAT_hot : Fd := ⟨0x00C, 2, 1⟩
abbrev STK.PAGE_STAT_init_done : Fd := ⟨0x00C, 3, 1⟩
abbrev STK.PAGE_STAT_quiesced : Fd := ⟨0x00C, 4, 1⟩
abbrev STK.PAGE_EVT_ce_single : Fd := ⟨0x010, 0, 1⟩
abbrev STK.PAGE_EVT_ce_double : Fd := ⟨0x010, 1, 1⟩
abbrev STK.PAGE_EVT_uc : Fd := ⟨0x010, 2, 1⟩
abbrev STK.PAGE_EVT_hot : Fd := ⟨0x010, 3, 1⟩
abbrev STK.PAGE_EVT_repair_cand : Fd := ⟨0x010, 4, 1⟩
abbrev STK.PAGE_EVT_corrq_drop : Fd := ⟨0x010, 5, 1⟩
abbrev STK.PAGE_EVT_poison_read : Fd := ⟨0x010, 6, 1⟩
abbrev STK.PAGE_EVT_EN : Fd := ⟨0x014, 0, 7⟩
abbrev STK.PAGE_ERR_code : Fd := ⟨0x018, 0, 8⟩
abbrev STK.PAGE_ERR_CNT_count : Fd := ⟨0x01C, 0, 32⟩
abbrev STK.STK_ARB_w_local : Fd := ⟨0x040, 0, 4⟩
abbrev STK.STK_ARB_w_hub : Fd := ⟨0x040, 4, 4⟩
abbrev STK.STK_ARB_w_scrub : Fd := ⟨0x040, 8, 4⟩
abbrev STK.STK_TEMP_now : Fd := ⟨0x044, 0, 8⟩
abbrev STK.STK_TEMP_max : Fd := ⟨0x044, 8, 8⟩
abbrev STK.STK_CE1_CNT_count : Fd := ⟨0x048, 0, 32⟩
abbrev STK.STK_CE2_CNT_count : Fd := ⟨0x04C, 0, 32⟩
abbrev STK.STK_UC_CNT_count : Fd := ⟨0x050, 0, 32⟩
abbrev STK.STK_POISON_RD_CNT_count : Fd := ⟨0x054, 0, 32⟩
abbrev STK.STK_ERR_ADDR_LO_addr : Fd := ⟨0x058, 0, 32⟩
abbrev STK.STK_ERR_ADDR_HI_addr : Fd := ⟨0x05C, 0, 16⟩
abbrev STK.STK_ERR_SYN_s1 : Fd := ⟨0x060, 0, 7⟩
abbrev STK.STK_ERR_SYN_s3 : Fd := ⟨0x060, 7, 7⟩
abbrev STK.STK_ERR_SYN_p : Fd := ⟨0x060, 14, 1⟩
abbrev STK.STK_ERR_SYN_pc : Fd := ⟨0x060, 15, 6⟩
abbrev STK.STK_ERR_SYN_sid : Fd := ⟨0x060, 21, 3⟩
abbrev STK.STK_REPAIR_soft : Fd := ⟨0x064, 0, 8⟩
abbrev STK.STK_REPAIR_hard : Fd := ⟨0x064, 8, 8⟩
abbrev STK.STK_REPAIR_pending : Fd := ⟨0x064, 16, 8⟩
abbrev STK.STK_RD_BYTES_LO_count : Fd := ⟨0x068, 0, 32⟩
abbrev STK.STK_RD_BYTES_HI_count : Fd := ⟨0x06C, 0, 32⟩
abbrev STK.STK_WR_BYTES_LO_count : Fd := ⟨0x070, 0, 32⟩
abbrev STK.STK_WR_BYTES_HI_count : Fd := ⟨0x074, 0, 32⟩
abbrev STK.STK_CORRQ_depth : Fd := ⟨0x078, 0, 5⟩
abbrev STK.STK_CORRQ_drops : Fd := ⟨0x078, 16, 16⟩

/-! ### STKPHY page -/
abbrev STKPHY.PAGE_CAP_present : Fd := ⟨0x004, 0, 1⟩
abbrev STKPHY.PAGE_CAP_channels : Fd := ⟨0x004, 8, 8⟩
abbrev STKPHY.PAGE_CAP_pins : Fd := ⟨0x004, 16, 16⟩
abbrev STKPHY.PAGE_CTRL_enable : Fd := ⟨0x008, 0, 1⟩
abbrev STKPHY.PAGE_CTRL_soft_reset : Fd := ⟨0x008, 1, 1⟩
abbrev STKPHY.PAGE_STAT_trained : Fd := ⟨0x00C, 0, 1⟩
abbrev STKPHY.PAGE_STAT_training : Fd := ⟨0x00C, 1, 1⟩
abbrev STKPHY.PAGE_STAT_clock_run : Fd := ⟨0x00C, 2, 1⟩
abbrev STKPHY.PAGE_EVT_trained : Fd := ⟨0x010, 0, 1⟩
abbrev STKPHY.PAGE_EVT_retrain : Fd := ⟨0x010, 1, 1⟩
abbrev STKPHY.PAGE_EVT_train_fail : Fd := ⟨0x010, 2, 1⟩
abbrev STKPHY.PAGE_EVT_ctrl_err : Fd := ⟨0x010, 3, 1⟩
abbrev STKPHY.PAGE_EVT_EN : Fd := ⟨0x014, 0, 4⟩
abbrev STKPHY.PAGE_ERR_code : Fd := ⟨0x018, 0, 8⟩
abbrev STKPHY.PAGE_ERR_CNT_count : Fd := ⟨0x01C, 0, 32⟩
abbrev STKPHY.PHY_RATE_gbps10 : Fd := ⟨0x040, 0, 8⟩
abbrev STKPHY.PHY_RETRAIN_CNT_count : Fd := ⟨0x044, 0, 32⟩
abbrev STKPHY.PHY_TRAIN_TIME_us : Fd := ⟨0x048, 0, 24⟩
abbrev STKPHY.PHY_LANE_IDX_channel : Fd := ⟨0x04C, 0, 5⟩
abbrev STKPHY.PHY_LANE_IDX_lane : Fd := ⟨0x04C, 5, 6⟩
abbrev STKPHY.PHY_MARGIN_timing : Fd := ⟨0x050, 0, 8⟩
abbrev STKPHY.PHY_MARGIN_voltage : Fd := ⟨0x050, 8, 8⟩
abbrev STKPHY.PHY_CHECK_CNT_count : Fd := ⟨0x054, 0, 32⟩
abbrev STKPHY.PHY_FAIL_CNT_count : Fd := ⟨0x058, 0, 32⟩

/-! ### LINK page -/
abbrev LINK.PAGE_CAP_present : Fd := ⟨0x004, 0, 1⟩
abbrev LINK.PAGE_CAP_global : Fd := ⟨0x004, 1, 1⟩
abbrev LINK.PAGE_CAP_adder : Fd := ⟨0x004, 2, 1⟩
abbrev LINK.PAGE_CAP_channels : Fd := ⟨0x004, 8, 8⟩
abbrev LINK.PAGE_CTRL_enable : Fd := ⟨0x008, 0, 1⟩
abbrev LINK.PAGE_CTRL_soft_reset : Fd := ⟨0x008, 1, 1⟩
abbrev LINK.PAGE_CTRL_quiesce : Fd := ⟨0x008, 2, 1⟩
abbrev LINK.PAGE_STAT_quiesced : Fd := ⟨0x00C, 0, 1⟩
abbrev LINK.PAGE_STAT_peer_valid : Fd := ⟨0x00C, 1, 1⟩
abbrev LINK.PAGE_STAT_carry : Fd := ⟨0x00C, 16, 16⟩
abbrev LINK.PAGE_EVT_trained : Fd := ⟨0x010, 0, 1⟩
abbrev LINK.PAGE_EVT_peer_err : Fd := ⟨0x010, 1, 1⟩
abbrev LINK.PAGE_EVT_coord_mismatch : Fd := ⟨0x010, 2, 1⟩
abbrev LINK.PAGE_EVT_epoch_mismatch : Fd := ⟨0x010, 3, 1⟩
abbrev LINK.PAGE_EVT_retrain : Fd := ⟨0x010, 4, 1⟩
abbrev LINK.PAGE_EVT_port_down : Fd := ⟨0x010, 5, 1⟩
abbrev LINK.PAGE_EVT_misaddr : Fd := ⟨0x010, 6, 1⟩
abbrev LINK.PAGE_EVT_EN : Fd := ⟨0x014, 0, 7⟩
abbrev LINK.PAGE_ERR_code : Fd := ⟨0x018, 0, 8⟩
abbrev LINK.PAGE_ERR_CNT_count : Fd := ⟨0x01C, 0, 32⟩
abbrev LINK.LINK_PEER_rank : Fd := ⟨0x040, 0, 16⟩
abbrev LINK.LINK_PEER_feed : Fd := ⟨0x040, 16, 16⟩
abbrev LINK.REPLAY_TIMEOUT_us : Fd := ⟨0x044, 0, 16⟩
abbrev LINK.CRC_CNT_count : Fd := ⟨0x048, 0, 32⟩
abbrev LINK.FEC_UC_CNT_count : Fd := ⟨0x04C, 0, 32⟩
abbrev LINK.FEC_CE_CNT_count : Fd := ⟨0x050, 0, 32⟩
abbrev LINK.INCOMPLETE_CNT_count : Fd := ⟨0x054, 0, 32⟩
abbrev LINK.MALFORMED_CNT_count : Fd := ⟨0x058, 0, 32⟩
abbrev LINK.MISADDR_CNT_count : Fd := ⟨0x05C, 0, 32⟩
abbrev LINK.CREDIT_OVR_CNT_count : Fd := ⟨0x060, 0, 32⟩
abbrev LINK.REPLAY_RX_CNT_count : Fd := ⟨0x064, 0, 32⟩
abbrev LINK.REPLAY_TX_CNT_count : Fd := ⟨0x068, 0, 32⟩
abbrev LINK.DUP_CNT_count : Fd := ⟨0x06C, 0, 32⟩
abbrev LINK.RETRAIN_CNT_count : Fd := ⟨0x070, 0, 32⟩
abbrev LINK.COORD_ERR_CNT_count : Fd := ⟨0x074, 0, 32⟩
abbrev LINK.LAST_BAD_rank : Fd := ⟨0x078, 0, 16⟩
abbrev LINK.LAST_BAD_check : Fd := ⟨0x078, 16, 8⟩
abbrev LINK.CH_TRAIN_tx : Fd := ⟨0x100, 0, 4⟩
abbrev LINK.CH_TRAIN_rx : Fd := ⟨0x100, 4, 4⟩
abbrev LINK.CH_TRAIN_port : Fd := ⟨0x100, 8, 8⟩
abbrev LINK.CH_TRAIN_peer : Fd := ⟨0x100, 16, 16⟩

/-! ### PE page -/
abbrev PE.PAGE_CAP_present : Fd := ⟨0x004, 0, 1⟩
abbrev PE.PAGE_CAP_spare_comb : Fd := ⟨0x004, 1, 1⟩
abbrev PE.PAGE_CAP_mesh : Fd := ⟨0x004, 2, 1⟩
abbrev PE.PAGE_CAP_fanout : Fd := ⟨0x004, 3, 1⟩
abbrev PE.PAGE_CAP_links : Fd := ⟨0x004, 8, 8⟩
abbrev PE.PAGE_CAP_lines : Fd := ⟨0x004, 16, 8⟩
abbrev PE.PAGE_CAP_channels : Fd := ⟨0x004, 24, 8⟩
abbrev PE.PAGE_CTRL_enable : Fd := ⟨0x008, 0, 1⟩
abbrev PE.PAGE_CTRL_soft_reset : Fd := ⟨0x008, 1, 1⟩
abbrev PE.PAGE_CTRL_quiesce : Fd := ⟨0x008, 2, 1⟩
abbrev PE.PAGE_STAT_lit : Fd := ⟨0x00C, 0, 1⟩
abbrev PE.PAGE_STAT_comb_sel : Fd := ⟨0x00C, 1, 1⟩
abbrev PE.PAGE_STAT_hold : Fd := ⟨0x00C, 2, 1⟩
abbrev PE.PAGE_STAT_quiesced : Fd := ⟨0x00C, 3, 1⟩
abbrev PE.PAGE_STAT_cal_busy : Fd := ⟨0x00C, 4, 1⟩
abbrev PE.PAGE_STAT_shut : Fd := ⟨0x00C, 8, 8⟩
abbrev PE.PAGE_STAT_carry : Fd := ⟨0x00C, 16, 8⟩
abbrev PE.PAGE_EVT_comb_failover : Fd := ⟨0x010, 0, 1⟩
abbrev PE.PAGE_EVT_comb_lost : Fd := ⟨0x010, 1, 1⟩
abbrev PE.PAGE_EVT_line_fail : Fd := ⟨0x010, 2, 1⟩
abbrev PE.PAGE_EVT_thermal_step : Fd := ⟨0x010, 3, 1⟩
abbrev PE.PAGE_EVT_wrong_line : Fd := ⟨0x010, 4, 1⟩
abbrev PE.PAGE_EVT_lock_lost : Fd := ⟨0x010, 5, 1⟩
abbrev PE.PAGE_EVT_retired : Fd := ⟨0x010, 6, 1⟩
abbrev PE.PAGE_EVT_shutter : Fd := ⟨0x010, 7, 1⟩
abbrev PE.PAGE_EVT_mated : Fd := ⟨0x010, 8, 1⟩
abbrev PE.PAGE_EVT_cal_done : Fd := ⟨0x010, 9, 1⟩
abbrev PE.PAGE_EVT_ctrl_err : Fd := ⟨0x010, 10, 1⟩
abbrev PE.PAGE_EVT_loss : Fd := ⟨0x010, 11, 1⟩
abbrev PE.PAGE_EVT_EN : Fd := ⟨0x014, 0, 12⟩
abbrev PE.PAGE_ERR_code : Fd := ⟨0x018, 0, 8⟩
abbrev PE.PAGE_ERR_CNT_count : Fd := ⟨0x01C, 0, 32⟩
abbrev PE.COMB_CTRL_select : Fd := ⟨0x040, 0, 1⟩
abbrev PE.COMB_CTRL_auto : Fd := ⟨0x040, 1, 1⟩
abbrev PE.COMB_STAT_a_ok : Fd := ⟨0x044, 0, 1⟩
abbrev PE.COMB_STAT_b_ok : Fd := ⟨0x044, 1, 1⟩
abbrev PE.COMB_STAT_locker : Fd := ⟨0x044, 8, 8⟩
abbrev PE.COMB_A_HOURS_hours : Fd := ⟨0x048, 0, 32⟩
abbrev PE.COMB_B_HOURS_hours : Fd := ⟨0x04C, 0, 32⟩
abbrev PE.LINE_FAIL_LO_lines : Fd := ⟨0x050, 0, 32⟩
abbrev PE.LINE_FAIL_HI_lines : Fd := ⟨0x054, 0, 32⟩
abbrev PE.SHUTTER_force : Fd := ⟨0x058, 0, 8⟩
abbrev PE.SHUTTER_los : Fd := ⟨0x058, 8, 8⟩
abbrev PE.SHUTTER_plug : Fd := ⟨0x058, 16, 1⟩
abbrev PE.MESH_MAP_src : Fd := ⟨0x05C, 0, 24⟩
abbrev PE.MESH_MAP_loop_en : Fd := ⟨0x05C, 24, 1⟩
abbrev PE.MESH_MAP_loop_bus : Fd := ⟨0x05C, 25, 3⟩
abbrev PE.MESH_MAP_mon_en : Fd := ⟨0x05C, 28, 1⟩
abbrev PE.MESH_MAP_mon_bus : Fd := ⟨0x05C, 29, 3⟩
abbrev PE.MESH_CTRL_commit : Fd := ⟨0x060, 0, 1⟩
abbrev PE.MESH_CTRL_raw : Fd := ⟨0x060, 1, 1⟩
abbrev PE.MESH_CTRL_cal : Fd := ⟨0x060, 2, 1⟩
abbrev PE.MESH_CTRL_busy : Fd := ⟨0x060, 3, 1⟩
abbrev PE.MESH_CTRL_cal_err : Fd := ⟨0x060, 4, 1⟩
abbrev PE.MESH_IDX_elem : Fd := ⟨0x064, 0, 6⟩
abbrev PE.MESH_CODE_theta : Fd := ⟨0x068, 0, 16⟩
abbrev PE.MESH_CODE_phi : Fd := ⟨0x068, 16, 16⟩
abbrev PE.MON_IDX_stage : Fd := ⟨0x06C, 0, 4⟩
abbrev PE.MON_IDX_link : Fd := ⟨0x06C, 4, 3⟩
abbrev PE.MON_IDX_channel : Fd := ⟨0x06C, 8, 4⟩
abbrev PE.MON_IDX_total : Fd := ⟨0x06C, 12, 1⟩
abbrev PE.MON_IDX_comb : Fd := ⟨0x06C, 13, 1⟩
abbrev PE.MON_IDX_line : Fd := ⟨0x06C, 14, 6⟩
abbrev PE.MON_VAL_now : Fd := ⟨0x070, 0, 16⟩
abbrev PE.MON_VAL_cal : Fd := ⟨0x070, 16, 16⟩
abbrev PE.RP_TEMP_now : Fd := ⟨0x074, 0, 8⟩
abbrev PE.RP_TEMP_max : Fd := ⟨0x074, 8, 8⟩
abbrev PE.THERMAL_CNT_count : Fd := ⟨0x078, 0, 32⟩
abbrev PE.WRONG_LINE_CNT_count : Fd := ⟨0x07C, 0, 32⟩
abbrev PE.LOCK_LOST_CNT_count : Fd := ⟨0x080, 0, 32⟩
abbrev PE.RETIRE_CNT_count : Fd := ⟨0x084, 0, 32⟩
abbrev PE.FAILOVER_CNT_count : Fd := ⟨0x088, 0, 32⟩

/-! ### PECH page -/
abbrev PECH.PAGE_CAP_present : Fd := ⟨0x004, 0, 1⟩
abbrev PECH.PAGE_CAP_channels : Fd := ⟨0x004, 8, 8⟩
abbrev PECH.PAGE_CAP_global : Fd := ⟨0x004, 16, 1⟩
abbrev PECH.PAGE_CTRL_enable : Fd := ⟨0x008, 0, 1⟩
abbrev PECH.PAGE_CTRL_soft_reset : Fd := ⟨0x008, 1, 1⟩
abbrev PECH.PAGE_CTRL_quiesce : Fd := ⟨0x008, 2, 1⟩
abbrev PECH.PAGE_STAT_quiesced : Fd := ⟨0x00C, 0, 1⟩
abbrev PECH.PAGE_STAT_los : Fd := ⟨0x00C, 1, 1⟩
abbrev PECH.PAGE_STAT_probing : Fd := ⟨0x00C, 2, 1⟩
abbrev PECH.PAGE_STAT_mated : Fd := ⟨0x00C, 3, 1⟩
abbrev PECH.PAGE_STAT_carry : Fd := ⟨0x00C, 16, 16⟩
abbrev PECH.PAGE_EVT_lock_lost : Fd := ⟨0x010, 0, 1⟩
abbrev PECH.PAGE_EVT_wrong_line : Fd := ⟨0x010, 1, 1⟩
abbrev PECH.PAGE_EVT_retired : Fd := ⟨0x010, 2, 1⟩
abbrev PECH.PAGE_EVT_los : Fd := ⟨0x010, 3, 1⟩
abbrev PECH.PAGE_EVT_mated : Fd := ⟨0x010, 4, 1⟩
abbrev PECH.PAGE_EVT_ctrl_err : Fd := ⟨0x010, 5, 1⟩
abbrev PECH.PAGE_EVT_EN : Fd := ⟨0x014, 0, 6⟩
abbrev PECH.PAGE_ERR_code : Fd := ⟨0x018, 0, 8⟩
abbrev PECH.PAGE_ERR_CNT_count : Fd := ⟨0x01C, 0, 32⟩
abbrev PECH.LINK_OPT_CTRL_test : Fd := ⟨0x040, 0, 1⟩
abbrev PECH.LINK_OPT_CTRL_park : Fd := ⟨0x040, 1, 1⟩
abbrev PECH.LOS_CNT_count : Fd := ⟨0x044, 0, 32⟩
abbrev PECH.RETIRED_tx : Fd := ⟨0x048, 0, 16⟩
abbrev PECH.RETIRED_rx : Fd := ⟨0x048, 16, 16⟩
abbrev PECH.CH_CTRL_tx_line : Fd := ⟨0x100, 0, 6⟩
abbrev PECH.CH_CTRL_tx_en : Fd := ⟨0x100, 6, 1⟩
abbrev PECH.CH_CTRL_rx_line : Fd := ⟨0x100, 8, 6⟩
abbrev PECH.CH_CTRL_rx_en : Fd := ⟨0x100, 14, 1⟩
abbrev PECH.CH_CTRL_revive : Fd := ⟨0x100, 16, 1⟩
abbrev PECH.CH_STAT_sel : Fd := ⟨0x104, 0, 3⟩
abbrev PECH.CH_STAT_mod : Fd := ⟨0x104, 3, 3⟩
abbrev PECH.CH_STAT_drop : Fd := ⟨0x104, 6, 3⟩
abbrev PECH.CH_STAT_tx_carry : Fd := ⟨0x104, 9, 1⟩
abbrev PECH.CH_STAT_rx_carry : Fd := ⟨0x104, 10, 1⟩
abbrev PECH.CH_STAT_rx_nolight : Fd := ⟨0x104, 11, 1⟩
abbrev PECH.CH_STAT_tx_cause : Fd := ⟨0x104, 12, 2⟩
abbrev PECH.CH_STAT_rx_cause : Fd := ⟨0x104, 14, 2⟩
abbrev PECH.CH_STAT_tx_id : Fd := ⟨0x104, 16, 6⟩
abbrev PECH.CH_STAT_rx_id : Fd := ⟨0x104, 22, 6⟩
abbrev PECH.CH_STAT_loss_at : Fd := ⟨0x104, 28, 4⟩
abbrev PECH.CH_PWR_launch : Fd := ⟨0x108, 0, 16⟩
abbrev PECH.CH_PWR_rx : Fd := ⟨0x108, 16, 16⟩
abbrev PECH.CH_FAR_level : Fd := ⟨0x10C, 0, 16⟩

/-! ### PECAL page -/
abbrev PECAL.PAGE_CAP_present : Fd := ⟨0x004, 0, 1⟩
abbrev PECAL.PAGE_ERR_code : Fd := ⟨0x018, 0, 8⟩
abbrev PECAL.PAGE_ERR_CNT_count : Fd := ⟨0x01C, 0, 32⟩
abbrev PECAL.CAL_ADDR_addr : Fd := ⟨0x040, 2, 16⟩
abbrev PECAL.CAL_DATA_data : Fd := ⟨0x044, 0, 32⟩
abbrev PECAL.CAL_GEN_count : Fd := ⟨0x048, 0, 32⟩

/-! ### COLL page -/
abbrev COLL.PAGE_CAP_present : Fd := ⟨0x004, 0, 1⟩
abbrev COLL.PAGE_CAP_reduce : Fd := ⟨0x004, 1, 1⟩
abbrev COLL.PAGE_CAP_fanout : Fd := ⟨0x004, 2, 1⟩
abbrev COLL.PAGE_CAP_links : Fd := ⟨0x004, 8, 8⟩
abbrev COLL.PAGE_CAP_ctx_per_vc : Fd := ⟨0x004, 16, 7⟩
abbrev COLL.PAGE_CTRL_enable : Fd := ⟨0x008, 0, 1⟩
abbrev COLL.PAGE_CTRL_soft_reset : Fd := ⟨0x008, 1, 1⟩
abbrev COLL.PAGE_CTRL_quiesce : Fd := ⟨0x008, 2, 1⟩
abbrev COLL.PAGE_STAT_busy : Fd := ⟨0x00C, 0, 1⟩
abbrev COLL.PAGE_STAT_quiesced : Fd := ⟨0x00C, 1, 1⟩
abbrev COLL.PAGE_STAT_group_busy : Fd := ⟨0x00C, 2, 1⟩
abbrev COLL.PAGE_EVT_done : Fd := ⟨0x010, 0, 1⟩
abbrev COLL.PAGE_EVT_nan : Fd := ⟨0x010, 1, 1⟩
abbrev COLL.PAGE_EVT_sat : Fd := ⟨0x010, 2, 1⟩
abbrev COLL.PAGE_EVT_peer_err : Fd := ⟨0x010, 3, 1⟩
abbrev COLL.PAGE_EVT_fallback : Fd := ⟨0x010, 4, 1⟩
abbrev COLL.PAGE_EVT_wait_long : Fd := ⟨0x010, 5, 1⟩
abbrev COLL.PAGE_EVT_ctrl_err : Fd := ⟨0x010, 6, 1⟩
abbrev COLL.PAGE_EVT_group_done : Fd := ⟨0x010, 7, 1⟩
abbrev COLL.PAGE_EVT_late_frame : Fd := ⟨0x010, 8, 1⟩
abbrev COLL.PAGE_EVT_EN : Fd := ⟨0x014, 0, 9⟩
abbrev COLL.PAGE_ERR_code : Fd := ⟨0x018, 0, 8⟩
abbrev COLL.PAGE_ERR_CNT_count : Fd := ⟨0x01C, 0, 32⟩
abbrev COLL.GROUP_BASE_LO_addr : Fd := ⟨0x040, 0, 32⟩
abbrev COLL.GROUP_BASE_HI_addr : Fd := ⟨0x044, 0, 16⟩
abbrev COLL.GROUP_COUNT_entries : Fd := ⟨0x048, 0, 13⟩
abbrev COLL.GROUP_LOAD_idx : Fd := ⟨0x04C, 0, 12⟩
abbrev COLL.GROUP_LOAD_go : Fd := ⟨0x04C, 31, 1⟩
abbrev COLL.GROUP_STAT_valid : Fd := ⟨0x050, 0, 1⟩
abbrev COLL.GROUP_STAT_err : Fd := ⟨0x050, 4, 4⟩
abbrev COLL.GROUP_STAT_at : Fd := ⟨0x050, 16, 16⟩
abbrev COLL.REPORT_BASE_LO_addr : Fd := ⟨0x054, 0, 32⟩
abbrev COLL.REPORT_BASE_HI_addr : Fd := ⟨0x058, 0, 16⟩
abbrev COLL.JOB_KEY_LO_key : Fd := ⟨0x05C, 0, 32⟩
abbrev COLL.JOB_KEY_HI_key : Fd := ⟨0x060, 0, 32⟩
abbrev COLL.WAIT_LIMIT_ms : Fd := ⟨0x064, 0, 16⟩
abbrev COLL.CTX_USE_LO_open : Fd := ⟨0x068, 0, 32⟩
abbrev COLL.CTX_USE_HI_open : Fd := ⟨0x06C, 0, 32⟩
abbrev COLL.CTX_WAIT_vc : Fd := ⟨0x070, 0, 8⟩
abbrev COLL.DONE_CNT_count : Fd := ⟨0x074, 0, 32⟩
abbrev COLL.NAK_CNT_count : Fd := ⟨0x078, 0, 32⟩
abbrev COLL.FALLBACK_CNT_count : Fd := ⟨0x07C, 0, 32⟩
abbrev COLL.LATE_FRAME_CNT_count : Fd := ⟨0x080, 0, 32⟩
abbrev COLL.RETRY_CNT_count : Fd := ⟨0x084, 0, 32⟩
abbrev COLL.LAST_PEER_ERR_rank : Fd := ⟨0x088, 0, 16⟩
abbrev COLL.LAST_PEER_ERR_code : Fd := ⟨0x088, 16, 8⟩
abbrev COLL.LAST_PEER_ERR_nak : Fd := ⟨0x088, 24, 4⟩
abbrev COLL.LAST_PEER_SEQ_seq : Fd := ⟨0x08C, 0, 32⟩
abbrev COLL.STAGE_USE_lent : Fd := ⟨0x090, 0, 16⟩

/-! ### NORM page -/
abbrev NORM.PAGE_CAP_present : Fd := ⟨0x004, 0, 1⟩
abbrev NORM.PAGE_CAP_exch : Fd := ⟨0x004, 1, 1⟩
abbrev NORM.PAGE_CTRL_enable : Fd := ⟨0x008, 0, 1⟩
abbrev NORM.PAGE_CTRL_quiesce : Fd := ⟨0x008, 2, 1⟩
abbrev NORM.PAGE_STAT_busy : Fd := ⟨0x00C, 0, 1⟩
abbrev NORM.PAGE_STAT_quiesced : Fd := ⟨0x00C, 1, 1⟩
abbrev NORM.PAGE_EVT_exch_done : Fd := ⟨0x010, 0, 1⟩
abbrev NORM.PAGE_EVT_nonfinite : Fd := ⟨0x010, 1, 1⟩
abbrev NORM.PAGE_EVT_ovf : Fd := ⟨0x010, 2, 1⟩
abbrev NORM.PAGE_EVT_EN : Fd := ⟨0x014, 0, 3⟩
abbrev NORM.PAGE_ERR_code : Fd := ⟨0x018, 0, 8⟩
abbrev NORM.PAGE_ERR_CNT_count : Fd := ⟨0x01C, 0, 32⟩
abbrev NORM.NORM_MAX_LO_value : Fd := ⟨0x040, 0, 32⟩
abbrev NORM.NORM_MAX_HI_value : Fd := ⟨0x044, 0, 32⟩
abbrev NORM.NORM_LAST_S_LO_value : Fd := ⟨0x048, 0, 32⟩
abbrev NORM.NORM_LAST_S_HI_value : Fd := ⟨0x04C, 0, 32⟩
abbrev NORM.NORM_LAST_C_LO_value : Fd := ⟨0x050, 0, 32⟩
abbrev NORM.NORM_LAST_C_HI_value : Fd := ⟨0x054, 0, 32⟩
abbrev NORM.NORM_LAST_NF_count : Fd := ⟨0x058, 0, 32⟩
abbrev NORM.NORM_EXCH_CNT_count : Fd := ⟨0x05C, 0, 32⟩

/-! ### PLAN page -/
abbrev PLAN.PAGE_CAP_present : Fd := ⟨0x004, 0, 1⟩
abbrev PLAN.PAGE_CAP_ports : Fd := ⟨0x004, 8, 8⟩
abbrev PLAN.PAGE_CAP_routes : Fd := ⟨0x004, 16, 13⟩
abbrev PLAN.PAGE_CTRL_enable : Fd := ⟨0x008, 0, 1⟩
abbrev PLAN.PAGE_STAT_loading : Fd := ⟨0x00C, 0, 1⟩
abbrev PLAN.PAGE_STAT_ready : Fd := ⟨0x00C, 1, 1⟩
abbrev PLAN.PAGE_EVT_load_done : Fd := ⟨0x010, 0, 1⟩
abbrev PLAN.PAGE_EVT_load_fail : Fd := ⟨0x010, 1, 1⟩
abbrev PLAN.PAGE_EVT_ctrl_err : Fd := ⟨0x010, 2, 1⟩
abbrev PLAN.PAGE_EVT_EN : Fd := ⟨0x014, 0, 3⟩
abbrev PLAN.PAGE_ERR_code : Fd := ⟨0x018, 0, 8⟩
abbrev PLAN.PAGE_ERR_CNT_count : Fd := ⟨0x01C, 0, 32⟩
abbrev PLAN.PLAN_BASE_LO_addr : Fd := ⟨0x040, 0, 32⟩
abbrev PLAN.PLAN_BASE_HI_addr : Fd := ⟨0x044, 0, 16⟩
abbrev PLAN.PLAN_LEN_bytes : Fd := ⟨0x048, 0, 17⟩
abbrev PLAN.PLAN_LOAD_go : Fd := ⟨0x04C, 0, 1⟩
abbrev PLAN.PLAN_EPOCH_epoch : Fd := ⟨0x050, 0, 32⟩
abbrev PLAN.PLAN_STAT_err : Fd := ⟨0x054, 0, 4⟩
abbrev PLAN.PLAN_STAT_index : Fd := ⟨0x054, 16, 12⟩
abbrev PLAN.PLAN_TIME_us : Fd := ⟨0x058, 0, 16⟩
abbrev PLAN.PORT_IDX_port : Fd := ⟨0x05C, 0, 8⟩
abbrev PLAN.PORT_STAT_tx_carry : Fd := ⟨0x060, 0, 7⟩
abbrev PLAN.PORT_STAT_rx_carry : Fd := ⟨0x060, 8, 7⟩
abbrev PLAN.PORT_STAT_down : Fd := ⟨0x060, 16, 1⟩
abbrev PLAN.PORT_REPLAY_bytes : Fd := ⟨0x064, 0, 20⟩
abbrev PLAN.LOAD_CNT_count : Fd := ⟨0x068, 0, 32⟩

/-! ### ROUTE page -/
abbrev ROUTE.PAGE_CAP_present : Fd := ⟨0x004, 0, 1⟩
abbrev ROUTE.PAGE_CTRL_enable : Fd := ⟨0x008, 0, 1⟩
abbrev ROUTE.PAGE_ERR_code : Fd := ⟨0x018, 0, 8⟩
abbrev ROUTE.PAGE_ERR_CNT_count : Fd := ⟨0x01C, 0, 32⟩
abbrev ROUTE.ROUTE_IDX_dest : Fd := ⟨0x040, 0, 16⟩
abbrev ROUTE.ROUTE_IDX_vc : Fd := ⟨0x040, 16, 3⟩
abbrev ROUTE.ROUTE_RES_port : Fd := ⟨0x044, 0, 8⟩
abbrev ROUTE.ROUTE_RES_which : Fd := ⟨0x044, 8, 2⟩
abbrev ROUTE.ROUTE_RES_waiting : Fd := ⟨0x044, 10, 1⟩
abbrev ROUTE.FAILOVER_CNT_count : Fd := ⟨0x048, 0, 32⟩
abbrev ROUTE.TRANSIT_CNT_count : Fd := ⟨0x04C, 0, 32⟩
abbrev ROUTE.TTL_DROP_CNT_count : Fd := ⟨0x050, 0, 32⟩
abbrev ROUTE.NO_ROUTE_CNT_count : Fd := ⟨0x054, 0, 32⟩

/-- The registers of the MODULE page, in offset order. -/
def MODULE.rows : List RegRow := [
  ⟨0x004, 0xA3FFFFF, 0, 0, 0, 0, 0, []⟩,
  ⟨0x008, 0x1, 0, 0, 0, 0, 0, []⟩,
  ⟨0x00C, 0, 0, 0, 0, 0, 0, []⟩,
  ⟨0x010, 0, 0, 0, 0xF, 0, 0, []⟩,
  ⟨0x014, 0, 0xF, 0, 0, 0, 0, []⟩,
  ⟨0x018, 0, 0, 0, 0, 0, 0, []⟩,
  ⟨0x01C, 0, 0, 0xFFFFFFFF, 0, 0, 0, []⟩,
  ⟨0x040, 0, 0, 0, 0, 0, 0, []⟩,
  ⟨0x044, 0, 0, 0, 0, 0, 0, []⟩,
  ⟨0x048, 0, 0, 0, 0, 0, 0, []⟩,
  ⟨0x04C, 0, 0, 0, 0, 0, 0, []⟩,
  ⟨0x050, 0, 0, 0, 0, 0, 0, []⟩,
  ⟨0x054, 0, 0, 0, 0, 0, 0, []⟩,
  ⟨0x058, 0, 0, 0, 0, 0, 0, []⟩,
  ⟨0x05C, 0, 0xFFFFFFFF, 0, 0, 0, 0, []⟩,
  ⟨0x060, 0, 0xFFFF, 0, 0, 0, 0, []⟩,
  ⟨0x064, 0, 0, 0, 0, 0x1, 0, []⟩,
  ⟨0x068, 0, 0, 0, 0, 0, 0, []⟩,
  ⟨0x06C, 0, 0, 0, 0, 0, 0, []⟩,
  ⟨0x070, 0, 0, 0, 0, 0, 0, []⟩,
  ⟨0x080, 0, 0, 0, 0, 0, 0, []⟩,
  ⟨0x084, 0, 0, 0, 0, 0x1, 0, []⟩,
  ⟨0x088, 0x32, 0x7F, 0, 0, 0, 0, [(0, 3, 0, 4), (4, 3, 0, 4)]⟩,
  ⟨0x08C, 0, 0, 0xFFFFFFFF, 0, 0, 0, []⟩,
  ⟨0x090, 0, 0, 0, 0, 0, 0, []⟩,
  ⟨0x094, 0, 0, 0, 0, 0, 0, []⟩,
  ⟨0x098, 0, 0, 0, 0, 0, 0, []⟩,
  ⟨0x09C, 0, 0, 0, 0, 0, 0, []⟩,
  ⟨0x0A0, 0, 0, 0, 0, 0x1, 0, []⟩,
  ⟨0x0A4, 0, 0, 0, 0, 0, 0, []⟩,
  ⟨0x0A8, 0, 0, 0, 0, 0, 0, []⟩,
  ⟨0x0AC, 0, 0, 0, 0, 0, 0, []⟩,
  ⟨0x0B0, 0, 0, 0, 0, 0x1, 0, []⟩,
  ⟨0x0B4, 0, 0, 0, 0, 0, 0, []⟩,
  ⟨0x0C0, 0, 0, 0xFFFFFFFF, 0, 0, 0, []⟩,
  ⟨0x0C4, 0, 0, 0xFFFFFFFF, 0, 0, 0, []⟩,
  ⟨0x0D0, 0x8, 0x18, 0, 0, 0x7, 0, []⟩,
  ⟨0x0D4, 0x8, 0, 0, 0, 0, 0, []⟩,
  ⟨0x0D8, 0, 0, 0, 0, 0, 0, []⟩,
  ⟨0x0DC, 0, 0, 0, 0x7F, 0, 0, []⟩,
  ⟨0x0E0, 0, 0x7F, 0, 0, 0, 0, []⟩,
  ⟨0x0E4, 0x12C, 0xFFFF, 0, 0, 0, 0, [(0, 16, 10, 3600)]⟩,
  ⟨0x0F0, 0x1, 0, 0, 0, 0, 0, []⟩]

/-- The registers of the FUSE page, in offset order. -/
def FUSE.rows : List RegRow := [
  ⟨0x004, 0x1, 0, 0, 0, 0, 0, []⟩,
  ⟨0x010, 0, 0, 0, 0x7, 0, 0, []⟩,
  ⟨0x014, 0, 0x7, 0, 0, 0, 0, []⟩,
  ⟨0x018, 0, 0, 0, 0, 0, 0, []⟩,
  ⟨0x01C, 0, 0, 0xFFFFFFFF, 0, 0, 0, []⟩,
  ⟨0x040, 0, 0, 0, 0, 0, 0, []⟩,
  ⟨0x044, 0, 0, 0, 0, 0, 0, []⟩,
  ⟨0x048, 0, 0, 0, 0, 0, 0, []⟩,
  ⟨0x04C, 0, 0, 0, 0, 0, 0, []⟩,
  ⟨0x050, 0, 0x1F, 0, 0, 0, 0, [(0, 4, 0, 11)]⟩,
  ⟨0x054, 0, 0, 0, 0, 0, 0, []⟩,
  ⟨0x058, 0, 0, 0, 0, 0, 0, []⟩,
  ⟨0x05C, 0, 0, 0, 0, 0, 0, []⟩,
  ⟨0x060, 0, 0x3, 0, 0, 0x10, 0, [(0, 2, 1, 2)]⟩,
  ⟨0x064, 0, 0x1F0F, 0, 0, 0, 0, [(0, 4, 0, 11), (8, 5, 0, 23)]⟩,
  ⟨0x068, 0, 0, 0, 0, 0, 0, []⟩,
  ⟨0x06C, 0, 0, 0, 0, 0, 0xFFFFFFFF, []⟩,
  ⟨0x070, 0, 0, 0, 0, 0x1, 0, []⟩,
  ⟨0x074, 0, 0, 0, 0, 0, 0, []⟩,
  ⟨0x078, 0, 0, 0, 0, 0, 0, []⟩,
  ⟨0x07C, 0x1, 0, 0, 0, 0, 0, []⟩,
  ⟨0x080, 0, 0, 0, 0, 0, 0, []⟩]

/-- The registers of the RANGER page, in offset order. -/
def RANGER.rows : List RegRow := [
  ⟨0x004, 0x1, 0, 0, 0, 0, 0, []⟩,
  ⟨0x010, 0, 0, 0, 0xF, 0, 0, []⟩,
  ⟨0x014, 0, 0xF, 0, 0, 0, 0, []⟩,
  ⟨0x018, 0, 0, 0, 0, 0, 0, []⟩,
  ⟨0x01C, 0, 0, 0xFFFFFFFF, 0, 0, 0, []⟩,
  ⟨0x040, 0, 0xFF, 0, 0, 0x80000000, 0, []⟩,
  ⟨0x044, 0, 0xFFFFFFFF, 0, 0, 0, 0, []⟩,
  ⟨0x054, 0, 0, 0, 0, 0, 0, []⟩,
  ⟨0x058, 0, 0, 0, 0, 0, 0, []⟩,
  ⟨0x068, 0, 0, 0, 0, 0, 0, []⟩,
  ⟨0x06C, 0, 0, 0, 0, 0, 0, []⟩,
  ⟨0x070, 0, 0, 0xFFFFFFFF, 0, 0, 0, []⟩,
  ⟨0x074, 0, 0, 0xFFFFFFFF, 0, 0, 0, []⟩,
  ⟨0x078, 0, 0, 0, 0, 0, 0, []⟩,
  ⟨0x07C, 0, 0, 0, 0x1, 0, 0, []⟩,
  ⟨0x080, 0, 0, 0, 0, 0, 0, []⟩,
  ⟨0x084, 0, 0, 0, 0, 0, 0, []⟩,
  ⟨0x088, 0, 0, 0, 0, 0, 0, []⟩,
  ⟨0x08C, 0, 0, 0, 0, 0, 0, []⟩]

/-- The registers of the PWR page, in offset order. -/
def PWR.rows : List RegRow := [
  ⟨0x004, 0xFF, 0, 0, 0, 0, 0, []⟩,
  ⟨0x008, 0x1, 0, 0, 0, 0, 0, []⟩,
  ⟨0x00C, 0, 0, 0, 0, 0, 0, []⟩,
  ⟨0x010, 0, 0, 0, 0xFFF, 0, 0, []⟩,
  ⟨0x014, 0, 0xFFF, 0, 0, 0, 0, []⟩,
  ⟨0x018, 0, 0, 0, 0, 0, 0, []⟩,
  ⟨0x01C, 0, 0, 0xFFFFFFFF, 0, 0, 0, []⟩,
  ⟨0x040, 0, 0x7, 0, 0, 0, 0, [(0, 3, 0, 4)]⟩,
  ⟨0x044, 0x1C20, 0x1FFF, 0, 0, 0, 0, []⟩,
  ⟨0x048, 0x32, 0xFF, 0, 0, 0, 0, [(0, 8, 5, 200)]⟩,
  ⟨0x04C, 0x10, 0x3F, 0, 0, 0, 0, [(0, 6, 1, 63)]⟩,
  ⟨0x050, 0x640A00, 0xFFFFFF01, 0, 0, 0, 0, [(8, 8, 1, 255)]⟩,
  ⟨0x054, 0x7, 0x1E, 0, 0, 0, 0, []⟩,
  ⟨0x058, 0, 0xFFFFFFFF, 0, 0, 0, 0, []⟩,
  ⟨0x05C, 0, 0, 0xFFFF0000, 0, 0, 0, []⟩,
  ⟨0x060, 0, 0, 0, 0, 0, 0, []⟩,
  ⟨0x064, 0x3841C20, 0, 0, 0, 0, 0, []⟩,
  ⟨0x068, 0, 0x7, 0, 0, 0, 0, []⟩,
  ⟨0x06C, 0x2D0000, 0, 0, 0, 0, 0, []⟩,
  ⟨0x070, 0, 0x3F, 0, 0, 0, 0, []⟩,
  ⟨0x074, 0, 0, 0xFFFF0000, 0, 0, 0, []⟩,
  ⟨0x078, 0, 0, 0, 0, 0, 0, []⟩,
  ⟨0x07C, 0, 0, 0, 0, 0, 0, []⟩,
  ⟨0x080, 0, 0, 0, 0, 0, 0, []⟩,
  ⟨0x084, 0, 0, 0, 0, 0, 0, []⟩,
  ⟨0x088, 0, 0, 0, 0, 0, 0, []⟩,
  ⟨0x08C, 0, 0, 0, 0, 0, 0, []⟩,
  ⟨0x090, 0, 0, 0, 0, 0, 0, []⟩,
  ⟨0x094, 0, 0, 0, 0, 0, 0, []⟩,
  ⟨0x098, 0, 0, 0xFFFFFFFF, 0, 0, 0, []⟩,
  ⟨0x09C, 0, 0, 0xFFFFFFFF, 0, 0, 0, []⟩,
  ⟨0x0A0, 0, 0, 0xFFFFFFFF, 0, 0, 0, []⟩,
  ⟨0x0A4, 0, 0, 0xFFFFFFFF, 0, 0, 0, []⟩]

/-- The registers of the CLK page, in offset order. -/
def CLK.rows : List RegRow := [
  ⟨0x004, 0x1F, 0, 0, 0, 0, 0, []⟩,
  ⟨0x008, 0x1, 0, 0, 0, 0, 0, []⟩,
  ⟨0x00C, 0, 0, 0, 0, 0, 0, []⟩,
  ⟨0x010, 0, 0, 0, 0x1F, 0, 0, []⟩,
  ⟨0x014, 0, 0x1F, 0, 0, 0, 0, []⟩,
  ⟨0x018, 0, 0, 0, 0, 0, 0, []⟩,
  ⟨0x01C, 0, 0, 0xFFFFFFFF, 0, 0, 0, []⟩,
  ⟨0x040, 0, 0xFFFF, 0, 0, 0, 0, []⟩,
  ⟨0x044, 0, 0, 0, 0, 0, 0, []⟩,
  ⟨0x048, 0, 0, 0, 0, 0, 0, []⟩,
  ⟨0x04C, 0, 0, 0, 0, 0, 0, []⟩,
  ⟨0x050, 0, 0, 0, 0, 0, 0, []⟩,
  ⟨0x054, 0, 0, 0, 0, 0, 0, []⟩,
  ⟨0x058, 0, 0, 0xFFFFFFFF, 0, 0, 0, []⟩,
  ⟨0x05C, 0, 0, 0, 0, 0, 0, []⟩,
  ⟨0x060, 0, 0, 0, 0, 0, 0, []⟩]

/-- The registers of the FLASH page, in offset order. -/
def FLASH.rows : List RegRow := [
  ⟨0x004, 0x1, 0, 0, 0, 0, 0, []⟩,
  ⟨0x010, 0, 0, 0, 0x7, 0, 0, []⟩,
  ⟨0x014, 0, 0x7, 0, 0, 0, 0, []⟩,
  ⟨0x018, 0, 0, 0, 0, 0, 0, []⟩,
  ⟨0x01C, 0, 0, 0xFFFFFFFF, 0, 0, 0, []⟩,
  ⟨0x040, 0, 0x7, 0, 0, 0x80000000, 0, [(0, 3, 1, 4)]⟩,
  ⟨0x044, 0, 0x7FFFFFFF, 0, 0, 0, 0, []⟩,
  ⟨0x048, 0, 0x7FFFF, 0, 0, 0, 0, [(0, 19, 1, 262144)]⟩,
  ⟨0x04C, 0, 0xFFFFFFFF, 0, 0, 0, 0, []⟩,
  ⟨0x050, 0, 0xFFFF, 0, 0, 0, 0, []⟩,
  ⟨0x054, 0, 0, 0, 0, 0, 0, []⟩,
  ⟨0x058, 0, 0, 0, 0, 0, 0, []⟩,
  ⟨0x05C, 0, 0, 0, 0, 0, 0, []⟩,
  ⟨0x060, 0, 0, 0, 0, 0, 0, []⟩,
  ⟨0x064, 0, 0, 0, 0, 0, 0, []⟩,
  ⟨0x068, 0, 0, 0, 0, 0, 0, []⟩,
  ⟨0x06C, 0, 0, 0xFFFFFFFF, 0, 0, 0, []⟩]

/-- The registers of the SNAP page, in offset order. -/
def SNAP.rows : List RegRow := [
  ⟨0x004, 0x27, 0, 0, 0, 0, 0, []⟩,
  ⟨0x008, 0x9, 0xD, 0, 0, 0x2, 0, []⟩,
  ⟨0x00C, 0, 0, 0, 0, 0, 0, []⟩,
  ⟨0x010, 0, 0, 0, 0x1FFF, 0, 0, []⟩,
  ⟨0x014, 0, 0x1FFF, 0, 0, 0, 0, []⟩,
  ⟨0x018, 0, 0, 0, 0, 0, 0, []⟩,
  ⟨0x01C, 0, 0, 0xFFFFFFFF, 0, 0, 0, []⟩,
  ⟨0x040, 0, 0xFFFFFFFF, 0, 0, 0, 0, []⟩,
  ⟨0x044, 0, 0xFFFF, 0, 0, 0, 0, []⟩,
  ⟨0x048, 0, 0x1FF, 0, 0, 0, 0, [(0, 9, 0, 256)]⟩,
  ⟨0x04C, 0, 0x7F7F, 0, 0, 0, 0, []⟩,
  ⟨0x050, 0, 0x1F7F, 0, 0, 0, 0, [(8, 5, 0, 18)]⟩,
  ⟨0x054, 0, 0xFFFF, 0, 0, 0x80000000, 0, []⟩,
  ⟨0x058, 0, 0, 0, 0, 0, 0, []⟩,
  ⟨0x05C, 0, 0, 0, 0, 0, 0, []⟩,
  ⟨0x060, 0x30A, 0x8FFF0FFF, 0, 0, 0, 0, [(0, 8, 1, 100), (8, 4, 2, 8)]⟩,
  ⟨0x064, 0, 0, 0, 0, 0, 0, []⟩,
  ⟨0x068, 0, 0, 0, 0, 0, 0, []⟩,
  ⟨0x06C, 0, 0, 0, 0, 0, 0, []⟩,
  ⟨0x070, 0, 0, 0, 0, 0, 0, []⟩,
  ⟨0x074, 0, 0, 0, 0, 0, 0, []⟩,
  ⟨0x078, 0, 0, 0, 0, 0, 0, []⟩,
  ⟨0x07C, 0, 0, 0, 0, 0, 0, []⟩,
  ⟨0x080, 0, 0, 0, 0, 0, 0, []⟩,
  ⟨0x084, 0, 0, 0, 0, 0, 0, []⟩,
  ⟨0x088, 0, 0, 0, 0, 0x1, 0, []⟩,
  ⟨0x08C, 0x3E8, 0xFFFF, 0, 0, 0, 0, []⟩,
  ⟨0x090, 0, 0xFFFFFFFF, 0, 0, 0, 0, []⟩,
  ⟨0x094, 0, 0xFFFFFFFF, 0, 0, 0, 0, []⟩,
  ⟨0x098, 0, 0xFFFF0003, 0, 0, 0x70, 0, [(0, 2, 0, 2)]⟩,
  ⟨0x09C, 0, 0, 0, 0, 0, 0, []⟩,
  ⟨0x0A0, 0, 0, 0, 0, 0, 0, []⟩,
  ⟨0x0A4, 0, 0, 0, 0, 0, 0, []⟩,
  ⟨0x0A8, 0, 0, 0, 0, 0, 0, []⟩,
  ⟨0x0AC, 0, 0, 0, 0, 0, 0, []⟩,
  ⟨0x0B0, 0, 0xFFF, 0, 0, 0, 0, []⟩,
  ⟨0x0B4, 0, 0, 0, 0, 0, 0, []⟩,
  ⟨0x0B8, 0, 0, 0, 0, 0x1, 0, []⟩]

/-- The registers of the TRAIL page, in offset order. -/
def TRAIL.rows : List RegRow := [
  ⟨0x004, 0x3, 0, 0, 0, 0, 0, []⟩,
  ⟨0x008, 0x1, 0x5, 0, 0, 0x2, 0, []⟩,
  ⟨0x00C, 0, 0, 0, 0, 0, 0, []⟩,
  ⟨0x010, 0, 0, 0, 0x3F, 0, 0, []⟩,
  ⟨0x014, 0, 0x3F, 0, 0, 0, 0, []⟩,
  ⟨0x018, 0, 0, 0, 0, 0, 0, []⟩,
  ⟨0x01C, 0, 0, 0xFFFFFFFF, 0, 0, 0, []⟩,
  ⟨0x040, 0, 0xFFFFFFFF, 0, 0, 0, 0, []⟩,
  ⟨0x044, 0, 0xFFFF, 0, 0, 0, 0, []⟩,
  ⟨0x048, 0, 0x1FF, 0, 0, 0, 0, [(0, 9, 0, 256)]⟩,
  ⟨0x04C, 0, 0, 0, 0, 0, 0, []⟩,
  ⟨0x050, 0, 0, 0, 0, 0, 0, []⟩,
  ⟨0x054, 0, 0, 0, 0, 0, 0, []⟩,
  ⟨0x058, 0, 0, 0, 0, 0, 0, []⟩,
  ⟨0x05C, 0, 0, 0, 0, 0, 0, []⟩,
  ⟨0x060, 0, 0, 0, 0, 0, 0, []⟩,
  ⟨0x064, 0, 0xFFFFFFFF, 0, 0, 0, 0, []⟩,
  ⟨0x068, 0, 0xFFFFFFFF, 0, 0, 0, 0, []⟩,
  ⟨0x06C, 0, 0, 0, 0, 0x3, 0, []⟩,
  ⟨0x070, 0, 0, 0, 0, 0, 0, []⟩,
  ⟨0x074, 0, 0, 0, 0, 0, 0, []⟩,
  ⟨0x078, 0, 0, 0, 0, 0, 0, []⟩,
  ⟨0x07C, 0, 0, 0xFFFFFFFF, 0, 0, 0, []⟩]

/-- The registers of the PCIE page, in offset order. -/
def PCIE.rows : List RegRow := [
  ⟨0x004, 0x1, 0, 0, 0, 0, 0, []⟩,
  ⟨0x010, 0, 0, 0, 0x1F, 0, 0, []⟩,
  ⟨0x014, 0, 0x1F, 0, 0, 0, 0, []⟩,
  ⟨0x018, 0, 0, 0, 0, 0, 0, []⟩,
  ⟨0x01C, 0, 0, 0xFFFFFFFF, 0, 0, 0, []⟩,
  ⟨0x040, 0, 0, 0, 0, 0, 0, []⟩,
  ⟨0x044, 0, 0xFFFFFFFF, 0, 0, 0, 0, []⟩,
  ⟨0x048, 0, 0xFFFF, 0, 0, 0, 0, []⟩,
  ⟨0x04C, 0x29, 0, 0, 0, 0, 0, []⟩,
  ⟨0x050, 0, 0, 0xFFFFFFFF, 0, 0, 0, []⟩,
  ⟨0x054, 0, 0, 0xFFFFFFFF, 0, 0, 0, []⟩,
  ⟨0x058, 0, 0, 0xFFFFFFFF, 0, 0, 0, []⟩,
  ⟨0x05C, 0, 0, 0xFFFFFFFF, 0, 0, 0, []⟩,
  ⟨0x060, 0, 0, 0xFFFFFFFF, 0, 0, 0, []⟩,
  ⟨0x064, 0, 0, 0, 0, 0, 0, []⟩,
  ⟨0x068, 0, 0, 0, 0, 0, 0, []⟩,
  ⟨0x800, 0, 0xFFFFFFFF, 0, 0, 0, 0, []⟩,
  ⟨0x804, 0, 0xFFFFFFFF, 0, 0, 0, 0, []⟩,
  ⟨0x808, 0, 0xFFFFFFFF, 0, 0, 0, 0, []⟩,
  ⟨0x80C, 0x1, 0x1, 0, 0, 0, 0, []⟩,
  ⟨0x900, 0, 0, 0, 0, 0, 0, []⟩]

/-- The registers of the TSEQ page, in offset order. -/
def TSEQ.rows : List RegRow := [
  ⟨0x004, 0x3C48, 0, 0, 0, 0, 0, []⟩,
  ⟨0x008, 0x1, 0x5, 0, 0, 0xA, 0, []⟩,
  ⟨0x00C, 0, 0, 0, 0, 0, 0, []⟩,
  ⟨0x010, 0, 0, 0, 0xFF, 0, 0, []⟩,
  ⟨0x014, 0, 0xFF, 0, 0, 0, 0, []⟩,
  ⟨0x018, 0, 0, 0, 0, 0, 0, []⟩,
  ⟨0x01C, 0, 0, 0xFFFFFFFF, 0, 0, 0, []⟩,
  ⟨0x040, 0, 0xFFFFFFFF, 0, 0, 0, 0, []⟩,
  ⟨0x044, 0, 0xFFFF, 0, 0, 0, 0, []⟩,
  ⟨0x048, 0, 0xFFFF, 0, 0, 0, 0, []⟩,
  ⟨0x050, 0, 0xFFF, 0, 0, 0, 0, []⟩,
  ⟨0x054, 0, 0xFFFFFFFF, 0, 0, 0, 0, []⟩,
  ⟨0x058, 0, 0, 0, 0, 0, 0xFFFFFFFF, []⟩,
  ⟨0x060, 0, 0, 0, 0, 0, 0, []⟩,
  ⟨0x064, 0, 0, 0, 0, 0, 0, []⟩,
  ⟨0x068, 0, 0, 0xFFFFFFFF, 0, 0, 0, []⟩,
  ⟨0x06C, 0, 0, 0xFFFFFFFF, 0, 0, 0, []⟩,
  ⟨0x100, 0, 0xFFFFF000, 0, 0, 0, 0, []⟩,
  ⟨0x104, 0, 0xFFFF, 0, 0, 0, 0, []⟩,
  ⟨0x108, 0, 0xFFFFF000, 0, 0, 0, 0, []⟩,
  ⟨0x10C, 0, 0xFFFF, 0, 0, 0, 0, []⟩,
  ⟨0x110, 0x10, 0x37D, 0, 0, 0x2, 0, []⟩,
  ⟨0x114, 0, 0, 0, 0, 0, 0xFFFFFFFF, []⟩,
  ⟨0x118, 0, 0, 0, 0, 0, 0, []⟩,
  ⟨0x11C, 0, 0, 0, 0, 0, 0, []⟩,
  ⟨0x120, 0, 0, 0, 0, 0, 0, []⟩,
  ⟨0x124, 0x1, 0, 0, 0, 0, 0, []⟩,
  ⟨0x128, 0, 0xFFFF, 0, 0, 0, 0, []⟩,
  ⟨0x12C, 0, 0, 0xFFFFFFFF, 0, 0, 0, []⟩,
  ⟨0x130, 0, 0, 0, 0, 0, 0, []⟩]

/-- The registers of the TE page, in offset order. -/
def TE.rows : List RegRow := [
  ⟨0x004, 0xFF, 0, 0, 0, 0, 0, []⟩,
  ⟨0x008, 0x1, 0x5, 0, 0, 0x2, 0, []⟩,
  ⟨0x00C, 0, 0, 0, 0, 0, 0, []⟩,
  ⟨0x010, 0, 0, 0, 0x3F, 0, 0, []⟩,
  ⟨0x014, 0, 0x3F, 0, 0, 0, 0, []⟩,
  ⟨0x018, 0, 0, 0, 0, 0, 0, []⟩,
  ⟨0x01C, 0, 0, 0xFFFFFFFF, 0, 0, 0, []⟩,
  ⟨0x040, 0, 0, 0, 0, 0, 0, []⟩,
  ⟨0x044, 0, 0, 0, 0, 0, 0, []⟩,
  ⟨0x048, 0, 0, 0, 0, 0, 0, []⟩,
  ⟨0x04C, 0, 0, 0, 0, 0, 0, []⟩,
  ⟨0x050, 0, 0, 0, 0, 0, 0, []⟩,
  ⟨0x054, 0, 0, 0, 0, 0, 0, []⟩,
  ⟨0x058, 0, 0, 0, 0, 0, 0, []⟩,
  ⟨0x060, 0, 0, 0, 0, 0, 0, []⟩,
  ⟨0x064, 0, 0, 0, 0, 0, 0, []⟩,
  ⟨0x068, 0, 0, 0, 0, 0, 0, []⟩,
  ⟨0x06C, 0, 0, 0, 0, 0, 0, []⟩,
  ⟨0x070, 0, 0, 0xFFFFFFFF, 0, 0, 0, []⟩,
  ⟨0x074, 0, 0, 0xFFFFFFFF, 0, 0, 0, []⟩,
  ⟨0x078, 0, 0, 0xFFFFFFFF, 0, 0, 0, []⟩,
  ⟨0x07C, 0, 0, 0, 0, 0, 0, []⟩]

/-- The registers of the VE page, in offset order. -/
def VE.rows : List RegRow := [
  ⟨0x004, 0x2040A0F, 0, 0, 0, 0, 0, []⟩,
  ⟨0x008, 0x1, 0x5, 0, 0, 0x2, 0, []⟩,
  ⟨0x00C, 0, 0, 0, 0, 0, 0, []⟩,
  ⟨0x010, 0, 0, 0, 0x1F, 0, 0, []⟩,
  ⟨0x014, 0, 0x1F, 0, 0, 0, 0, []⟩,
  ⟨0x018, 0, 0, 0, 0, 0, 0, []⟩,
  ⟨0x01C, 0, 0, 0xFFFFFFFF, 0, 0, 0, []⟩,
  ⟨0x040, 0, 0xFFFFFFFF, 0, 0, 0, 0, []⟩,
  ⟨0x044, 0, 0xFFFF, 0, 0, 0, 0, []⟩,
  ⟨0x048, 0, 0, 0, 0x3F, 0, 0, []⟩,
  ⟨0x04C, 0, 0, 0, 0, 0, 0, []⟩,
  ⟨0x050, 0, 0, 0, 0, 0, 0, []⟩,
  ⟨0x054, 0, 0, 0, 0, 0, 0, []⟩,
  ⟨0x058, 0, 0, 0, 0, 0, 0, []⟩,
  ⟨0x05C, 0, 0, 0, 0, 0, 0, []⟩,
  ⟨0x060, 0, 0, 0, 0, 0, 0, []⟩,
  ⟨0x064, 0, 0, 0, 0, 0, 0, []⟩,
  ⟨0x068, 0, 0, 0, 0, 0, 0, []⟩,
  ⟨0x06C, 0, 0, 0, 0, 0, 0, []⟩,
  ⟨0x070, 0, 0, 0, 0, 0, 0, []⟩]

/-- The registers of the DMA page, in offset order. -/
def DMA.rows : List RegRow := [
  ⟨0x004, 0x847, 0, 0, 0, 0, 0, []⟩,
  ⟨0x008, 0x1, 0x5, 0, 0, 0x2, 0, []⟩,
  ⟨0x00C, 0, 0, 0, 0, 0, 0, []⟩,
  ⟨0x010, 0, 0, 0, 0x1F, 0, 0, []⟩,
  ⟨0x014, 0, 0x1F, 0, 0, 0, 0, []⟩,
  ⟨0x018, 0, 0, 0, 0, 0, 0, []⟩,
  ⟨0x01C, 0, 0, 0xFFFFFFFF, 0, 0, 0, []⟩,
  ⟨0x040, 0, 0, 0, 0, 0, 0, []⟩,
  ⟨0x044, 0, 0, 0, 0, 0, 0, []⟩,
  ⟨0x048, 0, 0x3, 0, 0, 0, 0, []⟩,
  ⟨0x04C, 0, 0, 0, 0, 0, 0, []⟩,
  ⟨0x050, 0, 0, 0, 0, 0, 0, []⟩,
  ⟨0x054, 0, 0, 0, 0, 0, 0, []⟩,
  ⟨0x058, 0, 0, 0, 0, 0, 0, []⟩,
  ⟨0x060, 0, 0, 0, 0, 0, 0, []⟩,
  ⟨0x064, 0, 0, 0, 0, 0, 0, []⟩,
  ⟨0x068, 0, 0, 0, 0, 0, 0, []⟩,
  ⟨0x06C, 0, 0, 0, 0, 0, 0, []⟩,
  ⟨0x070, 0, 0, 0, 0, 0, 0, []⟩,
  ⟨0x074, 0, 0, 0xFFFFFFFF, 0, 0, 0, []⟩,
  ⟨0x078, 0, 0, 0xFFFFFFFF, 0, 0, 0, []⟩]

/-- The registers of the SPAD page, in offset order. -/
def SPAD.rows : List RegRow := [
  ⟨0x004, 0x40204001, 0, 0, 0, 0, 0, []⟩,
  ⟨0x008, 0x1, 0, 0, 0, 0x2, 0, []⟩,
  ⟨0x00C, 0, 0, 0, 0, 0, 0, []⟩,
  ⟨0x010, 0, 0, 0, 0x3F, 0, 0, []⟩,
  ⟨0x014, 0, 0x3F, 0, 0, 0, 0, []⟩,
  ⟨0x018, 0, 0, 0, 0, 0, 0, []⟩,
  ⟨0x01C, 0, 0, 0xFFFFFFFF, 0, 0, 0, []⟩,
  ⟨0x040, 0x122428, 0xFFFFFF, 0, 0, 0, 0, []⟩,
  ⟨0x048, 0, 0, 0xFFFFFFFF, 0, 0, 0, []⟩,
  ⟨0x04C, 0, 0, 0xFFFFFFFF, 0, 0, 0, []⟩,
  ⟨0x050, 0, 0, 0xFFFFFFFF, 0, 0, 0, []⟩,
  ⟨0x054, 0, 0, 0xFFFFFFFF, 0, 0, 0, []⟩,
  ⟨0x058, 0, 0, 0, 0, 0, 0, []⟩,
  ⟨0x05C, 0, 0, 0, 0, 0, 0, []⟩,
  ⟨0x060, 0, 0, 0, 0, 0, 0, []⟩,
  ⟨0x064, 0, 0, 0xFFFF0000, 0, 0, 0, []⟩,
  ⟨0x068, 0, 0, 0, 0, 0, 0, []⟩,
  ⟨0x070, 0, 0x7, 0, 0, 0, 0, []⟩,
  ⟨0x078, 0, 0, 0, 0, 0, 0, []⟩,
  ⟨0x07C, 0, 0, 0, 0, 0, 0, []⟩,
  ⟨0x080, 0, 0, 0, 0, 0, 0, []⟩,
  ⟨0x084, 0, 0, 0, 0, 0, 0, []⟩]

/-- The registers of the RNG page, in offset order. -/
def RNG.rows : List RegRow := [
  ⟨0x004, 0x83, 0, 0, 0, 0, 0, []⟩,
  ⟨0x008, 0x1, 0x5, 0, 0, 0x2, 0, []⟩,
  ⟨0x00C, 0, 0, 0, 0, 0, 0, []⟩,
  ⟨0x010, 0, 0, 0, 0x7, 0, 0, []⟩,
  ⟨0x014, 0, 0x7, 0, 0, 0, 0, []⟩,
  ⟨0x018, 0, 0, 0, 0, 0, 0, []⟩,
  ⟨0x01C, 0, 0, 0xFFFFFFFF, 0, 0, 0, []⟩,
  ⟨0x040, 0, 0xFFFFFFFF, 0, 0, 0, 0, []⟩,
  ⟨0x044, 0, 0xFFFFFFFF, 0, 0, 0, 0, []⟩,
  ⟨0x048, 0, 0xFFFFFFFF, 0, 0, 0, 0, []⟩,
  ⟨0x04C, 0, 0, 0, 0, 0x1, 0, []⟩,
  ⟨0x050, 0, 0, 0, 0, 0, 0, []⟩,
  ⟨0x054, 0, 0, 0, 0, 0, 0, []⟩,
  ⟨0x080, 0, 0xFFFFFFFF, 0, 0, 0, 0, []⟩,
  ⟨0x084, 0, 0xFFFFFFFF, 0, 0, 0, 0, []⟩,
  ⟨0x088, 0, 0xFFFFFFFF, 0, 0, 0, 0, []⟩,
  ⟨0x08C, 0, 0xFFFFFFFF, 0, 0, 0, 0, []⟩]

/-- The registers of the SCALE page, in offset order. -/
def SCALE.rows : List RegRow := [
  ⟨0x004, 0xC41, 0, 0, 0, 0, 0, []⟩,
  ⟨0x008, 0x1, 0x5, 0, 0, 0x2, 0, []⟩,
  ⟨0x00C, 0, 0, 0, 0, 0, 0, []⟩,
  ⟨0x010, 0, 0, 0, 0x7, 0, 0, []⟩,
  ⟨0x014, 0, 0x7, 0, 0, 0, 0, []⟩,
  ⟨0x018, 0, 0, 0, 0, 0, 0, []⟩,
  ⟨0x01C, 0, 0, 0xFFFFFFFF, 0, 0, 0, []⟩,
  ⟨0x040, 0, 0xFFF, 0, 0, 0, 0, []⟩,
  ⟨0x044, 0xF00, 0, 0, 0, 0, 0, []⟩,
  ⟨0x048, 0x46FFE000, 0, 0, 0, 0, 0, []⟩,
  ⟨0x04C, 0, 0, 0, 0, 0, 0, []⟩,
  ⟨0x050, 0, 0, 0, 0, 0, 0, []⟩,
  ⟨0x054, 0, 0, 0xFFFFFFFF, 0, 0, 0, []⟩,
  ⟨0x058, 0, 0, 0xFFFFFFFF, 0, 0, 0, []⟩,
  ⟨0x05C, 0, 0, 0, 0, 0, 0, []⟩]

/-- The registers of the WATCH page, in offset order. -/
def WATCH.rows : List RegRow := [
  ⟨0x004, 0x3001, 0, 0, 0, 0, 0, []⟩,
  ⟨0x008, 0x1, 0, 0, 0, 0x2, 0, []⟩,
  ⟨0x00C, 0, 0, 0, 0, 0, 0, []⟩,
  ⟨0x010, 0, 0, 0, 0x1, 0, 0, []⟩,
  ⟨0x014, 0, 0x1, 0, 0, 0, 0, []⟩,
  ⟨0x018, 0, 0, 0, 0, 0, 0, []⟩,
  ⟨0x01C, 0, 0, 0xFFFFFFFF, 0, 0, 0, []⟩,
  ⟨0x040, 0, 0xFFF, 0, 0, 0, 0x80000000, []⟩,
  ⟨0x048, 0, 0, 0, 0, 0, 0, []⟩,
  ⟨0x04C, 0, 0, 0, 0, 0, 0, []⟩]

/-- The registers of the SCRUB page, in offset order. -/
def SCRUB.rows : List RegRow := [
  ⟨0x004, 0x1, 0, 0, 0, 0, 0, []⟩,
  ⟨0x008, 0x1, 0x5, 0, 0, 0x2, 0, []⟩,
  ⟨0x010, 0, 0, 0, 0x1F, 0, 0, []⟩,
  ⟨0x014, 0, 0x1F, 0, 0, 0, 0, []⟩,
  ⟨0x018, 0, 0, 0, 0, 0, 0, []⟩,
  ⟨0x01C, 0, 0, 0xFFFFFFFF, 0, 0, 0, []⟩,
  ⟨0x040, 0x8, 0xFF, 0, 0, 0, 0, []⟩,
  ⟨0x044, 0x4, 0xFF, 0, 0, 0, 0, []⟩,
  ⟨0x048, 0, 0, 0, 0, 0, 0, []⟩,
  ⟨0x04C, 0, 0, 0, 0, 0, 0, []⟩,
  ⟨0x050, 0, 0, 0, 0, 0, 0, []⟩,
  ⟨0x054, 0, 0, 0, 0, 0, 0, []⟩,
  ⟨0x058, 0, 0, 0, 0, 0, 0, []⟩,
  ⟨0x060, 0, 0, 0xFFFFFFFF, 0, 0, 0, []⟩,
  ⟨0x064, 0, 0, 0xFFFFFFFF, 0, 0, 0, []⟩]

/-- The registers of the STK page, in offset order. -/
def STK.rows : List RegRow := [
  ⟨0x004, 0x404851, 0, 0, 0, 0, 0, []⟩,
  ⟨0x008, 0x1, 0x4, 0, 0, 0x2, 0, []⟩,
  ⟨0x00C, 0, 0, 0, 0, 0, 0, []⟩,
  ⟨0x010, 0, 0, 0, 0x7F, 0, 0, []⟩,
  ⟨0x014, 0, 0x7F, 0, 0, 0, 0, []⟩,
  ⟨0x018, 0, 0, 0, 0, 0, 0, []⟩,
  ⟨0x01C, 0, 0, 0xFFFFFFFF, 0, 0, 0, []⟩,
  ⟨0x040, 0x144, 0xFFF, 0, 0, 0, 0, []⟩,
  ⟨0x044, 0, 0, 0xFF00, 0, 0, 0, []⟩,
  ⟨0x048, 0, 0, 0xFFFFFFFF, 0, 0, 0, []⟩,
  ⟨0x04C, 0, 0, 0xFFFFFFFF, 0, 0, 0, []⟩,
  ⟨0x050, 0, 0, 0xFFFFFFFF, 0, 0, 0, []⟩,
  ⟨0x054, 0, 0, 0xFFFFFFFF, 0, 0, 0, []⟩,
  ⟨0x058, 0, 0, 0, 0, 0, 0, []⟩,
  ⟨0x05C, 0, 0, 0, 0, 0, 0, []⟩,
  ⟨0x060, 0, 0, 0, 0, 0, 0, []⟩,
  ⟨0x064, 0, 0, 0, 0, 0, 0, []⟩,
  ⟨0x068, 0, 0, 0, 0, 0, 0, []⟩,
  ⟨0x06C, 0, 0, 0, 0, 0, 0, []⟩,
  ⟨0x070, 0, 0, 0, 0, 0, 0, []⟩,
  ⟨0x074, 0, 0, 0, 0, 0, 0, []⟩,
  ⟨0x078, 0, 0, 0xFFFF0000, 0, 0, 0, []⟩]

/-- The registers of the STKPHY page, in offset order. -/
def STKPHY.rows : List RegRow := [
  ⟨0x004, 0x8002001, 0, 0, 0, 0, 0, []⟩,
  ⟨0x008, 0x1, 0, 0, 0, 0x2, 0, []⟩,
  ⟨0x00C, 0, 0, 0, 0, 0, 0, []⟩,
  ⟨0x010, 0, 0, 0, 0xF, 0, 0, []⟩,
  ⟨0x014, 0, 0xF, 0, 0, 0, 0, []⟩,
  ⟨0x018, 0, 0, 0, 0, 0, 0, []⟩,
  ⟨0x01C, 0, 0, 0xFFFFFFFF, 0, 0, 0, []⟩,
  ⟨0x040, 0x80, 0, 0, 0, 0, 0, []⟩,
  ⟨0x044, 0, 0, 0xFFFFFFFF, 0, 0, 0, []⟩,
  ⟨0x048, 0, 0, 0, 0, 0, 0, []⟩,
  ⟨0x04C, 0, 0x7FF, 0, 0, 0, 0, []⟩,
  ⟨0x050, 0, 0, 0, 0, 0, 0, []⟩,
  ⟨0x054, 0, 0, 0, 0, 0, 0, []⟩,
  ⟨0x058, 0, 0, 0xFFFFFFFF, 0, 0, 0, []⟩]

/-- The registers of the LINK page, in offset order. -/
def LINK.rows : List RegRow := [
  ⟨0x004, 0x1005, 0, 0, 0, 0, 0, []⟩,
  ⟨0x008, 0x1, 0x5, 0, 0, 0x2, 0, []⟩,
  ⟨0x00C, 0, 0, 0, 0, 0, 0, []⟩,
  ⟨0x010, 0, 0, 0, 0x7F, 0, 0, []⟩,
  ⟨0x014, 0, 0x7F, 0, 0, 0, 0, []⟩,
  ⟨0x018, 0, 0, 0, 0, 0, 0, []⟩,
  ⟨0x01C, 0, 0, 0xFFFFFFFF, 0, 0, 0, []⟩,
  ⟨0x040, 0, 0, 0, 0, 0, 0, []⟩,
  ⟨0x044, 0x14, 0xFFFF, 0, 0, 0, 0, [(0, 16, 2, 1000)]⟩,
  ⟨0x048, 0, 0, 0xFFFFFFFF, 0, 0, 0, []⟩,
  ⟨0x04C, 0, 0, 0xFFFFFFFF, 0, 0, 0, []⟩,
  ⟨0x050, 0, 0, 0xFFFFFFFF, 0, 0, 0, []⟩,
  ⟨0x054, 0, 0, 0xFFFFFFFF, 0, 0, 0, []⟩,
  ⟨0x058, 0, 0, 0xFFFFFFFF, 0, 0, 0, []⟩,
  ⟨0x05C, 0, 0, 0xFFFFFFFF, 0, 0, 0, []⟩,
  ⟨0x060, 0, 0, 0xFFFFFFFF, 0, 0, 0, []⟩,
  ⟨0x064, 0, 0, 0xFFFFFFFF, 0, 0, 0, []⟩,
  ⟨0x068, 0, 0, 0xFFFFFFFF, 0, 0, 0, []⟩,
  ⟨0x06C, 0, 0, 0xFFFFFFFF, 0, 0, 0, []⟩,
  ⟨0x070, 0, 0, 0xFFFFFFFF, 0, 0, 0, []⟩,
  ⟨0x074, 0, 0, 0xFFFFFFFF, 0, 0, 0, []⟩,
  ⟨0x078, 0, 0, 0, 0, 0, 0, []⟩,
  ⟨0x100, 0xFF00, 0, 0, 0, 0, 0, []⟩]

/-- The registers of the PE page, in offset order. -/
def PE.rows : List RegRow := [
  ⟨0x004, 0x1040080F, 0, 0, 0, 0, 0, []⟩,
  ⟨0x008, 0x1, 0x5, 0, 0, 0x2, 0, []⟩,
  ⟨0x00C, 0xFF00, 0, 0, 0, 0, 0, []⟩,
  ⟨0x010, 0, 0, 0, 0xFFF, 0, 0, []⟩,
  ⟨0x014, 0, 0xFFF, 0, 0, 0, 0, []⟩,
  ⟨0x018, 0, 0, 0, 0, 0, 0, []⟩,
  ⟨0x01C, 0, 0, 0xFFFFFFFF, 0, 0, 0, []⟩,
  ⟨0x040, 0x2, 0x3, 0, 0, 0, 0, []⟩,
  ⟨0x044, 0, 0, 0, 0, 0, 0, []⟩,
  ⟨0x048, 0, 0, 0, 0, 0, 0, []⟩,
  ⟨0x04C, 0, 0, 0, 0, 0, 0, []⟩,
  ⟨0x050, 0, 0, 0, 0, 0, 0, []⟩,
  ⟨0x054, 0, 0, 0, 0, 0, 0, []⟩,
  ⟨0x058, 0, 0xFF, 0, 0, 0, 0, []⟩,
  ⟨0x05C, 0xFAC688, 0xFFFFFFFF, 0, 0, 0, 0, []⟩,
  ⟨0x060, 0, 0x2, 0, 0, 0x5, 0, []⟩,
  ⟨0x064, 0, 0x3F, 0, 0, 0, 0, [(0, 6, 0, 37)]⟩,
  ⟨0x068, 0, 0xFFFFFFFF, 0, 0, 0, 0, []⟩,
  ⟨0x06C, 0, 0xFFF7F, 0, 0, 0, 0, []⟩,
  ⟨0x070, 0x80008000, 0, 0, 0, 0, 0, []⟩,
  ⟨0x074, 0, 0, 0xFF00, 0, 0, 0, []⟩,
  ⟨0x078, 0, 0, 0xFFFFFFFF, 0, 0, 0, []⟩,
  ⟨0x07C, 0, 0, 0xFFFFFFFF, 0, 0, 0, []⟩,
  ⟨0x080, 0, 0, 0xFFFFFFFF, 0, 0, 0, []⟩,
  ⟨0x084, 0, 0, 0xFFFFFFFF, 0, 0, 0, []⟩,
  ⟨0x088, 0, 0, 0, 0, 0, 0, []⟩]

/-- The registers of the PECH page, in offset order. -/
def PECH.rows : List RegRow := [
  ⟨0x004, 0x1001, 0, 0, 0, 0, 0, []⟩,
  ⟨0x008, 0, 0x5, 0, 0, 0x2, 0, []⟩,
  ⟨0x00C, 0, 0, 0, 0, 0, 0, []⟩,
  ⟨0x010, 0, 0, 0, 0x3F, 0, 0, []⟩,
  ⟨0x014, 0, 0x3F, 0, 0, 0, 0, []⟩,
  ⟨0x018, 0, 0, 0, 0, 0, 0, []⟩,
  ⟨0x01C, 0, 0, 0xFFFFFFFF, 0, 0, 0, []⟩,
  ⟨0x040, 0, 0x3, 0, 0, 0, 0, []⟩,
  ⟨0x044, 0, 0, 0xFFFFFFFF, 0, 0, 0, []⟩,
  ⟨0x048, 0, 0, 0, 0, 0, 0, []⟩,
  ⟨0x100, 0, 0x7F7F, 0, 0, 0x10000, 0, []⟩,
  ⟨0x104, 0xF0000000, 0, 0, 0, 0, 0, []⟩,
  ⟨0x108, 0x80008000, 0, 0, 0, 0, 0, []⟩,
  ⟨0x10C, 0x8000, 0, 0, 0, 0, 0, []⟩]

/-- The registers of the PECAL page, in offset order. -/
def PECAL.rows : List RegRow := [
  ⟨0x004, 0x1, 0, 0, 0, 0, 0, []⟩,
  ⟨0x018, 0, 0, 0, 0, 0, 0, []⟩,
  ⟨0x01C, 0, 0, 0xFFFFFFFF, 0, 0, 0, []⟩,
  ⟨0x040, 0, 0x3FFFC, 0, 0, 0, 0, []⟩,
  ⟨0x044, 0, 0, 0, 0, 0, 0, []⟩,
  ⟨0x048, 0, 0, 0, 0, 0, 0, []⟩]

/-- The registers of the COLL page, in offset order. -/
def COLL.rows : List RegRow := [
  ⟨0x004, 0x402807, 0, 0, 0, 0, 0, []⟩,
  ⟨0x008, 0x1, 0x5, 0, 0, 0x2, 0, []⟩,
  ⟨0x00C, 0, 0, 0, 0, 0, 0, []⟩,
  ⟨0x010, 0, 0, 0, 0x1FF, 0, 0, []⟩,
  ⟨0x014, 0, 0x1FF, 0, 0, 0, 0, []⟩,
  ⟨0x018, 0, 0, 0, 0, 0, 0, []⟩,
  ⟨0x01C, 0, 0, 0xFFFFFFFF, 0, 0, 0, []⟩,
  ⟨0x040, 0, 0xFFFFFFFF, 0, 0, 0, 0, []⟩,
  ⟨0x044, 0, 0xFFFF, 0, 0, 0, 0, []⟩,
  ⟨0x048, 0, 0x1FFF, 0, 0, 0, 0, [(0, 13, 0, 4096)]⟩,
  ⟨0x04C, 0, 0xFFF, 0, 0, 0x80000000, 0, []⟩,
  ⟨0x050, 0, 0, 0, 0, 0, 0, []⟩,
  ⟨0x054, 0, 0xFFFFFFFF, 0, 0, 0, 0, []⟩,
  ⟨0x058, 0, 0xFFFF, 0, 0, 0, 0, []⟩,
  ⟨0x05C, 0, 0xFFFFFFFF, 0, 0, 0, 0, []⟩,
  ⟨0x060, 0, 0xFFFFFFFF, 0, 0, 0, 0, []⟩,
  ⟨0x064, 0, 0xFFFF, 0, 0, 0, 0, []⟩,
  ⟨0x068, 0, 0, 0, 0, 0, 0, []⟩,
  ⟨0x06C, 0, 0, 0, 0, 0, 0, []⟩,
  ⟨0x070, 0, 0, 0, 0, 0, 0, []⟩,
  ⟨0x074, 0, 0, 0, 0, 0, 0, []⟩,
  ⟨0x078, 0, 0, 0xFFFFFFFF, 0, 0, 0, []⟩,
  ⟨0x07C, 0, 0, 0xFFFFFFFF, 0, 0, 0, []⟩,
  ⟨0x080, 0, 0, 0xFFFFFFFF, 0, 0, 0, []⟩,
  ⟨0x084, 0, 0, 0xFFFFFFFF, 0, 0, 0, []⟩,
  ⟨0x088, 0, 0, 0, 0, 0, 0, []⟩,
  ⟨0x08C, 0, 0, 0, 0, 0, 0, []⟩,
  ⟨0x090, 0, 0, 0, 0, 0, 0, []⟩]

/-- The registers of the NORM page, in offset order. -/
def NORM.rows : List RegRow := [
  ⟨0x004, 0x3, 0, 0, 0, 0, 0, []⟩,
  ⟨0x008, 0x1, 0x5, 0, 0, 0, 0, []⟩,
  ⟨0x00C, 0, 0, 0, 0, 0, 0, []⟩,
  ⟨0x010, 0, 0, 0, 0x7, 0, 0, []⟩,
  ⟨0x014, 0, 0x7, 0, 0, 0, 0, []⟩,
  ⟨0x018, 0, 0, 0, 0, 0, 0, []⟩,
  ⟨0x01C, 0, 0, 0xFFFFFFFF, 0, 0, 0, []⟩,
  ⟨0x040, 0, 0xFFFFFFFF, 0, 0, 0, 0, []⟩,
  ⟨0x044, 0x7FF00000, 0xFFFFFFFF, 0, 0, 0, 0, []⟩,
  ⟨0x048, 0, 0, 0, 0, 0, 0, []⟩,
  ⟨0x04C, 0, 0, 0, 0, 0, 0, []⟩,
  ⟨0x050, 0, 0, 0, 0, 0, 0, []⟩,
  ⟨0x054, 0, 0, 0, 0, 0, 0, []⟩,
  ⟨0x058, 0, 0, 0, 0, 0, 0, []⟩,
  ⟨0x05C, 0, 0, 0, 0, 0, 0, []⟩]

/-- The registers of the PLAN page, in offset order. -/
def PLAN.rows : List RegRow := [
  ⟨0x004, 0x1000FF01, 0, 0, 0, 0, 0, []⟩,
  ⟨0x008, 0x1, 0, 0, 0, 0, 0, []⟩,
  ⟨0x00C, 0, 0, 0, 0, 0, 0, []⟩,
  ⟨0x010, 0, 0, 0, 0x7, 0, 0, []⟩,
  ⟨0x014, 0, 0x7, 0, 0, 0, 0, []⟩,
  ⟨0x018, 0, 0, 0, 0, 0, 0, []⟩,
  ⟨0x01C, 0, 0, 0xFFFFFFFF, 0, 0, 0, []⟩,
  ⟨0x040, 0, 0xFFFFFFFF, 0, 0, 0, 0, []⟩,
  ⟨0x044, 0, 0xFFFF, 0, 0, 0, 0, []⟩,
  ⟨0x048, 0, 0x1FFFF, 0, 0, 0, 0, []⟩,
  ⟨0x04C, 0, 0, 0, 0, 0x1, 0, []⟩,
  ⟨0x050, 0, 0, 0, 0, 0, 0, []⟩,
  ⟨0x054, 0, 0, 0, 0, 0, 0, []⟩,
  ⟨0x058, 0, 0, 0, 0, 0, 0, []⟩,
  ⟨0x05C, 0, 0xFF, 0, 0, 0, 0, []⟩,
  ⟨0x060, 0, 0, 0, 0, 0, 0, []⟩,
  ⟨0x064, 0, 0, 0, 0, 0, 0, []⟩,
  ⟨0x068, 0, 0, 0, 0, 0, 0, []⟩]

/-- The registers of the ROUTE page, in offset order. -/
def ROUTE.rows : List RegRow := [
  ⟨0x004, 0x1, 0, 0, 0, 0, 0, []⟩,
  ⟨0x008, 0x1, 0, 0, 0, 0, 0, []⟩,
  ⟨0x018, 0, 0, 0, 0, 0, 0, []⟩,
  ⟨0x01C, 0, 0, 0xFFFFFFFF, 0, 0, 0, []⟩,
  ⟨0x040, 0, 0x7FFFF, 0, 0, 0, 0, []⟩,
  ⟨0x044, 0xFF, 0, 0, 0, 0, 0, []⟩,
  ⟨0x048, 0, 0, 0xFFFFFFFF, 0, 0, 0, []⟩,
  ⟨0x04C, 0, 0, 0, 0, 0, 0, []⟩,
  ⟨0x050, 0, 0, 0xFFFFFFFF, 0, 0, 0, []⟩,
  ⟨0x054, 0, 0, 0xFFFFFFFF, 0, 0, 0, []⟩]

/-- The registers a page type lists; array elements are listed once, at element 0 (`canonOff`). -/
def PageType.rows : PageType → List RegRow
  | .module => MODULE.rows
  | .fuse => FUSE.rows
  | .ranger => RANGER.rows
  | .pwr => PWR.rows
  | .clk => CLK.rows
  | .flash => FLASH.rows
  | .snap => SNAP.rows
  | .trail => TRAIL.rows
  | .pcie => PCIE.rows
  | .tseq => TSEQ.rows
  | .te => TE.rows
  | .ve => VE.rows
  | .dma => DMA.rows
  | .spad => SPAD.rows
  | .rng => RNG.rows
  | .scale => SCALE.rows
  | .watch => WATCH.rows
  | .scrub => SCRUB.rows
  | .stk => STK.rows
  | .stkphy => STKPHY.rows
  | .link => LINK.rows
  | .pe => PE.rows
  | .pech => PECH.rows
  | .pecal => PECAL.rows
  | .coll => COLL.rows
  | .norm => NORM.rows
  | .plan => PLAN.rows
  | .route => ROUTE.rows

/-- The register arrays of a page type: first offset, stride, number of elements, bytes of one element. -/
def PageType.arrays : PageType → List (Nat × Nat × Nat × Nat)
  | .tseq => [(0x100, 0x40, 8, 0x34)]
  | .rng => [(0x080, 0x10, 8, 0x10)]
  | .watch => [(0x048, 0x8, 6, 0x8)]
  | .pech => [(0x100, 0x10, 16, 0x10)]
  | .link => [(0x100, 0x4, 16, 0x4)]
  | .ranger => [(0x044, 0x4, 4, 0x4), (0x058, 0x4, 4, 0x4)]
  | .pcie => [(0x800, 0x10, 16, 0x10)]
  | _ => []

/-- The offsets of the low halves of the 64-bit pairs of a page type, at element 0 (00 R13, 18 R458). -/
def PageType.pairLows : PageType → List Nat
  | .module => [0x054, 0x05C]
  | .fuse => [0x040]
  | .pwr => [0x090]
  | .clk => [0x048]
  | .flash => [0x04C]
  | .snap => [0x040, 0x064, 0x06C, 0x074, 0x090]
  | .trail => [0x040, 0x04C, 0x054, 0x05C, 0x064]
  | .pcie => [0x044]
  | .tseq => [0x040, 0x060, 0x100, 0x108]
  | .te => [0x040, 0x060, 0x068]
  | .ve => [0x040, 0x04C, 0x060, 0x068]
  | .dma => [0x040, 0x04C, 0x060, 0x068]
  | .spad => [0x058, 0x078, 0x080]
  | .rng => [0x040, 0x050, 0x080]
  | .watch => [0x048]
  | .stk => [0x058, 0x068, 0x070]
  | .pe => [0x050]
  | .coll => [0x040, 0x054, 0x05C, 0x068]
  | .norm => [0x040, 0x048, 0x050]
  | .plan => [0x040]
  | _ => []

end Sys2Proof.Machine
end

