-- ==== Sys2Proof/Machine/Sparse.lean ====
section
/-!
DEFINITION. Sparse tables: a list of (key, value) pairs in one canonical form, keys strictly rising and no entry equal
to what an unlisted key reads as.  Memory, the register file and every other keyed store of the state use it.
-/
namespace Sys2Proof.Machine

/-- The value at a key; an unlisted key reads as `d k`. -/
def sparseGet {α : Type} (d : Nat → α) : List (Nat × α) → Nat → α
  | [], k => d k
  | (k', v) :: r, k => if k = k' then v else sparseGet d r k

/-- Inserts or replaces an entry, keeping the keys rising. -/
def sparseInsert {α : Type} (k : Nat) (v : α) : List (Nat × α) → List (Nat × α)
  | [] => [(k, v)]
  | (k', v') :: r =>
    if k < k' then (k, v) :: (k', v') :: r
    else if k = k' then (k, v) :: r
    else (k', v') :: sparseInsert k v r

/-- Removes every entry of a key. -/
def sparseErase {α : Type} (k : Nat) : List (Nat × α) → List (Nat × α)
  | [] => []
  | (k', v') :: r => if k = k' then sparseErase k r else (k', v') :: sparseErase k r

/-- Writes a key; writing what the key reads as when unlisted removes its entry. -/
def sparsePut {α : Type} [DecidableEq α] (d : Nat → α) (k : Nat) (v : α) (m : List (Nat × α)) : List (Nat × α) :=
  if v = d k then sparseErase k m else sparseInsert k v m

/-- Every key of a table is above `k`. -/
def sparseAbove {α : Type} (k : Nat) : List (Nat × α) → Bool
  | [] => true
  | (k', _) :: r => decide (k < k') && sparseAbove k r

/-- The canonical form: keys strictly rising, no entry equal to its unlisted value. -/
def sparseWf {α : Type} [DecidableEq α] (d : Nat → α) : List (Nat × α) → Bool
  | [] => true
  | (k, v) :: r => decide (v ≠ d k) && sparseAbove k r && sparseWf d r

end Sys2Proof.Machine
end

