-- ==== Sys2Proof/Machine/Types.lean ====
section
/-!
DEFINITION. The plain-data types the state is made of: fuses, the register file, protected memory, the sequencer's
queues and occurrences, and what a command answers to the outside.
-/
namespace Sys2Proof.Machine

/-- The fuse array (16 R417): of the variant word the tile, stack and engine masks with the fan-out enable as VARIANT shows
them, the member and the six bits of the maximum TCLK; of the security version the number of bits blown. -/
structure Fuses where
  serial    : BitVec 64
  masks     : BitVec 24
  member    : Member
  maxTclk   : BitVec 6
  fwHash    : List Byte
  dbgHash   : List Byte
  svn       : Nat
  hostLock  : BitVec 32
  mgmtLock  : BitVec 32
  dbgBits   : BitVec 4
  repair    : BitVec 16384
  check     : BitVec 512
  deriving DecidableEq, Repr

/-- Whether the debug port is permanently disabled. -/
def Fuses.dbgOff (f : Fuses) : Bool := f.dbgBits.getLsbD 0
/-- The understory lines and stack rows that the repair data name, by the keys of 05 R131 (notes/assumptions/101.md). -/
def Fuses.repairLines (f : Fuses) : List Nat := Config.fuseLines f.repair
def Fuses.repairRows (f : Fuses) : List Nat := Config.fuseRows f.repair

/-- The register file: stored register words, each port's pair latches and each port's staged low halves
(18 R447, R458, R459). Keys are page × 4096 + offset; a latch or staged key adds the port. -/
structure RegFile where
  cells   : List (Nat × Word)
  latches : List (Nat × Word)
  staged  : List (Nat × Option Word)
  deriving DecidableEq, Repr

/-- An entry of a correction queue: the word's address, and whether it has been written since the read that found the
error (05 R115, R117). -/
structure CorrEntry where
  addr  : Nat
  stale : Bool
  deriving DecidableEq, Repr

/-- Module memory (01 R23, 05 R112 to R131): data bytes, check-field differences per word (stored check field XOR the
valid check field of the data with p = 0), the correction queues, the repair candidates (understory lines and stack
rows by key), the lines that spare lines replace and the rows repaired, with whether a repair is hard (R127, R131), for
each tile's scrub passes the words corrected singly in the last pass and in this one, the interval
each pass in progress began with, the passes that are late (R121, R123; key 2·tile, and 1 more for the stack), and the bits
that flip when a word next crosses the fabric, as (word address, codeword position) (01 R17). -/
structure MemSt where
  cells : List Host.Cell
  chk   : List (Nat × BitVec 16)
  corrq : List CorrEntry
  lineCand : List Nat
  rowCand  : List Nat
  lineFix  : List Nat
  rowFix   : List (Nat × Bool)
  scrubPrev : List Nat
  scrubCur  : List Nat
  scrubInt  : List (Nat × Nat)
  scrubLate : List Nat
  flight : List (Nat × Nat)
  deriving DecidableEq, Repr

/-- A tensor descriptor as latched at step 3, with the occurrence's advance `adv` (06 R163, R164). -/
structure Tensor where
  base   : Nat
  fmt    : Nat
  rank   : Nat
  slotEn : Bool
  slot   : Nat
  lens   : List Nat
  strides : List Int
  origin : Nat
  plen   : Nat
  adv    : Int
  deriving DecidableEq, Repr

/-- A window record as latched at step 3 (07 R172). -/
structure Window where
  base   : Nat
  fmt    : Nat
  slotEn : Bool
  amaxEn : Bool
  bcast  : Nat
  slot   : Nat
  estride : Int
  vstride : Int
  origin : Nat
  deriving DecidableEq, Repr

/-- The units that execute descriptors (06 R144, R167). -/
inductive UnitId where
  | tseq | te (e : Nat) | drain (e : Nat) | quad | ve | dma | rng | scale | coll | snap | trail
  deriving DecidableEq, Repr

/-- Where an occurrence stands: checked and not yet handed over (step 4), in its unit's input, in progress, a FENCE or
remote SIGNAL or MARK that waits, a REPEAT whose body has been issued or is being issued, or ready to complete; `ended` is
one that is ready to complete and that its unit never began (06 R147; 09 R229; 18 R463). -/
inductive Place where
  | checked | input | running | waiting | issuing | tail | done | ended
  deriving DecidableEq, Repr

/-- One occurrence of a descriptor, from its dispatch to its completion (06 R145, R160, R167). -/
structure Occ where
  id     : Nat
  tile   : Nat
  queue  : Nat
  count  : Nat
  desc   : BitVec 512
  its    : List Nat
  encl   : List (Nat × Nat)
  unit   : UnitId
  place  : Place
  code   : Nat
  runSplit : Bool
  accInf   : Bool
  poison   : Bool
  uflags : Nat
  tens   : List (Option Tensor)
  wins   : List (Option Window)
  step   : Nat
  exps   : List Int
  aux    : List Nat
  deriving DecidableEq, Repr

/-- A fetched descriptor (06 R141). -/
structure Fetched where
  count : Nat
  desc  : BitVec 512
  deriving DecidableEq, Repr

/-- An active REPEAT of a queue: its occurrence, its slot, body length, count, present iteration, and whether it was
gated off (06 R157 to R161). -/
structure RepSt where
  id   : Nat
  slot : Nat
  n    : Nat
  c    : Nat
  iter : Nat
  gated : Bool
  deriving DecidableEq, Repr

/-- The part of a queue that its registers do not hold: fetched descriptors, the count of the next slot to dispatch,
the active REPEATs (innermost first), the head occurrence that stands at step 4, and whether the active REPEATs had been
fetched whole when the queue was last disabled (R161). -/
structure QueueSt where
  fetched : List Fetched
  pos  : Nat
  reps : List RepSt
  head : Option Nat
  whole : Bool
  deriving DecidableEq, Repr

/-- The sequencers of all tiles: queues (key 8·tile + queue), occurrences in the order of their dispatch, the next
occurrence number, semaphores (key 4096·tile + number), and the queue of each tile that was served last (R146). -/
structure SeqSt where
  queues : List (Nat × QueueSt)
  occs   : List Occ
  nextId : Nat
  sems   : List (Nat × Word)
  served : List (Nat × Nat)
  deriving DecidableEq, Repr

/-! ### Units -/

/-- A finished block that waits for the drain path: its descriptor, its block row and column, each element's last run in
binary32 with its poison, row by row, whether its totals start from +0 unread, and the DRAINs that reached the drain path
before it (03 R83, R85, R90, R92). -/
structure DrainBlk where
  occ  : Nat
  row  : Nat
  col  : Nat
  runs : List (Nat × Bool)
  fresh : Bool
  ahead : List Nat
  deriving DecidableEq, Repr

/-- A tensor engine (engine 0 of the tile for a quad MATMUL): the MATMUL in progress, the block of the walk, the next
group, the group at which the open run began, whether the block's totals still start from +0, not read from the
scratchpad (03 R65, R72 to R75), and the finished blocks whose last runs stand in the promotion buffer until the drain
path adds them (R73, R83). -/
structure TeSt where
  occ  : Option Nat
  quad : Bool
  row  : Nat
  col  : Nat
  kpos : Nat
  runStart : Nat
  fresh : Bool
  drains : List DrainBlk
  deriving DecidableEq, Repr

/-- A tensor slot's fields but the watcher counts (08 R213): FP32 history (16 entries), newest entry, target, exponent,
amax accumulator. -/
structure Slot where
  hist   : List Nat
  hidx   : Nat
  target : Nat
  exp    : Int
  amax   : Nat
  deriving DecidableEq, Repr

/-- Tensor slots, watcher counts (key 4096·tile + slot), and each tile's WATCH_SNAP latch (08 R213, R218, R219). -/
structure ScaleSt where
  slots : List (Nat × Slot)
  watch : List (Nat × List Nat)
  snap  : List (Nat × List Nat)
  deriving DecidableEq, Repr

/-! ### Errors -/

/-- An entry of the error FIFO (14 R357); `id` tells a latched entry from a later one of the same content. -/
structure ErrEntry where
  id     : Nat
  code   : Nat
  cls    : Nat
  page   : Nat
  count  : Nat
  detail : Nat
  time   : Nat
  rank   : Nat
  deriving DecidableEq, Repr

/-- The error FIFO, the two readers' latches (14 R362), and the ALERT# pin. -/
structure ErrSt where
  fifo   : List ErrEntry
  nextId : Nat
  hostLatch   : Option ErrEntry
  rangerLatch : Option ErrEntry
  alert  : Bool
  deriving DecidableEq, Repr

/-! ### Links (12) -/

/-- What a link knows of one channel beside its rings: its decoder's lock, the last training record received, why that
record does not let it carry (0 it does not refuse, 5 epoch mismatch, 6 coordinate mismatch, 7 a global peer of the own
grove), and whether each side waits for a record after a retraining (12 R302 to R304, R322). -/
structure ChSt where
  fec   : Bool
  train : Option TrainRec
  bad   : Nat
  txHold : Bool
  rxHold : Bool
  deriving DecidableEq, Repr

/-- A frame in a replay buffer, and whether it waits to be sent again (12 R318, R319). -/
structure Sent where
  frame : Frame
  again : Bool
  deriving DecidableEq, Repr

/-- A logical port (12 R306, R316 to R322): sequence numbers of both directions, whether a sequenced frame has been
received since the plan load, link-control frames that wait, frames
that wait for their first sending, the replay buffer, credit the peer has granted and credit granted to it per VC, the
turn of the round robin, whether an acknowledgement is owed, the last REPLAY_REQ sent, the recent times of credit
overruns, CRC failures, REPLAY_REQs received and retrainings, and whether the port is down. -/
structure PortSt where
  txSeq   : Nat
  rxSeq   : Nat
  got     : Bool
  ctrl    : List Frame
  waiting : List Frame
  replay  : List Sent
  credit  : List Nat
  granted : List Nat
  turn    : Nat
  turnLeft : Nat
  ackDue  : Bool
  lastReq : Option (Nat × Nat)
  overs   : List Nat
  crcs    : List Nat
  reqs    : List Nat
  retrains : List Nat
  down    : Bool
  deriving DecidableEq, Repr

/-- The tables of a plan in force (12 R307): 640 channel entries, 256 port entries, 48 fan-out sets, the route entries
and the default weights. -/
structure PlanTab where
  chans  : List Nat
  ports  : List Nat
  fans   : List Nat
  routes : List Nat
  weight : Nat
  deriving DecidableEq, Repr

/-- The link interfaces: the plan in force, the load in progress (its stage: 0 none, 2 draining, 4 retuning) with the
new epoch and tables and the time of go, whether missed heartbeats are not counted (R310), the ports, those of the plan
that a load in its last stages replaces, the channels (key 16·link + channel), and the place in its route entry of the port
that a (destination, VC) stream has moved to (key 8·rank + VC, R312). -/
structure NetSt where
  plan  : Option PlanTab
  stage : Nat
  next  : Option (Nat × PlanTab)
  began : Nat
  grace : Bool
  ports : List (Nat × PortSt)
  before : List (Nat × PortSt)
  chans : List (Nat × ChSt)
  moved : List (Nat × Nat)
  deriving DecidableEq, Repr

/-! ### Optics (11) -/

/-- The photonic engines beside their registers: each ring's ACQUIRE failures in succession (key
64·link + 4·channel + ring), the mesh codes in force, written raw and under commit (key 64·engine + element; θ in bits
15..0, φ above), the map in force (none: raw codes or a code under trim), the engines with a commit under way and the
map it brings, the rings (by the same key) that have not yet passed VERIFY on a new comb (R272), the rings locked when a
thermal hold began whose pilot has not been seen on its target since (R284), the engines under soft reset (R299), the links
that answer a peer's probe, the probing links found mated by their light before the plug sensor shows mated (R294), the monitor levels last reported (key 2^20·engine + MON_IDX), and the calibrations each engine
has stored since manufacture (R299). -/
structure OptSt where
  fails : List (Nat × Nat)
  codes : List (Nat × Nat)
  raws  : List (Nat × Nat)
  next  : List (Nat × Nat)
  maps  : List (Nat × Option Nat)
  newMaps : List (Nat × Option Nat)
  failing : List Nat
  unproved : List Nat
  resetting : List Nat
  answering : List Nat
  seen : List Nat
  mon   : List (Nat × Nat)
  cals  : List (Nat × Nat)
  deriving DecidableEq, Repr

/-! ### Collectives (10) -/

/-- A stream that an occurrence sends to one position: `back` for the return chain, whether its open was answered
ACCEPT, whether a RETRY asked for the open again, the bytes of local data already sent, the frames that wait for the
ACCEPT, and whether a fan-out peer is served unicast. -/
structure Stream where
  pos  : Nat
  rank : Nat
  back : Bool
  accepted : Bool
  retry : Bool
  sent : Nat
  held : List Frame
  uni  : Bool
  deriving DecidableEq, Repr

/-- A stream that an occurrence receives from one position: whether its open arrived and was accepted, and the elements
it will carry. -/
structure Source where
  pos  : Nat
  rank : Nat
  back : Bool
  arrived : Bool
  accepted : Bool
  n    : Nat
  deriving DecidableEq, Repr

/-- An open collective occurrence with its context (10 R256 to R261). `sub` is the COLL sub-operation, 0x10 for
GATHER_AHEAD, 0x11 for NORM EXCHANGE. `lent` counts the 64 KiB units of staging lent to it beyond its own (R260). `own` counts the local bytes taken, `passed` the bytes a reducing chain has moved
through this position, `landed` the bytes written to dst; `seen` holds (rank, type, offset) of accepted payloads. -/
structure Ctx where
  occ   : Nat
  tile  : Nat
  vc    : Nat
  seq   : Nat
  bucket : Nat
  sub   : Nat
  g     : Nat
  pos   : Nat
  ranks : List Nat
  started : Bool
  lent  : Nat
  outs  : List Stream
  ins   : List Source
  seen  : List (Nat × Nat × Nat)
  inbox : List Frame
  own   : Nat
  passed : Nat
  landed : Nat
  closeIn : Bool
  closed : Bool
  sats  : List Nat
  nans  : List (Nat × Nat)
  bad   : List Nat
  infs  : List Nat
  rep   : Option Report
  poison : Bool
  done  : Bool
  deriving DecidableEq, Repr

/-- An open that waits for its local occurrence, or a wait of a head for a context (10 R259). -/
structure PendOpen where
  vc   : Nat
  seq  : Nat
  bucket : Nat
  src  : Nat
  r    : OpenRec
  deriving DecidableEq, Repr

/-- The collective engine: the group table entries marked valid and the entry under validation (10 R240, R241), the open
occurrences in the order of their grants, the pending opens, the identities completed (VC, sequence, bucket), and the remote
SIGNALs applied, by rank and identity (12 R314). -/
structure CollSt where
  valid   : List Nat
  loading : Option Nat
  ctxs    : List Ctx
  pend    : List PendOpen
  ended    : List (Nat × Nat × Nat)
  signals  : List (Nat × Nat)
  deriving DecidableEq, Repr

/-! ### Clearings and recovery (13) -/

/-- A clearing of this module (13 R327 to R334): its occurrence, number, levels with the bits R334 adds, the ranks of
its group and the own position, its phase (1 to 5; 6 once captured), when phase 1 began, the own barrier record, whether
the own record of the present phase has been sent, the L1 and L2 copies (0 not made, 1 running, 2 whole, 3 failed), the
code it completes with, the poisoned words captured, the trail byte count after its record, the bytes captured, whether it
is the clearing of a park (17 R436), whether it is secure and whether its occurrence has ended. -/
structure Clearing where
  occ    : Nat
  number : Nat
  levels : Nat
  group  : Nat
  ranks  : List Nat
  pos    : Nat
  phase  : Nat
  began  : Nat
  mine   : BarrierRec
  sent   : Bool
  l1     : Nat
  l2     : Nat
  code   : Nat
  poison : Nat
  trailPos : Nat
  bytes  : Nat
  park   : Bool
  secure : Bool
  ended  : Bool
  deriving DecidableEq, Repr

/-- A barrier record that has arrived: its phase, its sender, and whether values below the sender differ. -/
structure BarrierIn where
  phase : Nat
  src   : Nat
  bad   : Bool
  r     : BarrierRec
  deriving DecidableEq, Repr

/-- A restore in progress (13 R347): its source, clearing and as_rank, the module record received with its poisoned
words (source 1), and whether all of it has arrived. -/
structure Restore where
  src    : Nat
  number : Nat
  asRank : Nat
  hdr    : List (Nat × Nat)
  bad    : List Nat
  arrived : Bool
  deriving DecidableEq, Repr

/-- A pairing record (13 R335). -/
structure PairRec where
  rank  : Nat
  feed  : Nat
  ap    : Nat
  cap   : Nat
  names : Nat
  deriving DecidableEq, Repr

/-- The snapshot and trail units beside their registers: the lost table; why dispatch is held (bit 0 clearing, 1
auto_hold, 2 self lost, 3 restore, 4 park); the latest clearing and the earlier ones whose copies still run;
barrier records that have arrived; missed periods per watched rank; the pairing records that wait for the own go, one from
a rank at most, and the rank that the last go named; the L0 slots that are invalid; the clearings whose whole copy is held for a partner, as (slot, number, rank), and the trail byte count the
mirror runs to; the imm of the latest STEP record;
the next trail record's number; the trail bytes the partner has acknowledged; where each clearing's record stands in the
trail; the byte count the flush in progress runs to; the restore in progress; the header of the last restore (P, its
clearing's number and trail byte count, its source); whether verify mode has met a difference; whether a park's clearing
has both copies (17 R436); and the frames of a partner's streams that wait for a quiesced stack (05 R136). -/
structure SnapSt where
  lost : List Nat
  hold : Nat
  clr  : Option Clearing
  tail : List Clearing
  recs : List BarrierIn
  misses : List (Nat × Nat)
  pairRec : List PairRec
  pairTo  : Nat
  badSlots : List Nat
  parts : List (Nat × Nat × Nat)
  mirrorTo : Nat
  stepImm : Option Nat
  nextRec : Nat
  acked : Nat
  marks : List (Nat × Nat)
  flushTo : Option Nat
  restore : Option Restore
  restored : Nat × Nat × Nat × Nat
  diverged : Bool
  parkDone : Bool
  inbox : List Frame
  deriving DecidableEq, Repr

/-! ### Flash (16 R421) -/

/-- An L2 copy in flash: the clearing, its first byte in flash, its length, and whether it is pinned (13 R334). -/
structure L2Copy where
  number : Nat
  base   : Nat
  len    : Nat
  pinned : Bool
  deriving DecidableEq, Repr

/-- Module flash: bytes by flash byte address, words written from poisoned ones, blocks that can no longer be corrected
(R423), and the L2 copies, oldest first. -/
structure FlashSt where
  cells  : List (Nat × Nat)
  bad    : List Nat
  dead   : List Nat
  copies : List L2Copy
  deriving DecidableEq, Repr

/-! ### Power -/

/-- The power controller and basecamp beside their registers: the wake source and the state left of the running
transition, when it began and the failed attempts of its exit, the source of the pending request, and the quiesce bits
that a request set over, as (page, old bit), for the return to RUN, and those that a request from SLEEP set over, for its
refusal (15 R373, R374, R378, R379); each tile's estimated power and limit in hundredths of a watt; whether FAST_LIMIT# is low; input
energy below one joule in µJ; each compute die's readings of the last 1 ms, newest first, and its samples since the last
THERMAL_STEP (R386); each sensor's reading and highest reading since that was last read, in 0.1 °C; the sensors that throttle and those that
tripped (R387); the coolant limits: watts in hundredths cut from each tile for the inlet, the share of ring tuning above its
55 W, the module limit, tiles at minimum issue for the inlet and for the flow, and when coolant_warn was last raised
(01 R30, R389); the TCLK changes in progress, as (tile, divider) (R392); the PWR_OK pin and whether
the module has input power (16 R401, R402). -/
structure PwrSt where
  src     : Nat
  left    : Nat
  began   : Nat
  attempts : Nat
  pendSrc : Nat
  saved   : List (Nat × Nat)
  savedLow : List (Nat × Nat)
  est     : List (Nat × Nat)
  lim     : List (Nat × Nat)
  fast    : Bool
  energy  : Nat
  dies    : List (Nat × List Int)
  sinceStep : List (Nat × Nat)
  temps   : List (Nat × Int × Option Int)
  hot     : List Nat
  tripped : List Nat
  cut     : Nat
  ringCut : Nat
  flowCap : Option Nat
  minInlet : Bool
  minFlow : Bool
  lastWarn : Option Nat
  changing : List (Nat × Nat)
  pwrOk   : Bool
  powered : Bool
  deriving DecidableEq, Repr

/-! ### Host side -/

/-- A host request to module memory that a quiesced stack, or an earlier access of its port, holds: its first address and
length, and the bytes of a write with its EP bit (01 R21; 05 R136). -/
structure MemAcc where
  addr : Nat
  n    : Nat
  data : Option (List Nat × Bool)
  deriving DecidableEq, Repr

/-- A register access that waits for a stopped domain (15 R396, R397), or behind one from its port: its number, its port,
whether a mailbox command makes it, its page, offset and bytes, and the value of a write; or, with `mem`, a memory request
that waits among them. -/
structure WaitAcc where
  id    : Nat
  port  : Port
  mbx   : Bool
  page  : Nat
  off   : Nat
  n     : Nat
  write : Option Word
  mem   : Option MemAcc
  deriving DecidableEq, Repr

/-- The clock domains that a register access wakes (15 R396; 18 R461): the engine and scratchpad TCLK of a tile, FCLK and
CCLK; `other` is a domain that no access wakes. -/
inductive Domain where
  | engine (t : Nat) | spad (t : Nat) | fclk | cclk | other
  deriving DecidableEq, Repr

/-- A flash command in progress (16 R422): its operation, its first block and block count, and its memory address. -/
structure FlashCmd where
  op    : Nat
  block : Nat
  count : Nat
  addr  : Nat
  deriving DecidableEq, Repr

/-- The host side beside its registers: the two firmware images in flash (16 R413); whether the trailhead found none that
verifies (R414); the flash command and the census in progress, the latter by when it began; the debug challenge with its
scope and when it was issued, the response words, and the challenges issued so far (R420); the domains' page accesses
that wait and the domains woken for one (15 R396, R397) stand in `waits` and `woken` of the state; each stack PHY's
failed retrains in succession, and a mark of its last training (18 R464, R465); the stages of this start-up with their times in ms, and the boot records of the
XSC-1-72, which its card keeps, newest first, each with its repair candidates (R416, R430); and the low bits of the SMBus address that the board
straps. -/
structure HostSt where
  imageA  : List Nat
  imageB  : List Nat
  recovery : Bool
  flashCmd : Option FlashCmd
  census  : Option Nat
  chal    : Option (List Word × Nat × Nat)
  resp    : List (Nat × Word)
  chals   : Nat
  phyFails : List (Nat × Nat)
  phyMark : List (Nat × Nat)
  stageMs : List (Nat × Nat)
  card    : List (List Nat × List Nat)
  strap   : Nat
  deriving DecidableEq, Repr

/-- The service face beside its registers: whether the park of the module came without a clearing (17 R437), whether
a start-up or an exit from DEEP waits for the latch, how far an exit that the latch held has gone (0 none held, 1 steps 1
to 5, 2 step 6 too; R440), and when a channel of each link was last seen to carry both ways (R433). -/
structure SvcSt where
  plain : Bool
  waits : Bool
  exit  : Nat
  live  : List (Nat × Nat)
  deriving DecidableEq, Repr

/-- A slot that leaves on a channel: its first two bytes are the tag, low byte first, then the flit's, of which a frame's last
may hold fewer than 64 (12 R316). -/
structure LinkSlot where
  link : Nat
  chan : Nat
  tag  : Nat
  flit : List Nat
  deriving DecidableEq, Repr

/-- What a command answers to the outside, in order. A frame goes out in slots, its header first, its CRC last
(12 R315, R316). -/
inductive Output where
  | readData (port : Port) (value : BitVec 64)
  | readBytes (bytes : List Byte) (ep : Bool)
  | unsupportedRequest
  | completerAbort
  | requestRetry
  | configData (value : BitVec 64)
  | configCap (present : Bool)
  | nak (port : Port) (code : Nat)
  | accessError
  | result (port : Port) (words : List (BitVec 64))
  | msix (vector : Nat) (addr : BitVec 64) (data : Word)
  | smbusAddress (addr : Nat)
  | frame (port : Nat) (slots : List LinkSlot) (header : BitVec 256) (f : Frame) (crc : Nat)
  | training (link chan : Nat) (slots : List LinkSlot) (header : BitVec 256) (f : Frame) (crc : Nat)
  | toRanger (src : Nat) (bytes : List Nat)
  | probe (link : Nat) (continuous : Bool)
  deriving DecidableEq, Repr

end Sys2Proof.Machine
end

