-- ==== Sys2Proof/Machine/Memory.lean ====
section
/-!
DEFINITION. The address map and the protected memories: the check code and its decoder, corrections, poison, and
whole-word and partial writes (01 R23, R24, R28; 05 R109 to R131).
-/
namespace Sys2Proof.Machine

/-! ### The family and the address map -/

/-- Tiles fitted (00 R1). -/
def Member.tiles : Member → Nat
  | .xsm8 => 8
  | .xsm4 => 4
  | .xsc1 => 1
/-- Stacks fitted (00 R1). -/
def Member.stacks (m : Member) : Nat := Member.tiles m
/-- Photonic engines fitted (01 R18). -/
def Member.pe (m : Member) (p : Nat) : Bool :=
  match m with
  | .xsm8 => decide (p < 5)
  | .xsm4 => decide (p < 2) || decide (p = 3)
  | .xsc1 => false
/-- Links fitted: a link is present with its engine (01 R18). -/
def Member.link (m : Member) (l : Nat) : Bool := Member.pe m (l / 8)
/-- The member code of the fuses (16 R428). -/
def Member.code : Member → Nat
  | .xsm8 => 0
  | .xsm4 => 1
  | .xsc1 => 2
/-- Ranks of the largest system (00 R1; 10 R240: the card validates lists against the whole rank space). -/
def Member.ranks : Member → Nat
  | .xsm8 => 65536
  | .xsm4 => 32768
  | .xsc1 => 65536

/-- What lies at a module-local address (01 R23). -/
inductive Region where
  | understory (tile off : Nat)
  | stack (s off : Nat)
  | regs (off : Nat)
  | hole
  deriving DecidableEq, Repr

/-- The module-local address map of a member (01 R23, R24). -/
def region (m : Member) (a : Nat) : Region :=
  if a < 0x400000000 then
    if a / 0x80000000 < Member.tiles m then .understory (a / 0x80000000) (a % 0x80000000) else .hole
  else if 0xF000000000 ≤ a ∧ a < 0xF001000000 then .regs (a - 0xF000000000)
  else if 0x10000000000 ≤ a ∧ a < 0x20000000000 then
    let s := (a - 0x10000000000) / 0x2000000000
    let x := (a - 0x10000000000) % 0x2000000000
    if s < Member.stacks m ∧ x < 0x1200000000 then .stack s x else .hole
  else .hole

/-- Whether an address is populated module memory. -/
def isMem (m : Member) (a : Nat) : Bool :=
  match region m a with
  | .understory .. | .stack .. => true
  | _ => false

/-- The first module address of a tile's understory. -/
def understoryBase (t : Nat) : Nat := t * 0x80000000
/-- The first module address of a stack window. -/
def stackBase (s : Nat) : Nat := 0x10000000000 + s * 0x2000000000
/-- Whether every byte of a range is populated memory (the ends in one region suffice, for a range of at most one
region). -/
def memRange (m : Member) (a n : Nat) : Bool :=
  match n with
  | 0 => true
  | k + 1 =>
    match region m a, region m (a + k) with
    | .understory t _, .understory t' _ => decide (t ≤ t')
    | .stack s _, .stack s' _ => decide (s = s')
    | _, _ => false

/-! ### The check code (05 R112, R113) -/

/-- x^j modulo g(x) = 0xC599, as 15 bits. -/
def remPow : Nat → Nat
  | 0 => 1
  | j + 1 =>
    let y := 2 * remPow j
    if y / 32768 % 2 = 1 then Nat.xor y 0xC599 else y

/-- α^k in GF(2^7), α a root of x^7 + x^3 + 1. -/
def alphaPow : Nat → Nat
  | 0 => 1
  | k + 1 =>
    let y := 2 * alphaPow k
    if y / 128 % 2 = 1 then Nat.xor y 0x89 else y

/-- The logarithm of a nonzero element, searched below `n`. -/
def gfLogBelow (x : Nat) : Nat → Option Nat
  | 0 => none
  | n + 1 =>
    match gfLogBelow x n with
    | some k => some k
    | none => if alphaPow n = x then some n else none

def gfLog (x : Nat) : Option Nat := gfLogBelow x 127

/-- Multiplication in GF(2^7). -/
def gfMul (a b : Nat) : Nat :=
  match gfLog a, gfLog b with
  | some i, some j => alphaPow ((i + j) % 127)
  | _, _ => 0

/-- The check field of a poisoned word's data 0: p = 1 with its check bits. -/
def poisonField : BitVec 16 := BitVec.ofNat 16 (Nat.xor 0x8000 (remPow 79))

/-- The valid check field of a data word with p = 0: the XOR of the check bits of its set bits. -/
def validFieldUpTo (data : Nat) : Nat → Nat
  | 0 => 0
  | i + 1 => if data / 2 ^ i % 2 = 1 then Nat.xor (validFieldUpTo data i) (remPow (15 + i)) else validFieldUpTo data i

def validField (data : Nat) : Nat := validFieldUpTo data 64

/-- The codeword positions set in an error pattern that is confined to the check field: bits 0 to 14 at x^0 to x^14,
bit 15 at x^79. The code is linear, so a word's syndromes are those of its check field's difference from the valid
one. -/
def errPositions (e : BitVec 16) : List Nat :=
  ((List.range 16).filter (fun i => e.getLsbD i)).map (fun i => if i = 15 then 79 else i)

/-- The three syndromes of a word: parity, S1 and S3. -/
structure Syndrome where
  p  : Nat
  s1 : Nat
  s3 : Nat
  deriving DecidableEq, Repr

def syndrome (e : BitVec 16) : Syndrome :=
  let ps := errPositions e
  ⟨ps.length % 2, ps.foldl (fun a j => Nat.xor a (alphaPow j)) 0,
   ps.foldl (fun a j => Nat.xor a (alphaPow (3 * j % 127))) 0⟩

/-- The outcomes of the decoder (05 R113). -/
inductive EccOut where
  | ok
  | single (pos : Nat)
  | double (pos1 pos2 : Nat)
  | uc
  deriving DecidableEq, Repr

/-- The roots of the error locator S1·X² + S1²·X + (S3 + S1³) among α^0 to α^126. -/
def locatorRoots (s1 s3 : Nat) : List Nat :=
  let s2 := gfMul s1 s1
  let c := Nat.xor s3 (gfMul s2 s1)
  (List.range 127).filter fun k =>
    let x := alphaPow k
    Nat.xor (Nat.xor (gfMul s1 (gfMul x x)) (gfMul s2 x)) c == 0

/-- The decoder (05 R113): corrects one or two errors at positions 0 to 79, detects the rest. -/
def eccDecode (y : Syndrome) : EccOut :=
  if y.p = 0 ∧ y.s1 = 0 ∧ y.s3 = 0 then .ok
  else if y.p = 1 then
    if y.s1 ≠ 0 ∧ y.s3 = gfMul (gfMul y.s1 y.s1) y.s1 then
      match gfLog y.s1 with
      | some j => if j < 80 then .single j else .uc
      | none => .uc
    else .uc
  else if y.s1 = 0 then .uc
  else
    match locatorRoots y.s1 y.s3 with
    | [a, b] => if a < 80 ∧ b < 80 then .double a b else .uc
    | _ => .uc

/-! ### Words -/

/-- The byte at an address; a byte nothing has written reads as 0, the zero fill of 05 R129. -/
def MemSt.byte (m : MemSt) (a : Nat) : Byte := sparseGet (fun _ => 0) m.cells a
/-- Stores one byte, keeping the canonical form. -/
def MemSt.setByte (m : MemSt) (a : Nat) (b : Byte) : MemSt :=
  { m with cells := sparsePut (fun _ => 0) a b m.cells }

/-- The address of the 64-bit word that holds a byte. -/
def wordOf (a : Nat) : Nat := a / 8 * 8

/-- `n` bytes from `a`, as a little-endian number (00 R11). -/
def MemSt.rawBytes (m : MemSt) (a : Nat) : Nat → Nat
  | 0 => 0
  | n + 1 => (m.byte a).toNat + 256 * m.rawBytes (a + 1) n

/-- The stored data bits of a word. -/
def MemSt.rawWord (m : MemSt) (wa : Nat) : Nat := m.rawBytes wa 8
/-- The difference of a word's stored check field from the valid unpoisoned one. -/
def MemSt.diff (m : MemSt) (wa : Nat) : BitVec 16 := sparseGet (fun _ => 0) m.chk wa
def MemSt.setDiff (m : MemSt) (wa : Nat) (d : BitVec 16) : MemSt :=
  { m with chk := sparsePut (fun _ => 0) wa d m.chk }

/-- Stores the bytes of a number from `a` on, little-endian. -/
def MemSt.putBytes (m : MemSt) (a v : Nat) : Nat → MemSt
  | 0 => m
  | n + 1 => (m.setByte a (BitVec.ofNat 8 (v % 256))).putBytes (a + 1) (v / 256) n

/-- Marks the queued corrections of a word as overtaken by a write (05 R117). -/
def markStale (wa : Nat) : List CorrEntry → List CorrEntry
  | [] => []
  | e :: r => (if e.addr = wa then { e with stale := true } else e) :: markStale wa r

/-- Stores a whole word: new data with p = 0, or the poisoned word of data 0 (05 R116, R119). -/
def MemSt.putWord (m : MemSt) (wa data : Nat) (poison : Bool) : MemSt :=
  let m := m.putBytes wa (if poison then 0 else data) 8
  let m := m.setDiff wa (if poison then poisonField else 0)
  { m with corrq := markStale wa m.corrq }

/-- What a codeword position's flip does to the stored data. -/
def flipData (data pos : Nat) : Nat :=
  if 15 ≤ pos ∧ pos < 79 then Nat.xor data (2 ^ (pos - 15)) else data
/-- What a codeword position's flip does to the check field's difference. -/
def flipDiff (d : BitVec 16) (pos : Nat) : BitVec 16 :=
  if pos < 15 then d ^^^ BitVec.ofNat 16 (2 ^ pos)
  else if pos < 79 then d ^^^ BitVec.ofNat 16 (remPow pos)
  else d ^^^ 0x8000#16

/-- Flips one stored bit of a word (an upset, or its correction). -/
def MemSt.flip (m : MemSt) (wa pos : Nat) : MemSt :=
  (m.putBytes wa (flipData (m.rawWord wa) pos) 8).setDiff wa (flipDiff (m.diff wa) pos)

/-- Bits that flipped in memory before a command reads it, as (word address, codeword position 0 to 79). -/
def MemSt.upset (m : MemSt) (mb : Member) : List (Nat × Nat) → MemSt
  | [] => m
  | (a, pos) :: r => (if isMem mb a ∧ pos < 80 then m.flip (wordOf a) pos else m).upset mb r

/-- The tile whose understory or stack window an address lies in, which that tile reaches without the hub (01 R15, R16). -/
def tileOf (mb : Member) (a : Nat) : Option Nat :=
  match region mb a with
  | .understory t _ => some t
  | .stack k _ => some k
  | _ => none

/-- How a word decodes. -/
def MemSt.ecc (m : MemSt) (wa : Nat) : EccOut := eccDecode (syndrome (m.diff wa))

/-- The positions a decoder outcome corrects. -/
def EccOut.fixes : EccOut → List Nat
  | .single a => [a]
  | .double a b => [a, b]
  | _ => []

/-- The data a read of a word delivers: corrected, or 0 for a poisoned or uncorrectable word (05 R115, R116, R120). -/
def MemSt.wordData (m : MemSt) (wa : Nat) : Nat :=
  match m.ecc wa with
  | .uc => 0
  | o => o.fixes.foldl flipData (m.rawWord wa)
/-- Whether a read of a word delivers it as poisoned. -/
def MemSt.wordPoison (m : MemSt) (wa : Nat) : Bool :=
  match m.ecc wa with
  | .uc => true
  | o => (o.fixes.foldl flipDiff (m.diff wa)).getLsbD 15

/-- The byte a read delivers at an address. -/
def MemSt.readByte (m : MemSt) (a : Nat) : Nat := natBits (m.wordData (wordOf a)) (8 * (a % 8)) 8
/-- Whether the word that holds a byte is poisoned. -/
def MemSt.poisoned (m : MemSt) (a : Nat) : Bool := m.wordPoison (wordOf a)

/-- `n` delivered bytes from `a`, little-endian. -/
def MemSt.readN (m : MemSt) (a : Nat) : Nat → Nat
  | 0 => 0
  | n + 1 => m.readByte a + 256 * m.readN (a + 1) n
/-- Whether any of `n` bytes from `a` lies in a poisoned word. -/
def MemSt.poisonedN (m : MemSt) (a : Nat) : Nat → Bool
  | 0 => false
  | n + 1 => m.poisoned a || m.poisonedN (a + 1) n

/-! ### Writes of bytes (01 R28; 05 R118, R119) -/

/-- One byte to be written, with whether its source is poisoned. -/
structure WByte where
  addr : Nat
  val  : Nat
  poison : Bool
  deriving DecidableEq, Repr

/-- The bytes of a number to be written from `a` on. -/
def wbytes (a v : Nat) (poison : Bool) : Nat → List WByte
  | 0 => []
  | n + 1 => ⟨a, v % 256, poison⟩ :: wbytes (a + 1) (v / 256) poison n

/-- Merges the written bytes of one word into its data. -/
def mergeBytes (data : Nat) : List WByte → Nat
  | [] => data
  | b :: r =>
    let sh := 8 * (b.addr % 8)
    mergeBytes (data - natBits data sh 8 * 2 ^ sh + b.val % 256 * 2 ^ sh) r

/-- Writes the given bytes of one word. Any poisoned source byte poisons the word; a write of all eight bytes from
unpoisoned sources stores them whole; a partial write reads, merges and writes, and leaves a poisoned word poisoned with
data 0. -/
def MemSt.writeWordBytes (m : MemSt) (wa : Nat) (bs : List WByte) : MemSt :=
  if bs.any (fun b => b.poison) then m.putWord wa 0 true
  else if (List.range 8).all (fun i => bs.any (fun b => decide (b.addr = wa + i))) then
    m.putWord wa (mergeBytes 0 bs) false
  else if m.wordPoison wa then m.putWord wa 0 true
  else m.putWord wa (mergeBytes (m.wordData wa) bs) false

/-- Whether a partial write of these bytes meets a poisoned word (which raises POISON_CONSUMED, 01 R28). -/
def MemSt.partialMeetsPoison (m : MemSt) (wa : Nat) (bs : List WByte) : Bool :=
  !bs.any (fun b => b.poison) && !(List.range 8).all (fun i => bs.any (fun b => decide (b.addr = wa + i))) &&
    m.wordPoison wa

/-- The words a list of bytes touches, each once, in the order first touched. -/
def touchedWords : List WByte → List Nat
  | [] => []
  | b :: r => wordOf b.addr :: (touchedWords r).filter (fun w => decide (w ≠ wordOf b.addr))

/-- The bytes of a list that lie in one word. -/
def bytesIn (wa : Nat) (bs : List WByte) : List WByte := bs.filter (fun b => decide (wordOf b.addr = wa))

/-- The words a list of bytes covers only in part, which a write reads first (01 R28; 05 R126). -/
def partialWords (bs : List WByte) : List Nat :=
  (touchedWords bs).filter fun wa => !(List.range 8).all (fun i => bs.any (fun b => decide (b.addr = wa + i)))

/-- Writes a list of bytes word by word, each word whole (01 R29). -/
def MemSt.writeWords (m : MemSt) (bs : List WByte) : List Nat → MemSt
  | [] => m
  | wa :: r => (m.writeWordBytes wa (bytesIn wa bs)).writeWords bs r

def MemSt.write (m : MemSt) (bs : List WByte) : MemSt := m.writeWords bs (touchedWords bs)

/-- Whether the write meets a poisoned word it only covers in part. -/
def MemSt.writeMeetsPoison (m : MemSt) (bs : List WByte) : Bool :=
  (touchedWords bs).any (fun wa => m.partialMeetsPoison wa (bytesIn wa bs))

/-- The canonical form of memory: cells and check differences in their canonical forms (keys strictly rising, nothing
listed that reads as 0 unlisted). -/
def MemSt.wf (m : MemSt) : Bool :=
  sparseWf (fun _ => (0 : Byte)) m.cells && sparseWf (fun _ => (0 : BitVec 16)) m.chk

/-! ### Correction queues (05 R115) -/

/-- The queue an address belongs to: one for each understory bank, one for each stack. -/
def corrOwner (m : Member) (a : Nat) : Nat :=
  match region m a with
  | .understory t off => t * 64 + natBits off 11 6
  | .stack s _ => 1000 + s
  | _ => 2000

/-- Entries of one queue. -/
def corrDepth (m : Member) (owner : Nat) (q : List CorrEntry) : Nat :=
  (q.filter (fun e => decide (corrOwner m e.addr = owner))).length

/-- The largest depth of a tile's bank queues (05 R115). -/
def corrFullest (m : Member) (t : Nat) (q : List CorrEntry) : Nat :=
  (List.range 64).foldl (fun a b => max a (corrDepth m (t * 64 + b) q)) 0

/-- The unit that one repair replaces (05 R131): an address's understory line; a spare line, by its number among its
tile's (64 in each of 64 banks); a stack's row of one pseudo-channel. -/
def lineOf (a : Nat) : Nat := a / 2048
def spareKey (t i : Nat) : Nat := 2 ^ 30 + t * 4096 + i
def rowOf (s off : Nat) : Nat := s * 2 ^ 38 + natBits off 8 6 * 2 ^ 32 + Config.stackRow s (natBits off 14 22) % 2 ^ 32

/-- The bank a line or spare line belongs to, counted over all tiles. -/
def lineBank (l : Nat) : Nat := if l < 2 ^ 30 then l / 2 ^ 20 * 64 + l % 64 else (l - 2 ^ 30) / 64
def lineTile (l : Nat) : Nat := lineBank l / 64
def rowStack (r : Nat) : Nat := r / 2 ^ 38

/-- Lines take spare lines of their banks in turn, while a bank has one of its 64 left; the lines that found none. -/
def fixLines (fixed : List Nat) : List Nat → List Nat × List Nat
  | [] => (fixed, [])
  | l :: r =>
    if fixed.contains l then fixLines fixed r
    else if (fixed.filter fun x => decide (lineBank x = lineBank l)).length < 64 then fixLines (fixed ++ [l]) r
    else
      let y := fixLines fixed r
      (y.1, l :: y.2)

end Sys2Proof.Machine
end

