-- ==== Sys2Proof/Machine/State.lean ====
section
/-!
DEFINITION. The state of the module, and the state after reset.
-/
namespace Sys2Proof.Machine

/-- Why the machine stops: nothing in this model does. -/
inductive Fault where
  /-- Raised by no meaning; kept so that the interface has a fault type. Safe. -/
  | never
  deriving DecidableEq, Repr

/-- Why a command is refused. -/
inductive Refusal where
  /-- Raised by exec's arm of a command that has no meaning yet. Safe. -/
  | notModelled (mnemonic : String)
  deriving DecidableEq, Repr

/-- The module: the commands that wait, first in first out; microseconds since module reset (the model's clock); the
model's counter of free values and the answers of the last command; then everything the spec gives the module. -/
structure State where
  pending : List Instr
  now   : Nat
  free  : Nat
  out   : List Output
  fuses : Fuses
  rf    : RegFile
  mem   : MemSt
  seq   : SeqSt
  te    : List (Nat × TeSt)
  scale : ScaleSt
  err   : ErrSt
  coll  : CollSt
  net   : NetSt
  optics : OptSt
  snap  : SnapSt
  flash : FlashSt
  pwr   : PwrSt
  host  : HostSt
  svc   : SvcSt
  waits : List WaitAcc
  woken : List Domain
  deriving DecidableEq, Repr

/-! ### The components right after reset -/

def RegFile.reset : RegFile := ⟨[], [], []⟩
def MemSt.reset : MemSt := ⟨[], [], [], [], [], [], [], [], [], [], [], []⟩
def SeqSt.reset : SeqSt := ⟨[], [], 0, [], []⟩
def ScaleSt.reset : ScaleSt := ⟨[], [], []⟩
def ErrSt.reset : ErrSt := ⟨[], 0, none, none, false⟩
def CollSt.reset : CollSt := ⟨[], none, [], [], [], []⟩
def NetSt.reset : NetSt := ⟨none, 0, none, 0, false, [], [], [], []⟩
def OptSt.reset : OptSt := ⟨[], [], [], [], [], [], [], [], [], [], [], [], []⟩
def SnapSt.reset : SnapSt :=
  ⟨[], 0, none, [], [], [], [], 0, [], [], 0, none, 0, 0, [], none, none, (0, 0, 0, 0), false, false, []⟩
def FlashSt.reset : FlashSt := ⟨[], [], [], []⟩
def PwrSt.reset : PwrSt :=
  ⟨0, 0, 0, 0, 0, [], [], [], [], false, 0, [], [], [], [], [], 0, 0, none, false, false, none, [], false, true⟩
def HostSt.reset : HostSt := ⟨[], [], false, none, none, none, [], 0, [], [], [], [], 0⟩
def SvcSt.reset : SvcSt := ⟨false, false, 0, []⟩

/-- The fuse array of the module the model starts with: an XSM-8-576 with no lock, no repair and security version 0. What
an array holds is fixed at manufacture (16 R417); no statement rests on these values. -/
def Fuses.first : Fuses :=
  ⟨0, 0x3FFFFF, .xsm8, 0, List.replicate 48 0, List.replicate 48 0, 0, 0, 0, 0, 0, 0⟩

/-- The module right after reset (16 R402, 18 R449): every register at the value its table gives, nothing in flight,
memory with nothing listed, the start-up at its first stage. -/
def State.reset : State :=
  { pending := [], now := 0, free := 0, out := [], fuses := Fuses.first, rf := .reset, mem := .reset, seq := .reset,
    te := [], scale := .reset, err := .reset, coll := .reset, net := .reset, optics := .reset, snap := .reset,
    flash := .reset, pwr := .reset, host := .reset, svc := .reset, waits := [], woken := [] }

end Sys2Proof.Machine
end

