-- ==== Sys2Proof/Machine/Ops.lean ====
section
/-!
DEFINITION. The named operations over registers, events, errors, memory and answers, which every meaning is built from.
-/
namespace Sys2Proof.Machine

/-! ### Pages (18 R461) -/

/-- The page number of a unit's page. -/
def pageNum : PageType → Nat → Nat
  | .module, _ => 0x000
  | .fuse, _ => 0x001
  | .ranger, _ => 0x002
  | .pwr, _ => 0x003
  | .clk, _ => 0x004
  | .flash, _ => 0x005
  | .snap, _ => 0x006
  | .trail, _ => 0x007
  | .pcie, _ => 0x008
  | .tseq, t => 0x100 + 0x40 * t
  | .te, i => 0x101 + 0x40 * (i / 4) + i % 4
  | .ve, t => 0x105 + 0x40 * t
  | .dma, t => 0x106 + 0x40 * t
  | .spad, t => 0x107 + 0x40 * t
  | .rng, t => 0x108 + 0x40 * t
  | .scale, t => 0x109 + 0x40 * t
  | .watch, t => 0x10A + 0x40 * t
  | .scrub, t => 0x10B + 0x40 * t
  | .stk, s => 0x300 + 0x10 * s
  | .stkphy, s => 0x301 + 0x10 * s
  | .link, l => 0x400 + 0x8 * l
  | .pe, p => 0x600 + 0x20 * p
  | .pech, i => 0x601 + 0x20 * (i / 8) + i % 8
  | .pecal, p => 0x609 + 0x20 * p
  | .coll, _ => 0x700
  | .norm, _ => 0x701
  | .plan, _ => 0x702
  | .route, _ => 0x703

/-- The type and instance of a page number of the page map, whether or not the member has it. -/
def pageMap (p : Nat) : Option (PageType × Nat) :=
  if p < 0x009 then
    [(PageType.module, 0), (.fuse, 0), (.ranger, 0), (.pwr, 0), (.clk, 0), (.flash, 0), (.snap, 0), (.trail, 0),
      (.pcie, 0)][p]?
  else if 0x100 ≤ p ∧ p < 0x300 then
    let t := (p - 0x100) / 0x40
    [(PageType.tseq, t), (.te, 4 * t), (.te, 4 * t + 1), (.te, 4 * t + 2), (.te, 4 * t + 3), (.ve, t), (.dma, t),
      (.spad, t), (.rng, t), (.scale, t), (.watch, t), (.scrub, t)][(p - 0x100) % 0x40]?
  else if 0x300 ≤ p ∧ p < 0x380 then
    let s := (p - 0x300) / 0x10
    [(PageType.stk, s), (.stkphy, s)][(p - 0x300) % 0x10]?
  else if 0x400 ≤ p ∧ p < 0x540 then
    if (p - 0x400) % 8 = 0 then some (.link, (p - 0x400) / 8) else none
  else if 0x600 ≤ p ∧ p < 0x6A0 then
    let e := (p - 0x600) / 0x20
    let j := (p - 0x600) % 0x20
    if j = 0 then some (.pe, e) else if j < 9 then some (.pech, 8 * e + (j - 1)) else if j = 9 then some (.pecal, e)
    else none
  else if 0x700 ≤ p ∧ p < 0x704 then [(PageType.coll, 0), (.norm, 0), (.plan, 0), (.route, 0)][p - 0x700]?
  else none

/-- Whether a member has a page (18, Pages by member). -/
def pagePresent (m : Member) : PageType → Nat → Bool
  | .tseq, t | .ve, t | .dma, t | .spad, t | .rng, t | .scale, t | .watch, t | .scrub, t => decide (t < Member.tiles m)
  | .te, i => decide (i / 4 < Member.tiles m)
  | .stk, s | .stkphy, s => decide (s < Member.stacks m)
  | .link, l => Member.link m l
  | .pe, p | .pecal, p => Member.pe m p
  | .pech, i => Member.pe m (i / 8)
  | .route, _ | .flash, _ => decide (m ≠ .xsc1)
  | _, _ => true

/-- The page at a page number of a member; none for an absent one (00 R3, 18 R456). -/
def pageAt (m : Member) (p : Nat) : Option (PageType × Nat) :=
  match pageMap p with
  | some (ty, i) => if pagePresent m ty i then some (ty, i) else none
  | none => none

/-- Lock groups (16 R418). -/
def PageType.group : PageType → Nat
  | .module => 0 | .fuse => 1 | .ranger => 2 | .pwr => 3 | .clk => 4 | .flash => 5 | .snap => 6 | .trail => 7
  | .pcie => 8 | .tseq => 9 | .te => 9 | .ve => 10 | .dma => 11 | .spad => 12 | .scrub => 12 | .rng => 13
  | .scale => 13 | .watch => 13 | .stk => 14 | .stkphy => 14 | .link => 15 | .pe => 16 | .pech => 16 | .pecal => 16
  | .coll => 17 | .norm => 17 | .plan => 18 | .route => 18

/-- MSI-X vectors (16 R405; the tile pages by tile). -/
def PageType.vector (ty : PageType) (i : Nat) : Nat :=
  match ty with
  | .module => 0
  | .tseq | .ve | .dma | .spad | .rng | .scale | .watch | .scrub => 1 + i
  | .te => 1 + i / 4
  | .stk | .stkphy => 9
  | .coll | .norm => 10
  | .plan | .route | .link | .pe | .pech | .pecal => 11
  | .snap | .trail => 12
  | .pwr | .clk => 13
  | .ranger | .fuse | .pcie => 14
  | .flash => 15

/-- Type codes of PAGE_ID (18 R461). -/
def PageType.code : PageType → Nat
  | .module => 0x01 | .fuse => 0x02 | .ranger => 0x03 | .pwr => 0x04 | .clk => 0x05 | .flash => 0x06 | .snap => 0x07
  | .trail => 0x08 | .pcie => 0x09 | .tseq => 0x10 | .te => 0x11 | .ve => 0x12 | .dma => 0x13 | .spad => 0x14
  | .rng => 0x15 | .scale => 0x16 | .watch => 0x17 | .scrub => 0x18 | .stk => 0x20 | .stkphy => 0x21 | .link => 0x30
  | .pe => 0x40 | .pech => 0x41 | .pecal => 0x42 | .coll => 0x50 | .norm => 0x51 | .plan => 0x52 | .route => 0x53

/-! ### Stored registers -/

/-- An offset inside a register array, brought to its element 0 (the element's number is lost). -/
def canonIn : List (Nat × Nat × Nat × Nat) → Nat → Nat
  | [], off => off
  | (base, stride, n, size) :: r, off =>
    if base ≤ off ∧ off < base + stride * n ∧ (off - base) % stride < size then base + (off - base) % stride
    else canonIn r off

def PageType.canon (ty : PageType) (off : Nat) : Nat := canonIn ty.arrays off
/-- The element number of an offset in a register array; 0 elsewhere. -/
def elemIn : List (Nat × Nat × Nat × Nat) → Nat → Nat
  | [], _ => 0
  | (base, stride, n, size) :: r, off =>
    if base ≤ off ∧ off < base + stride * n ∧ (off - base) % stride < size then (off - base) / stride
    else elemIn r off

def PageType.elem (ty : PageType) (off : Nat) : Nat := elemIn ty.arrays off

def findRow (off : Nat) : List RegRow → Option RegRow
  | [] => none
  | r :: rs => if r.off = off then some r else findRow off rs

/-- The table row of a register offset, if the page type lists it. -/
def PageType.row (ty : PageType) (off : Nat) : Option RegRow := findRow (ty.canon off) ty.rows

def regKey (page off : Nat) : Nat := page * 4096 + off

/-- A stored register's reset value (18 R449 and the block tables; CLK.TCLK_DIV is 0x5555 on the XSC-1-72). -/
def resetOf (m : Member) (key : Nat) : Word :=
  match pageMap (key / 4096) with
  | none => 0
  | some (ty, _) =>
    if ty = .clk ∧ key % 4096 = 0x040 ∧ m = .xsc1 then 0x5555#32
    else
      match ty.row (key % 4096) with
      | some r => BitVec.ofNat 32 r.rst
      | none => 0

namespace State

/-- The member the fuses name (00 R1). -/
def member (s : State) : Member := s.fuses.member

/-- The stored word of a register. -/
def reg (s : State) (page off : Nat) : Word := sparseGet (resetOf s.fuses.member) s.rf.cells (regKey page off)
/-- Stores a register word. -/
def setReg (s : State) (page off : Nat) (v : Word) : State :=
  { s with rf := { s.rf with cells := sparsePut (resetOf s.fuses.member) (regKey page off) v s.rf.cells } }

/-- A field's value. -/
def fget (s : State) (page : Nat) (f : Fd) : Nat := natBits (s.reg page f.off).toNat f.lo f.w

end State

/-- A word with one field replaced. -/
def putBits (n lo w v : Nat) : Nat := n - natBits n lo w * 2 ^ lo + v % 2 ^ w * 2 ^ lo

namespace State

/-- Sets a field. -/
def fset (s : State) (page : Nat) (f : Fd) (v : Nat) : State :=
  s.setReg page f.off (BitVec.ofNat 32 (putBits (s.reg page f.off).toNat f.lo f.w v))

/-- Whether a one-bit field reads 1. -/
def flag (s : State) (page : Nat) (f : Fd) : Bool := s.fget page f == 1

/-- The 64-bit value of a pair whose low half is at `f`. -/
def pair (s : State) (page : Nat) (f : Fd) : Nat :=
  (s.reg page f.off).toNat + 2 ^ 32 * (s.reg page (f.off + 4)).toNat
/-- Sets both halves of a pair. -/
def setPair (s : State) (page : Nat) (f : Fd) (v : Nat) : State :=
  (s.setReg page f.off (BitVec.ofNat 32 v)).setReg page (f.off + 4) (BitVec.ofNat 32 (v / 2 ^ 32))

/-- A fresh free value (what the spec leaves open). -/
def freeVal (s : State) : Nat := (Config.freeValue s.free).toNat
def useFree (s : State) : State := { s with free := s.free + 1 }

/-- Adds to a counter that wraps at its width. -/
def addWrap (s : State) (page : Nat) (f : Fd) (n : Nat) : State := s.fset page f (s.fget page f + n)
/-- Adds to a counter pair that wraps at 2^64. -/
def addPair (s : State) (page : Nat) (f : Fd) (n : Nat) : State := s.setPair page f ((s.pair page f + n) % 2 ^ 64)
/-- Adds to a counter that holds at its largest value. -/
def addSat (s : State) (page : Nat) (f : Fd) (n : Nat) : State := s.fset page f (min (s.fget page f + n) (2 ^ f.w - 1))
/-- Adds to a counter whose overflow the spec does not state: past its largest value it is a free value. -/
def addFree (s : State) (page : Nat) (f : Fd) (n : Nat) : State :=
  if s.fget page f + n < 2 ^ f.w then s.fset page f (s.fget page f + n)
  else (s.fset page f s.freeVal).useFree

/-- Module flash has been written: the part of its rated endurance that is used has come to some value, no lower than it was
(16 R431; notes/assumptions/19.md). The XSC-1-72 has no flash page. -/
def wearFlash (s : State) : State :=
  if s.member = .xsc1 then s
  else
    let p := pageNum .flash 0
    (s.fset p FLASH.WEAR_percent (max (s.fget p FLASH.WEAR_percent) (s.freeVal % 256))).useFree

/-- Counts one on such a counter. -/
def count (s : State) (page : Nat) (f : Fd) : State := s.addFree page f 1

/-! ### Answers -/

/-- Adds an answer of the present command. -/
def emit (s : State) (o : Output) : State := { s with out := s.out ++ [o] }
/-- Every command begins with no answers of its own. -/
def start (s : State) : State := { s with out := [] }
/-- A microsecond passes with no command (notes/assumptions/2.md). -/
def tick (s : State) : State := { s with now := s.now + 1, out := [] }

/-! ### MSI-X (16 R405) -/

def pcieP : Nat := 0x008

/-- Raises a vector: a message to the address and data of its table entry, or its pending bit while the entry is masked
(PCIe base specification; notes/assumptions/15.md). -/
def raiseVector (s : State) (v : Nat) : State :=
  if s.flag pcieP (PCIE.MSIX_CTRL_mask.plus (16 * v)) then
    s.fset pcieP ⟨PCIE.MSIX_PEND_vec.off, v, 1⟩ 1
  else
    s.emit (.msix v (BitVec.ofNat 64 (s.pair pcieP (PCIE.MSIX_ADDR_LO_addr.plus (16 * v))))
      (s.reg pcieP (PCIE.MSIX_DATA_data.off + 16 * v)))

/-- Sets an event bit; a bit that becomes 1 while enabled raises the page's vector (18 R452). -/
def event (s : State) (ty : PageType) (i : Nat) (f : Fd) : State :=
  if s.flag (pageNum ty i) f then s
  else
    let s' := s.fset (pageNum ty i) f 1
    if s'.flag (pageNum ty i) ⟨0x014, f.lo, 1⟩ then s'.raiseVector (ty.vector i) else s'

/-- Sets a service event bit of the MODULE page (17 R445). -/
def svcEvent (s : State) (f : Fd) : State :=
  if s.flag 0 f then s
  else
    let s' := s.fset 0 f 1
    if s'.flag 0 ⟨MODULE.SVC_EVT_EN.off, f.lo, 1⟩ then s'.raiseVector 0 else s'

/-- Whether the memory at an address accepts new accesses: a quiesced stack accepts none (05 R136), and those of a stack
whose interface retrains wait (18 R465). -/
def memOpen (s : State) (a : Nat) : Bool :=
  match region s.member a with
  | .stack k _ => !s.flag (pageNum .stk k) STK.PAGE_CTRL_quiesce && !s.flag (pageNum .stkphy k) STKPHY.PAGE_STAT_training
  | _ => true

/-- Whether the firebreak is closed, fencing or fenced (14 R364). -/
def fireClosed (s : State) : Bool := decide (s.fget 0 MODULE.FIREBREAK_state ≠ 0)

/-! ### The power state (15 R371) -/

def pwrP : Nat := pageNum .pwr 0
def pwrState (s : State) : Nat := s.fget pwrP PWR.PAGE_STAT_state
def pwrMoving (s : State) : Bool := s.flag pwrP PWR.PAGE_STAT_moving
def pwrTarget (s : State) : Nat := s.fget pwrP PWR.PAGE_STAT_target

/-! ### Clock domains (01 R19; 15 R372, R387) -/

end State

/-- The power state from which on a page's domain stops. -/
def PageType.stopsAt : PageType → Nat
  | .module | .ranger | .pwr | .clk => 3
  | .pe | .pech | .pecal => 3
  | .te | .ve => 1
  | _ => 2

/-- The clock domain of a page (18 R461). -/
def PageType.domain : PageType → Nat → Domain
  | .te, i => .engine (i / 4)
  | .ve, i => .engine i
  | .spad, i | .rng, i | .scale, i | .watch, i | .scrub, i => .spad i
  | .dma, _ | .link, _ | .coll, _ | .norm, _ | .plan, _ | .route, _ => .fclk
  | .flash, _ | .snap, _ | .trail, _ | .pcie, _ | .tseq, _ | .stk, _ => .cclk
  | _, _ => .other

/-- The start-up stage that powers a page's part. -/
def PageType.railStage : PageType → Nat
  | .module | .ranger | .pwr | .clk => 0
  | .fuse | .flash | .snap | .trail | .pcie | .coll | .norm | .plan | .route => 2
  | _ => 4

namespace State

/-- Whether a tripped sensor gates the clock of a page's part (15 R387). -/
def trippedOff (s : State) (ty : PageType) (i : Nat) : Bool :=
  s.fireClosed && (match ty with
    | .te => s.pwr.tripped.contains (i / 4)
    | .ve => s.pwr.tripped.contains i
    | .spad | .rng | .scale | .watch | .scrub => s.pwr.tripped.contains (8 + i)
    | .stkphy => s.pwr.tripped.contains (16 + i)
    | .dma | .link | .coll | .norm | .plan | .route => s.pwr.tripped.contains 0x18
    | _ => false)

/-- Whether start-up has powered and clocked a page's part: basecamp from the first, the hub from the FUSES stage, tiles,
stacks and photonic engines from RAILS (16 R412; 15 R372). -/
def railsUp (s : State) (ty : PageType) : Bool := decide (ty.railStage ≤ s.fget 0 MODULE.BOOT_STAT_stage)

/-- Whether a page's part works: its power state, the start-up and no trip let its clock run. A unit whose clock is stopped
neither computes nor changes its registers (01 R19); a clock that runs for an access alone (15 R396) starts no work
(notes/assumptions/110.md). -/
def domainOn (s : State) (ty : PageType) (i : Nat) : Bool :=
  decide (s.pwrState < ty.stopsAt) && s.railsUp ty && !s.trippedOff ty i

end State

/-! ### Error events (14 R354 to R362) -/

/-- The severity of an event code: 1 CE, 2 PROTO, 3 UC, 4 FATAL (14, Error events). -/
def errClass (code : Nat) : Nat :=
  if code < 0x90 then 1 else if code < 0xA0 then 3 else if code < 0xC0 then 2 else 4

/-- Whether an entry is latched by either reader. -/
def ErrSt.latched (e : ErrSt) (x : ErrEntry) : Bool :=
  (match e.hostLatch with | some y => y.id == x.id | none => false) ||
  (match e.rangerLatch with | some y => y.id == x.id | none => false)

/-- The FIFO after an event: merged into the newest entry, appended, or not entered (14 R357, R359); the Bool says that
the event was counted in ERR_OVF_CNT. -/
def ErrSt.enter (e : ErrSt) (code page detail rank time : Nat) : ErrSt × Bool :=
  let cls := errClass code
  let fresh : ErrEntry := ⟨e.nextId, code, cls, page, 1, detail, time % 2 ^ 48, rank⟩
  match e.fifo.getLast? with
  | some x =>
    if x.code = code ∧ x.page = page ∧ x.detail = detail ∧ e.latched x = false then
      ({ e with fifo := e.fifo.dropLast ++ [{ x with count := min 255 (x.count + 1) }] }, false)
    else if e.fifo.length < (if cls = 4 then 64 else 63) then
      ({ e with fifo := e.fifo ++ [fresh], nextId := e.nextId + 1 }, false)
    else (e, true)
  | none => ({ e with fifo := [fresh], nextId := e.nextId + 1 }, false)

/-- A threshold of ERR_CFG: 0 reads as 4 (14 R370). -/
def threshold (n : Nat) : Nat := if n = 0 then 4 else n

namespace State

/-- The page's own record of an error event (14 R356): the first code, and the count. TSEQ pages record descriptor
errors and halt codes only (06 R170). -/
def pageErr (s : State) (ty : PageType) (i code : Nat) : State :=
  let p := pageNum ty i
  let s := s.addSat p ⟨0x01C, 0, 32⟩ 1
  if ty = .tseq then s
  else if s.fget p ⟨0x018, 0, 8⟩ = 0 then s.fset p ⟨0x018, 0, 8⟩ code else s

/-- The summary, the error interrupt and ALERT# (14 R360, R361). -/
def errSummary (s : State) (cls : Nat) : State :=
  let sev := s.fget 0 MODULE.ERR_SUM_sev
  let raises := !s.flag 0 MODULE.ERR_SUM_pend || decide (sev < cls)
  let int := raises && (decide (threshold (s.fget 0 MODULE.ERR_CFG_int_min) ≤ cls) || decide (cls = 4))
  let alert := raises && (decide (threshold (s.fget 0 MODULE.ERR_CFG_alert_min) ≤ cls) || decide (cls = 4))
  let s := (s.fset 0 MODULE.ERR_SUM_sev (max sev cls)).fset 0 MODULE.ERR_SUM_pend 1
  let s := if alert then { s with err := { s.err with alert := true } } else s
  if int then s.raiseVector 0 else s

/-- An error event: the page's record, the FIFO, the summary (14 R356 to R360). A FATAL event also closes the
firebreak, which `fatal` adds. -/
def errEvent (s : State) (ty : PageType) (i code detail rank : Nat) : State :=
  let s := s.pageErr ty i code
  if errClass code = 1 ∧ s.flag 0 MODULE.ERR_CFG_ce_fifo = false then s
  else
    let r := s.err.enter code (pageNum ty i) (detail % 2 ^ 32) (rank % 2 ^ 16) s.now
    let s := { s with err := r.1 }
    let s := if r.2 then s.count 0 MODULE.ERR_OVF_CNT_count else s
    s.errSummary (errClass code)

/-- The ctrl_err event bit of a page type, where it has one. -/
def ctrlErrBit : PageType → Option Fd
  | .module => some MODULE.PAGE_EVT_ctrl_err
  | .fuse => some FUSE.PAGE_EVT_ctrl_err
  | .ranger => some RANGER.PAGE_EVT_ctrl_err
  | .pwr => some PWR.PAGE_EVT_ctrl_err
  | .clk => some CLK.PAGE_EVT_ctrl_err
  | .flash => some FLASH.PAGE_EVT_ctrl_err
  | .snap => some SNAP.PAGE_EVT_ctrl_err
  | .trail => some TRAIL.PAGE_EVT_ctrl_err
  | .pcie => some PCIE.PAGE_EVT_ctrl_err
  | .tseq => some TSEQ.PAGE_EVT_ctrl_err
  | .rng => some RNG.PAGE_EVT_ctrl_err
  | .coll => some COLL.PAGE_EVT_ctrl_err
  | .pe => some PE.PAGE_EVT_ctrl_err
  | .pech => some PECH.PAGE_EVT_ctrl_err
  | .plan => some PLAN.PAGE_EVT_ctrl_err
  | .stkphy => some STKPHY.PAGE_EVT_ctrl_err
  | _ => none

/-- A control write that its rule forbids: ignored, CTRL_IGNORED with the register offset, and the page's ctrl_err bit
(18 R455, 14 R367). -/
def ctrlIgnored (s : State) (ty : PageType) (i off : Nat) : State :=
  let s := s.errEvent ty i 0xB2 off 0
  match ctrlErrBit ty with
  | some f => s.event ty i f
  | none => s

/-! ### Memory reads with their effects (05 R115, R116, R120, R131) -/

end State

/-- Words as bytes, little-endian. -/
def wordBytes (ws : List Nat) : List Nat := ws.flatMap fun w => (List.range 4).map fun i => natBits w (8 * i) 8

/-- A stack row in two words: its row, then its stack and pseudo-channel. -/
def rowWords (r : Nat) : List Nat := [r % 2 ^ 32, r / 2 ^ 32]

/-- A boot record's section of pending repair candidates: how many lines and rows, then each (16 R416). -/
def candBytes (m : MemSt) : List Nat :=
  wordBytes ([m.lineCand.length, m.rowCand.length] ++ m.lineCand ++ m.rowCand.flatMap rowWords)

/-- A boot record has 64 MiB of the BOOT partition to itself; its candidates stand from byte 2^25 on. What a record holds is
the spec's, how it is laid out the model's (notes/assumptions/101.md). -/
def bootSlotBytes : Nat := 2 ^ 26
def bootCandAt : Nat := 2 ^ 25

namespace State

/-- The ranger records the candidates in the newest boot record (05 R131). -/
def saveCands (s : State) : State :=
  if s.member = .xsc1 then
    match s.host.card with
    | r :: rs => { s with host := { s.host with card := (r.1, candBytes s.mem) :: rs } }
    | [] => s
  else
    let blk := s.fget (pageNum .flash 0) FLASH.BOOT_REC_block
    if blk = 0 then s
    else
      let bs := candBytes s.mem
      let cells := (bs.zip (List.range bs.length)).foldl
        (fun m x => sparsePut (fun _ => 0) (4096 * blk + bootCandAt + x.2) x.1 m) s.flash.cells
      { s with flash := { s.flash with cells := cells } }

/-- Records a repair candidate once per line or row, with its event (05 R131). -/
def candidate (s : State) (a : Nat) : State :=
  match region s.member a with
  | .understory t _ =>
    if lineOf a ∈ s.mem.lineCand then s
    else
      let s := ({ s with mem := { s.mem with lineCand := s.mem.lineCand ++ [lineOf a] } } : State).saveCands
      (s.errEvent .spad t 0x83 (a / 65536) 0).event .spad t SPAD.PAGE_EVT_repair_cand
  | .stack k off =>
    if rowOf k off ∈ s.mem.rowCand then s
    else
      let s := ({ s with mem := { s.mem with rowCand := s.mem.rowCand ++ [rowOf k off] } } : State).saveCands
      (s.errEvent .stk k 0x83 (a / 65536) 0).event .stk k STK.PAGE_EVT_repair_cand
  | _ => s

/-- Enters a corrected word in its correction queue, or counts a drop when the queue holds 16 (05 R115). -/
def queueCorrection (s : State) (a : Nat) : State :=
  if corrDepth s.member (corrOwner s.member a) s.mem.corrq < 16 then
    { s with mem := { s.mem with corrq := s.mem.corrq ++ [⟨a, false⟩] } }
  else
    match region s.member a with
    | .understory t _ =>
      ((s.count (pageNum .spad t) SPAD.SPAD_CORRQ_drops).errEvent .spad t 0x82 0 0).event .spad t SPAD.PAGE_EVT_corrq_drop
    | .stack k _ =>
      ((s.count (pageNum .stk k) STK.STK_CORRQ_drops).errEvent .stk k 0x82 0 0).event .stk k STK.PAGE_EVT_corrq_drop
    | _ => s

/-- Counts a correction of a word on its memory's page. -/
def noteCorrected (s : State) (a : Nat) (double : Bool) : State :=
  match region s.member a with
  | .understory t _ =>
    let p := pageNum .spad t
    if double then
      ((s.count p SPAD.SPAD_CE2_CNT_count).errEvent .spad t 0x81 (a / 65536) 0).event .spad t SPAD.PAGE_EVT_ce_double
    else
      ((s.count p SPAD.SPAD_CE1_CNT_count).errEvent .spad t 0x80 (a / 65536) 0).event .spad t SPAD.PAGE_EVT_ce_single
  | .stack k _ =>
    let p := pageNum .stk k
    if double then
      ((s.count p STK.STK_CE2_CNT_count).errEvent .stk k 0x81 (a / 65536) 0).event .stk k STK.PAGE_EVT_ce_double
    else
      ((s.count p STK.STK_CE1_CNT_count).errEvent .stk k 0x80 (a / 65536) 0).event .stk k STK.PAGE_EVT_ce_single
  | _ => s

/-- Counts an uncorrectable word, latching the first one's address and syndromes (05 R116). -/
def noteUncorrectable (s : State) (a : Nat) : State :=
  let y := syndrome (s.mem.diff a)
  match region s.member a with
  | .understory t _ =>
    let p := pageNum .spad t
    let s :=
      if s.fget p SPAD.SPAD_UC_CNT_count = 0 then
        ((((s.setPair p SPAD.SPAD_ERR_ADDR_LO_addr a).fset p SPAD.SPAD_ERR_SYN_s1 y.s1).fset p
          SPAD.SPAD_ERR_SYN_s3 y.s3).fset p SPAD.SPAD_ERR_SYN_p y.p)
      else s
    ((s.count p SPAD.SPAD_UC_CNT_count).errEvent .spad t 0x90 (a / 65536) 0).event .spad t SPAD.PAGE_EVT_uc
  | .stack k off =>
    let p := pageNum .stk k
    let s :=
      if s.fget p STK.STK_UC_CNT_count = 0 then
        ((((((s.setPair p STK.STK_ERR_ADDR_LO_addr a).fset p STK.STK_ERR_SYN_s1 y.s1).fset p
          STK.STK_ERR_SYN_s3 y.s3).fset p STK.STK_ERR_SYN_p y.p).fset p STK.STK_ERR_SYN_pc (natBits off 8 6)).fset p
          STK.STK_ERR_SYN_sid (natBits off 6 2))
      else s
    ((s.count p STK.STK_UC_CNT_count).errEvent .stk k 0x90 (a / 65536) 0).event .stk k STK.PAGE_EVT_uc
  | _ => s

/-- Counts a read of a word already stored poisoned (05 R116, R120). -/
def notePoisonRead (s : State) (a : Nat) : State :=
  match region s.member a with
  | .understory t _ =>
    (s.count (pageNum .spad t) SPAD.SPAD_POISON_RD_CNT_count).event .spad t SPAD.PAGE_EVT_poison_read
  | .stack k _ =>
    (s.count (pageNum .stk k) STK.STK_POISON_RD_CNT_count).event .stk k STK.PAGE_EVT_poison_read
  | _ => s

/-- Counts a read of a poisoned word, where this one is (05 R116). -/
def readPoison (s : State) (wa : Nat) : State := if s.mem.wordPoison wa then s.notePoisonRead wa else s

/-- The effects of reading one word: a correction is counted and queued, an uncorrectable word is counted and rewritten
poisoned, one stored poisoned is counted as a poisoned read. -/
def touchWord (s : State) (wa : Nat) : State :=
  match s.mem.ecc wa with
  | .ok => s.readPoison wa
  | .single _ => ((s.noteCorrected wa false).queueCorrection wa).readPoison wa
  | .double _ _ => (((s.noteCorrected wa true).queueCorrection wa).candidate wa).readPoison wa
  | .uc =>
    let s := s.noteUncorrectable wa
    ({ s with mem := s.mem.putWord wa 0 true }).candidate wa

/-- The effects of reading a list of words, each once. -/
def touch (s : State) : List Nat → State
  | [] => s
  | wa :: r => (s.touchWord wa).touch r

/-- The data bytes moved by stacks are counted on their pages (05 R136). -/
def stackBytes (s : State) (f : Fd) (a n : Nat) : State :=
  match region s.member a with
  | .stack k _ => s.addPair (pageNum .stk k) f n
  | _ => s

end State

/-- The words that a byte range touches, ascending. -/
def wordsOf (a n : Nat) : List Nat :=
  if n = 0 then [] else (List.range ((a + n - 1) / 8 - a / 8 + 1)).map fun k => 8 * (a / 8 + k)

/-- Each element once, the first occurrence kept. -/
def dedup : List Nat → List Nat
  | [] => []
  | a :: r => a :: (dedup r).filter (fun b => decide (b ≠ a))

namespace State

/-- Stores bytes (01 R28, R29): a word covered in part is read first, with what a read of it counts and raises. -/
def store (s : State) (bs : List WByte) : State :=
  let s := s.touch (partialWords bs)
  { s with mem := s.mem.write bs }

/-! ### The fabric (01 R17) -/

/-- A word that the fabric corrected on its way, once or twice: counted on the MODULE page, with its event (01 R17; 14,
Error events). -/
def fabricFix (s : State) (x : Nat × Nat) : State :=
  if x.2 = 1 then (s.count 0 MODULE.FAB_CE1_CNT_count).errEvent .module 0 0x80 (x.1 / 65536) 0
  else if x.2 = 2 then (s.count 0 MODULE.FAB_CE2_CNT_count).errEvent .module 0 0x81 (x.1 / 65536) 0
  else s

end State

/-- Words with bits that flip on their way, and in how many of their positions. -/
def fabricFlips (xs : List (Nat × Nat)) : List (Nat × Nat) :=
  (dedup (xs.map fun x => x.1)).map fun w =>
    (w, (dedup ((xs.filter fun x => decide (x.1 = w)).map fun x => x.2)).length)

/-- Whether a word lies in one of some byte ranges. -/
def inRanges (rs : List (Nat × Nat)) (w : Nat) : Bool := rs.any fun r => decide (r.1 < w + 8) && decide (w < r.1 + r.2)

namespace State

/-- The words of byte ranges cross the hub crossbar, a link buffer or staging: what flips in them on the way is corrected
and counted (01 R17; notes/assumptions/105.md). -/
def crossFabric (s : State) (rs : List (Nat × Nat)) : State :=
  match s.mem.flight with
  | [] => s
  | f =>
    (fabricFlips (f.filter fun x => inRanges rs x.1)).foldl (fun (s : State) x => s.fabricFix x)
      { s with mem := { s.mem with flight := f.filter fun x => !inRanges rs x.1 } }

/-- What a unit of a tile moves: its own understory and stack are reached without the hub (01 R15, R16). -/
def crossFrom (s : State) (t : Nat) (rs : List (Nat × Nat)) : State :=
  s.crossFabric (rs.filter fun r => decide (tileOf s.member r.1 ≠ some t))

/-- Bits that flip before and while a command reads: at codeword positions 0 to 79 as stored, at 80 to 159 position less 80
when the word next crosses the fabric. -/
def upset (s : State) (ups : List (Nat × Nat)) : State :=
  let fly := (ups.filter fun x => decide (80 ≤ x.2) && decide (x.2 < 160)).map fun x => (wordOf x.1, x.2 - 80)
  { s with mem := { s.mem.upset s.member ups with flight := s.mem.flight ++ fly } }

/-- Reads a byte range with its effects. -/
def touchRange (s : State) (a n : Nat) : State := (s.touch (wordsOf a n)).stackBytes STK.STK_RD_BYTES_LO_count a n
/-- Stores a byte range and counts it. -/
def storeRange (s : State) (a v n : Nat) (poison : Bool) : State :=
  (s.store (wbytes a v poison n)).stackBytes STK.STK_WR_BYTES_LO_count a n
/-- The same by a unit of the hub. -/
def hubTouch (s : State) (a n : Nat) : State := (s.touchRange a n).crossFabric [(a, n)]
def hubStore (s : State) (a v n : Nat) (poison : Bool) : State := (s.storeRange a v n poison).crossFabric [(a, n)]
/-- The same by a tile's sequencer. -/
def tileTouch (s : State) (t a n : Nat) : State := (s.touchRange a n).crossFrom t [(a, n)]
def tileStore (s : State) (t a v n : Nat) : State := (s.storeRange a v n false).crossFrom t [(a, n)]

/-- Stores bytes that are undefined: free bytes, each eight of them from a free value of its own. -/
def freeBytes (s : State) (a n : Nat) : State :=
  (List.range ((n + 7) / 8)).foldl
    (fun (s : State) k => (s.store (wbytes (a + 8 * k) s.freeVal false (min 8 (n - 8 * k)))).useFree) s

/-- Leaves byte ranges undefined. -/
def undefine (s : State) (rs : List (Int × Nat)) : State :=
  rs.foldl (fun (s : State) r => s.freeBytes r.1.toNat r.2) s

/-! ### Semaphores (06 R150 to R152) -/

def sem (s : State) (tile n : Nat) : Nat := (sparseGet (fun _ => (0 : Word)) s.seq.sems (tile * 4096 + n)).toNat
def setSem (s : State) (tile n v : Nat) : State :=
  { s with seq := { s.seq with sems := sparsePut (fun _ => 0) (tile * 4096 + n) (BitVec.ofNat 32 v) s.seq.sems } }
/-- Applies a signal to a semaphore: ADD or SET (06 R152). -/
def signalSem (s : State) (tile n : Nat) (set : Bool) (v : Nat) : State :=
  s.setSem tile n (if set then v else s.sem tile n + v)

end State

end Sys2Proof.Machine
end

