-- ==== Sys2Proof/Machine/Random.lean ====
section
/-!
DEFINITION. Philox-4×32-10 and the module's counters (08 R202, R203, R205).
-/
namespace Sys2Proof.Machine

/-- The four words of a Philox block. -/
structure PhiloxBlock where
  x0 : Nat
  x1 : Nat
  x2 : Nat
  x3 : Nat
  deriving DecidableEq, Repr

/-- One round under the round key. -/
def philoxRound (k0 k1 : Nat) (x : PhiloxBlock) : PhiloxBlock :=
  let p0 := 0xD2511F53 * x.x0
  let p1 := 0xCD9E8D57 * x.x2
  ⟨Nat.xor (Nat.xor (p1 / 2 ^ 32) x.x1) k0, p1 % 2 ^ 32, Nat.xor (Nat.xor (p0 / 2 ^ 32) x.x3) k1, p0 % 2 ^ 32⟩

/-- `n` rounds, the key bumped between rounds. -/
def philoxRounds : Nat → Nat → Nat → PhiloxBlock → PhiloxBlock
  | 0, _, _, x => x
  | n + 1, k0, k1, x =>
    philoxRounds n ((k0 + 0x9E3779B9) % 2 ^ 32) ((k1 + 0xBB67AE85) % 2 ^ 32) (philoxRound k0 k1 x)

/-- Philox-4×32-10 (08 R202). -/
def philox (key ctr : Nat) : PhiloxBlock :=
  philoxRounds 10 (key % 2 ^ 32) (key / 2 ^ 32 % 2 ^ 32)
    ⟨natBits ctr 0 32, natBits ctr 32 32, natBits ctr 64 32, natBits ctr 96 32⟩

/-- The module's counter (08 R203). -/
def philoxCtr (stream step index : Nat) : Nat :=
  stream % 2 ^ 16 * 2 ^ 112 + step % 2 ^ 32 * 2 ^ 80 + index % 2 ^ 64 * 2 ^ 16

/-- A tile's job key. -/
def State.jobKey (s : State) (tile : Nat) : Nat := s.pair (pageNum .rng tile) RNG.JOB_KEY_LO_key

end Sys2Proof.Machine
end

