-- ==== Sys2Proof/Machine/Flags.lean ====
section
/-!
DEFINITION. Conversions and the flags and counts they raise: the CVT word, rounding once to a target, conversion
events, the sticky flag word, and the watcher's classes (02 R45 to R59, 07 R184, 08 R218).
-/
namespace Sys2Proof.Machine

/-! ### Formats (02 R31) -/

/-- The floating format of an element format code; W16 has the code layout of FP16. -/
def fmtFloat : Nat → Option FloatFmt
  | 1 => some fp16Fmt
  | 2 => some fp32Fmt
  | 3 => some m48Fmt
  | 4 => some bin64Fmt
  | 5 => some w8Fmt
  | 6 => some fp16Fmt
  | _ => none

/-- Bytes of one element. -/
def fmtSize : Nat → Nat
  | 1 => 2 | 2 => 4 | 3 => 6 | 4 => 8 | 5 => 1 | 6 => 2 | 7 => 96 | _ => 1
/-- Base alignment in bytes. -/
def fmtAlign : Nat → Nat
  | 1 => 2 | 2 => 4 | 3 => 2 | 4 => 8 | 5 => 1 | 6 => 2 | 7 => 8 | _ => 1
/-- A format code that the table lists. -/
def fmtKnown (f : Nat) : Bool := decide (1 ≤ f) && decide (f ≤ 7)
/-- The wire formats. -/
def fmtWire (f : Nat) : Bool := decide (f = 5) || decide (f = 6)

/-- The value of an element's code; a wire code is scaled by its block's exponent (02 R41). -/
def decodeFmt (fmt : Nat) (scale : Int) (code : Nat) : Val :=
  match fmtFloat fmt with
  | some f => if fmtWire fmt then (f.decode code).scale2 scale else f.decode code
  | none => .nan

/-! ### The CVT word (02 R45) -/

structure Cvt where
  stream : Nat
  rnd    : Bool
  ieee   : Bool
  deriving DecidableEq, Repr

def Cvt.ofWord (w : Nat) : Cvt := ⟨natBits w 0 16, natBits w 16 1 == 1, natBits w 17 1 == 1⟩

/-- The rounding of one element under a CVT word: its random word is word 0 of the block at its logical position
(08 R205). -/
def Cvt.mode (c : Cvt) (key step pos : Nat) : Rnd :=
  if c.rnd then .sr (philox key (philoxCtr c.stream step pos)).x0 else .rne

/-! ### One conversion -/

/-- A converted element: its code and the conversion events it raised (02 R57). -/
structure Conv where
  code : Nat
  invalid   : Bool
  overflow  : Bool
  underflow : Bool
  saturated : Bool
  deriving DecidableEq, Repr

/-- Whether a code of a format is subnormal or zero. -/
def FloatFmt.small (f : FloatFmt) (code : Nat) : Bool := natBits code f.fbits f.ebits == 0

/-- Converts a value to a floating format: NaN, Inf and zero rules, one rounding, and the range rules; `ieee` is CVT.ovf
for a target that keeps it (02 R50 to R56). -/
def FloatFmt.convert (f : FloatFmt) (m : Rnd) (ieee : Bool) (v : Val) : Conv :=
  match v with
  | .nan => ⟨f.nanCode, false, false, false, false⟩
  | .inf neg => if f.hasInf then ⟨f.signOf neg + f.infCode, false, false, false, false⟩
                else ⟨f.nanCode, true, false, false, false⟩
  | .fin neg man exp =>
    let r := f.roundMag m man exp
    if f.overflows r then
      if ieee then ⟨f.signOf neg + f.infCode, false, true, false, false⟩
      else ⟨f.signOf neg + f.maxCode, false, false, false, true⟩
    else ⟨f.signOf neg + f.magCode r, false, false, r.inexact && f.small (f.magCode r), false⟩

/-- Converts a value to an element format; a wire target divides by its block's scale first, and only FP16, FP32 and
BIN64 follow CVT.ovf (02 R52, R59). -/
def convertFmt (fmt : Nat) (scale : Int) (m : Rnd) (ieee : Bool) (v : Val) : Conv :=
  match fmtFloat fmt with
  | some f =>
    f.convert m (ieee && (decide (fmt = 1) || decide (fmt = 2) || decide (fmt = 4)))
      (if fmtWire fmt then v.scale2 (-scale) else v)
  | none => ⟨0, false, false, false, false⟩

/-! ### Sticky flags (07 R184) -/

def flagInvalid : Nat := 1
def flagOverflow : Nat := 2
def flagUnderflow : Nat := 4
def flagSaturation : Nat := 8
def flagPoison : Nat := 16
def flagDivzero : Nat := 32

def bitIf (b : Bool) (n : Nat) : Nat := if b then n else 0

/-- The flag bits of a conversion. -/
def Conv.flags (c : Conv) : Nat :=
  bitIf c.invalid flagInvalid + bitIf c.overflow flagOverflow + bitIf c.underflow flagUnderflow +
    bitIf c.saturated flagSaturation

/-- The sticky flag word: the OR of the flags of each vector, and the first vector in which any arose (07 R184). -/
def stickyWord (perVec : List Nat) : Nat :=
  let all := perVec.foldl Nat.lor 0
  let first := min 0xFFFF (perVec.findIdx (fun f => f != 0))
  if all = 0 then 0 else all + first * 2 ^ 16

/-! ### Watcher classes (08 R218) -/

/-- The class of a written element: 2 saturations, 3 nan, 4 inf, 5 subnormals, 1 zeros, 0 none. -/
def watchClass (fmt : Nat) (c : Conv) (satEarlier : Bool) : Nat :=
  match fmtFloat fmt with
  | none => 0
  | some f =>
    if c.saturated || satEarlier then 2
    else
      match f.decode c.code with
      | .nan => 3
      | .inf _ => 4
      | .fin _ 0 _ => 1
      | .fin .. => if f.small c.code then 5 else 0

/-- Adds one element of a class to the six counts, each holding at 2^48 − 1. -/
def addClass (counts : List Nat) (cls : Nat) : List Nat :=
  (List.range 6).map fun i =>
    let n := counts.getD i 0
    if i = 0 ∨ (cls ≠ 0 ∧ i = cls) then min (2 ^ 48 - 1) (n + 1) else n

def watchZero : List Nat := [0, 0, 0, 0, 0, 0]

namespace State

/-- The watcher counts of a slot on a tile. -/
def watchOf (s : State) (tile slot : Nat) : List Nat :=
  sparseGet (fun _ => watchZero) s.scale.watch (tile * 4096 + slot)
def setWatch (s : State) (tile slot : Nat) (c : List Nat) : State :=
  { s with scale := { s.scale with watch := sparsePut (fun _ => watchZero) (tile * 4096 + slot) c s.scale.watch } }

/-- Counts a list of element classes into a slot; a count that reaches its limit raises WATCH.PAGE_EVT.sat. -/
def watchAdd (s : State) (tile slot : Nat) (classes : List Nat) : State :=
  let old := s.watchOf tile slot
  let new := classes.foldl addClass old
  let s := s.setWatch tile slot new
  if (List.range 6).any (fun i => decide (old.getD i 0 < 2 ^ 48 - 1) && decide (new.getD i 0 = 2 ^ 48 - 1)) then
    s.event .watch tile WATCH.PAGE_EVT_sat
  else s

end State

/-! ### Tensor slots (08 R213, R214) -/

def slotReset : Slot := ⟨List.replicate 16 0, 15, 0x46FFE000, 0, 0⟩

namespace State

def slotOf (s : State) (tile slot : Nat) : Slot := sparseGet (fun _ => slotReset) s.scale.slots (tile * 4096 + slot)
def setSlot (s : State) (tile slot : Nat) (x : Slot) : State :=
  { s with scale := { s.scale with slots := sparsePut (fun _ => slotReset) (tile * 4096 + slot) x s.scale.slots } }

end State

/-- Rounds a magnitude toward +∞ to binary32 (03 R88); beyond the largest finite value it is +Inf. -/
def ceil32 (man : Nat) (exp : Int) : Nat :=
  if man = 0 then 0
  else
    let e := fp32Fmt.lastPlace man exp
    let r : Rounded :=
      if e ≤ exp then ⟨man * 2 ^ (exp - e).toNat, e, false⟩
      else
        let d := (e - exp).toNat
        ⟨man / 2 ^ d + (if man % 2 ^ d = 0 then 0 else 1), e, decide (man % 2 ^ d ≠ 0)⟩
    if fp32Fmt.overflows r then fp32Fmt.infCode else fp32Fmt.magCode r

/-- The amax of a source: its magnitude rounded up, or +0 for a NaN or Inf, which take no part. -/
def amaxOf : Val → Nat
  | .fin _ m e => ceil32 m e
  | _ => 0

/-- The larger of two nonnegative binary32 codes. -/
def maxCode32 (a b : Nat) : Nat := max a b

namespace State

/-- Merges an amax into a slot's accumulator (08 R214). -/
def mergeAmax (s : State) (tile slot a : Nat) : State :=
  let x := s.slotOf tile slot
  s.setSlot tile slot { x with amax := maxCode32 x.amax a }

end State

end Sys2Proof.Machine
end

