-- ==== Sys2Proof/Machine/Operands.lean ====
section
/-!
DEFINITION. Every operand form: tensor descriptors and windows as read from memory, the addresses and logical positions
of their elements, elements and masks as read and written (06 R163 to R166, 07 R172 to R175).
-/
namespace Sys2Proof.Machine

/-! ### Tensor descriptors (06 R163, R164) -/

/-- A tensor descriptor's 64 bytes with an occurrence's iteration indices. -/
def Tensor.ofBits (w : Nat) (its : List Nat) : Tensor :=
  let it (l : Nat) : Int := (its.getD l 0 : Nat)
  let advA : Int := if natBits w 82 1 = 1 then signedOf 32 (natBits w 448 32) * it (natBits w 80 2) else 0
  let advB : Int := if natBits w 85 1 = 1 then signedOf 32 (natBits w 480 32) * it (natBits w 83 2) else 0
  { base := natBits w 0 48, fmt := natBits w 48 4, rank := natBits w 52 3, slotEn := natBits w 56 1 == 1,
    slot := natBits w 64 12,
    lens := [natBits w 96 24, natBits w 120 24, natBits w 144 24, natBits w 168 24, natBits w 192 24],
    strides := [signedOf 32 (natBits w 224 32), signedOf 32 (natBits w 256 32), signedOf 32 (natBits w 288 32),
      signedOf 32 (natBits w 320 32), signedOf 32 (natBits w 352 32)],
    origin := natBits w 384 40, plen := natBits w 424 24, adv := advA + advB }

def Tensor.size (t : Tensor) : Nat := fmtSize t.fmt
/-- The dimensions below rank, as (length, stride). -/
def Tensor.dims (t : Tensor) : List (Nat × Int) := ((t.lens.map (· + 1)).zip t.strides).take t.rank
/-- Lengths of the dimensions below rank. -/
def Tensor.lengths (t : Tensor) : List Nat := t.dims.map (·.1)
/-- The number of elements. -/
def Tensor.count (t : Tensor) : Nat := t.lengths.foldl (· * ·) 1

/-- Every offset Σ i_d × stride_d, dimension 0 fastest. -/
def offsets : List (Nat × Int) → List Int
  | [] => [0]
  | (n, st) :: r => (offsets r).flatMap fun o => (List.range n).map fun (i : Nat) => o + (i : Int) * st

/-- Σ i_d × stride_d of one index. -/
def offsetOf : List (Nat × Int) → List Nat → Int
  | (_, st) :: r, i :: is => i * st + offsetOf r is
  | _, _ => 0

/-- The byte address of an element (06 R164). -/
def Tensor.addrI (t : Tensor) (idx : List Nat) : Int := t.base + t.size * (t.adv + offsetOf t.dims idx)
def Tensor.addr (t : Tensor) (idx : List Nat) : Nat := (t.addrI idx).toNat
/-- Every element's byte address, dimension 0 fastest. -/
def Tensor.addrs (t : Tensor) : List Int := (offsets t.dims).map fun o => t.base + t.size * (t.adv + o)

/-- First addresses and sizes of a tensor's elements, and of a NORM record (08 R220). -/
def elemBytes : Option Tensor → List (Int × Nat)
  | some t => t.addrs.map fun a => (a, t.size)
  | none => []
def normBytes : Option Tensor → List (Int × Nat)
  | some t => [(t.addrs.headD 0, 96)]
  | none => []

/-- The strides of the logical positions: 1, P, P·L1, … (06 R165). -/
def Tensor.posDims (t : Tensor) : List (Nat × Int) :=
  let l (d : Nat) : Nat := t.lens.getD d 0 + 1
  let p : Nat := if t.plen = 0 then l 0 else t.plen
  let st : List Int := [1, (p : Int), (p * l 1 : Nat), (p * l 1 * l 2 : Nat), (p * l 1 * l 2 * l 3 : Nat)]
  ((t.lens.map (· + 1)).zip st).take t.rank
/-- An element's logical position, as a 64-bit index. -/
def Tensor.pos (t : Tensor) (idx : List Nat) : Nat := codeOf 64 (t.origin + t.adv + offsetOf t.posDims idx)
/-- Every element's logical position, dimension 0 fastest. -/
def Tensor.positions (t : Tensor) : List Nat :=
  (offsets t.posDims).map fun o => codeOf 64 (t.origin + t.adv + o)

/-- The least and greatest offset of the dimensions. -/
def minOffset : List (Nat × Int) → Int
  | [] => 0
  | (n, st) :: r => min 0 ((n - 1 : Nat) * st) + minOffset r
def maxOffset : List (Nat × Int) → Int
  | [] => 0
  | (n, st) :: r => max 0 ((n - 1 : Nat) * st) + maxOffset r

/-- A byte range, first to last. -/
structure ByteRange where
  first : Int
  last  : Int
  deriving DecidableEq, Repr

def ByteRange.meets (a b : ByteRange) : Bool := decide (a.first ≤ b.last) && decide (b.first ≤ a.last)
def ByteRange.ofLen (a n : Nat) : ByteRange := ⟨a, (a : Int) + n - 1⟩

/-- From a tensor's first byte to its last (03 R64). -/
def Tensor.range (t : Tensor) : ByteRange :=
  ⟨t.base + t.size * (t.adv + minOffset t.dims), t.base + t.size * (t.adv + maxOffset t.dims) + t.size - 1⟩

/-- Whether an address that a descriptor computes is populated memory (01 R25). -/
def memAt (m : Member) (a : Int) : Bool := decide (0 ≤ a) && isMem m a.toNat
/-- Whether an address lies in a tile's understory. -/
def localAt (tile : Nat) (a : Int) : Bool :=
  decide ((understoryBase tile : Int) ≤ a) && decide (a < (understoryBase tile : Int) + 0x80000000)

/-- Whether every byte of every element is populated memory. -/
def Tensor.populated (m : Member) (t : Tensor) : Bool :=
  t.addrs.all fun a => memAt m a && memAt m (a + t.size - 1)
def Tensor.isLocal (tile : Nat) (t : Tensor) : Bool :=
  t.addrs.all fun a => localAt tile a && localAt tile (a + t.size - 1)

/-- Insertion by increasing |stride|. -/
def insertStride (d : Nat × Int) : List (Nat × Int) → List (Nat × Int)
  | [] => [d]
  | e :: r => if d.2.natAbs ≤ e.2.natAbs then d :: e :: r else e :: insertStride d r
def sortStrides (l : List (Nat × Int)) : List (Nat × Int) := l.foldr insertStride []

/-- Each |stride| is at least 1 + Σ len × |stride| over the dimensions before it. -/
def strideSteps : Nat → List (Nat × Int) → Bool
  | _, [] => true
  | acc, (n, st) :: r => decide (1 + acc ≤ st.natAbs) && strideSteps (acc + (n - 1) * st.natAbs) r

/-- The aliasing test of 06 R166: true when no two elements can alias. -/
def noAlias (dims : List (Nat × Int)) : Bool :=
  strideSteps 0 (sortStrides (dims.filter fun d => decide (1 < d.1)))

/-! ### Windows (07 R172 to R174) -/

def Window.ofBits (w : Nat) : Window :=
  { base := natBits w 0 48, fmt := natBits w 48 4, slotEn := natBits w 52 1 == 1, amaxEn := natBits w 53 1 == 1,
    bcast := natBits w 54 4, slot := natBits w 64 12, estride := signedOf 32 (natBits w 96 32),
    vstride := signedOf 32 (natBits w 128 32), origin := natBits w 160 40 }

/-- The first byte of a mask that a tensor descriptor names: its base and advance in bits (08 R208). -/
def Tensor.maskFirst (t : Tensor) : Nat := ((8 * (t.base : Int) + t.adv) / 8).toNat

def Window.size (w : Window) : Nat := fmtSize w.fmt
/-- Element `j` of vector `v` (07 R173). -/
def Window.addrI (w : Window) (v j : Nat) : Int :=
  w.base + w.size * (w.vstride * v + w.estride * (j / 2 ^ w.bcast : Nat))
def Window.addr (w : Window) (v j : Nat) : Nat := (w.addrI v j).toNat
def Window.pos (w : Window) (v j : Nat) : Nat := w.origin + 1024 * v + j
/-- The byte of bit `j` of mask `v` (07 R174). -/
def Window.maskByteI (w : Window) (v j : Nat) : Int := w.base + 128 * w.vstride * v + (j / 8 : Nat)
def Window.maskByte (w : Window) (v j : Nat) : Nat := (w.maskByteI v j).toNat

/-- First to last byte of a window's elements over vectors 0 to `count`. -/
def Window.range (w : Window) (count : Nat) : ByteRange :=
  let dims : List (Nat × Int) := [((1023 / 2 ^ w.bcast) + 1, w.estride), (count + 1, w.vstride)]
  ⟨w.base + w.size * minOffset dims, w.base + w.size * maxOffset dims + w.size - 1⟩
def Window.maskRange (w : Window) (count : Nat) : ByteRange :=
  let dims : List (Nat × Int) := [(count + 1, w.vstride)]
  ⟨w.base + 128 * minOffset dims, w.base + 128 * maxOffset dims + 127⟩

/-- Every element address of a window over vectors 0 to `count`. -/
def Window.addrs (w : Window) (count : Nat) : List Int :=
  (List.range (count + 1)).flatMap fun v => (List.range 1024).map fun j => w.addrI v j
def Window.maskBytes (w : Window) (count : Nat) : List Int :=
  (List.range (count + 1)).flatMap fun v => (List.range 128).map fun b => w.maskByteI v (8 * b)

/-! ### Elements and masks -/

/-- A value read, and whether the word it lies in is poisoned (03 R93). -/
structure Elem where
  val : Val
  poison : Bool
  deriving DecidableEq, Repr

/-- The code of an element at an address. -/
def MemSt.code (m : MemSt) (fmt a : Nat) : Nat := m.readN a (fmtSize fmt)
/-- The element at an address. -/
def MemSt.elem (m : MemSt) (fmt a : Nat) : Elem := ⟨decodeFmt fmt 0 (m.code fmt a), m.poisonedN a (fmtSize fmt)⟩
/-- A bit of a mask byte, and its poison. -/
def MemSt.bit (m : MemSt) (a j : Nat) : Bool := natBits (m.readByte a) (j % 8) 1 == 1

/-- An element to be written. -/
structure WElem where
  addr : Nat
  size : Nat
  code : Nat
  poison : Bool
  deriving DecidableEq, Repr

def WElem.bytes (e : WElem) : List WByte := wbytes e.addr e.code e.poison e.size
def wElems (es : List WElem) : List WByte := es.flatMap WElem.bytes

/-- The words that elements at these addresses touch, each once. -/
def elemWords (size : Nat) (as : List Nat) : List Nat := dedup (as.flatMap fun a => wordsOf a size)

/-! ### Effects of reads -/

/-- The effects of the reads of byte ranges (address, length): only a word whose check field differs from the valid one
has any, so the differing words among those read are touched, in rising order (05 R115, R116). -/
def State.touchReads (s : State) (rs : List (Nat × Nat)) : State :=
  s.touch ((s.mem.chk.map fun x => wordOf x.1).filter fun w => rs.any fun r => decide (r.1 < w + 8) && decide (w < r.1 + r.2))

/-! ### Descriptor fields (06 R143, R168) -/

/-- Bits of a descriptor. -/
def dbits (d : BitVec 512) (lo w : Nat) : Nat := natBits d.toNat lo w
def Occ.f (o : Occ) (lo w : Nat) : Nat := dbits o.desc lo w
def Occ.opcode (o : Occ) : Nat := o.f 0 8
def Occ.subop (o : Occ) : Nat := o.f 8 8
/-- A named tensor of an occurrence, by its place in the opcode's list. -/
def Occ.ten (o : Occ) (i : Nat) : Option Tensor := (o.tens.getD i none)
def Occ.win (o : Occ) (i : Nat) : Option Window := (o.wins.getD i none)

/-- The tile's tensor-descriptor table. -/
def State.tdBase (s : State) (tile : Nat) : Nat := s.pair (pageNum .tseq tile) TSEQ.TD_BASE_LO_addr
def State.tdCount (s : State) (tile : Nat) : Nat := s.fget (pageNum .tseq tile) TSEQ.TD_COUNT_entries
/-- The tile's window table. -/
def State.winBase (s : State) (tile : Nat) : Nat := s.pair (pageNum .ve tile) VE.WIN_BASE_LO_addr

end Sys2Proof.Machine
end

