-- ==== Sys2Proof/Machine/Func.lean ====
section
/-!
DEFINITION. Lane arithmetic with its flags: the exact class, binary64 steps, binary32 rounding, and the function class
(03 R86, R87; 07 R178 to R180, R194, R195).
-/
namespace Sys2Proof.Machine

/-- A lane value with the flags its arithmetic raised, and whether a binary32 rounding saturated. -/
structure LaneVal where
  val : Val
  flags : Nat
  sat : Bool
  deriving DecidableEq, Repr

def LaneVal.pure (v : Val) : LaneVal := ⟨v, 0, false⟩

/-- invalid, when a NaN came of operands that are none (07 R180, R184). -/
def invalidIf (r : Val) (ops : List Val) : Nat := bitIf (r.isNan && !ops.any (fun v => v.isNan)) flagInvalid

/-- The order of MAX, MIN, the largest and smallest reductions and TOPK: −0 below +0 (07 R180, R190, R192). -/
def Val.below (a b : Val) : Bool := a.lt b || (a.isZero && b.isZero && a.neg && !b.neg)

def valMax (a b : Val) : Val := if a.isNan || b.isNan then .nan else if a.below b then b else a
def valMin (a b : Val) : Val := if a.isNan || b.isNan then .nan else if b.below a then b else a

/-- The exact result of an exact-class operation with its flags (07 R178, R180, R186); `b` is the immediate for FILL. -/
def exactOp (op : Nat) (a b c : Val) : LaneVal :=
  match op with
  | 0x01 => ⟨a.add b, invalidIf (a.add b) [a, b], false⟩
  | 0x02 => ⟨a.sub b, invalidIf (a.sub b) [a, b], false⟩
  | 0x03 => ⟨a.mul b, invalidIf (a.mul b) [a, b], false⟩
  | 0x04 => ⟨(a.mul b).add c, invalidIf ((a.mul b).add c) [a, b, c], false⟩
  | 0x05 => ⟨a.div b, invalidIf (a.div b) [a, b] + bitIf (a.isFinite && !a.isZero && b.isZero) flagDivzero, false⟩
  | 0x06 => ⟨a.sqrt, invalidIf a.sqrt [a], false⟩
  | 0x07 => .pure (valMax a b)
  | 0x08 => .pure (valMin a b)
  | 0x09 => .pure a.abs
  | 0x0A => .pure a.negate
  | 0x0D => .pure b
  | _ => .pure a

/-- Rounds to binary64, nearest even, with the flags of lane arithmetic (07 R184, R196). -/
def round64 (v : Val) : LaneVal :=
  match v with
  | .fin neg m e =>
    let c := bin64Fmt.convert .rne true (.fin neg m e)
    ⟨bin64Fmt.decode c.code, c.flags, false⟩
  | v => .pure v

/-- A binary64 operation on two values: exact, then rounded (07 R196). -/
def op64 (f : Val → Val → Val) (a b : Val) : LaneVal :=
  let r := f a b
  let x := round64 r
  ⟨x.val, Nat.lor x.flags (invalidIf r [a, b]), false⟩

def add64f (a b : Val) : LaneVal := op64 Val.add a b
def sub64f (a b : Val) : LaneVal := op64 Val.sub a b
def mul64f (a b : Val) : LaneVal := op64 Val.mul a b
def div64f (a b : Val) : LaneVal :=
  let x := op64 Val.div a b
  ⟨x.val, Nat.lor x.flags (bitIf (a.isFinite && !a.isZero && b.isZero) flagDivzero), false⟩
def sqrt64f (a : Val) : LaneVal :=
  let x := round64 a.sqrt
  ⟨x.val, Nat.lor x.flags (invalidIf a.sqrt [a]), false⟩

/-- Rounds to binary32, nearest even, overflow following CVT.ovf (03 R85 step 4, 07 R179, R196). -/
def round32f (ieee : Bool) (v : Val) : LaneVal :=
  let c := fp32Fmt.convert .rne ieee v
  ⟨fp32Fmt.decode c.code, c.flags, c.saturated⟩

/-! ### The function class -/

/-- What the fixed algorithm answers: its binary32 code in bits 31 to 0, and above it whether the result overflowed,
underflowed, or raises divzero (07 R179; notes/assumptions/12.md). -/
def fnAnswer (ieee : Bool) (n : Nat) (ops : List Val) : LaneVal :=
  let code := natBits n 0 32
  let v := fp32Fmt.decode code
  let extra := bitIf (natBits n 33 1 == 1) flagUnderflow + bitIf (natBits n 34 1 == 1) flagDivzero
  if natBits n 32 1 = 1 then
    if ieee then ⟨.inf v.neg, Nat.lor extra flagOverflow, false⟩
    else ⟨fp32Fmt.decode (fp32Fmt.signOf v.neg + fp32Fmt.maxCode), Nat.lor extra flagSaturation, true⟩
  else ⟨v, Nat.lor extra (invalidIf v ops), false⟩

/-- Whether an answer keeps the stated accuracy: within `n` units in the last place of the exact value, or an overflow
where such a result may overflow, on the exact value's side of 0. -/
def fnKeeps (n : Nat) (x : Val) (w : Nat) : Bool :=
  if natBits w 32 1 = 1 then Approx.mayOverflow n x && (fp32Fmt.decode (natBits w 0 32)).neg == x.neg
  else Approx.near n x (fp32Fmt.decode (natBits w 0 32))

/-- The answer's value where the exact one is known: it overflows as `w` says, and underflows when it is subnormal or 0
without being exact (07 R184). -/
def fnKept (ieee : Bool) (x : Val) (w : Nat) : LaneVal :=
  if natBits w 32 1 = 1 then fnAnswer ieee (w % 2 ^ 33) []
  else
    let v := fp32Fmt.decode (natBits w 0 32)
    ⟨v, bitIf (v.abs.lt (.fin false 1 (-126)) && !v.eqv x) flagUnderflow, false⟩

/-- A function-class result: the fixed algorithm's answer `w`, which is the model's free value, as far as it keeps the
accuracy the spec states; a free value that does not is replaced by the exact value rounded. Where the spec states no
exact value (`none`), the free value itself. -/
def fnResult (ieee : Bool) (n : Nat) (exact : Option Val) (w : Nat) (ops : List Val) : LaneVal :=
  match exact with
  | none => fnAnswer ieee w ops
  | some x => if fnKeeps n x w then fnKept ieee x w else round32f ieee x

/-- The fixed algorithm on binary32 inputs. -/
def fnCall (ieee : Bool) (fn : Nat) (a b : Val) (ops : List Val) : LaneVal :=
  fnResult ieee (Approx.ulps fn) (Approx.exact fn a b) (Config.fnClass fn 32 (fp32Fmt.ofVal a) (fp32Fmt.ofVal b)) ops

/-- The activations of the drain path: their special values, else the algorithm (03 R86). -/
def activation (ieee : Bool) (fn : Nat) (v : Val) : LaneVal :=
  match v with
  | .nan => .pure .nan
  | .inf neg => .pure (if neg then .zero true else .inf false)
  | .fin neg 0 _ => .pure (.zero neg)
  | v => fnCall ieee fn v (.zero false) [v]

/-- ReLU (03 R86). -/
def relu (v : Val) : Val :=
  match v with
  | .nan => .nan
  | v => if v.neg then .zero false else v

/-- 2^(a − b): the difference is rounded to binary32 first, and 2^−Inf is +0, 2^+Inf is +Inf (07 R194). A difference beyond
binary32 becomes an Inf and raises overflow whatever CVT.ovf says (DESIGN CHOICE, notes/assumptions/111.md). -/
def exp2sub (ieee : Bool) (a b : Val) : LaneVal :=
  if a.isNan || b.isNan then .pure .nan
  else if a = .inf true then .pure (.zero false)
  else if a = .inf false ∧ b = .inf false then ⟨.nan, flagInvalid, false⟩
  else if a.isFinite ∧ b = .inf false then .pure (.zero false)
  else
    let d := round32f true (a.sub b)
    match d.val with
    | .inf true => ⟨.zero false, d.flags, false⟩
    | .inf false => ⟨.inf false, d.flags, false⟩
    | x =>
      let r := fnCall ieee 0x11 x (.zero false) [x]
      ⟨r.val, Nat.lor d.flags r.flags, r.sat⟩

/-- The factor of RESCALE_ADD (07 R195 step 1). -/
def rescaleFactor (ieee : Bool) (b c : Val) : LaneVal :=
  if b.eqv c then .pure Val.one else exp2sub ieee b c

/-- RESCALE_ADD to binary32 (07 R195 steps 1 and 2). -/
def rescaleAdd (ieee : Bool) (dst a b c : Val) : LaneVal :=
  let f := rescaleFactor ieee b c
  let x := (dst.mul f.val).add a
  let r := round32f ieee x
  ⟨r.val, Nat.lor (Nat.lor f.flags (invalidIf x [dst, f.val, a])) r.flags, f.sat || r.sat⟩

/-- A function-class operation of the vector engine (07 R179, R186). -/
def functionOp (ieee : Bool) (op : Nat) (dst a b c : Val) : LaneVal :=
  match op with
  | 0x14 | 0x15 => activation ieee op a
  | 0x16 | 0x17 => fnCall ieee op a b [a, b]
  | 0x18 => exp2sub ieee a b
  | 0x19 => rescaleAdd ieee dst a b c
  | _ => fnCall ieee op a (.zero false) [a]

/-- CMP's predicates (07 R186). -/
def cmpPred (pred : Nat) (a b : Val) : Bool :=
  match pred with
  | 0 => a.eqv b
  | 1 => !a.eqv b
  | 2 => a.lt b
  | 3 => a.le b
  | 4 => b.lt a
  | 5 => b.le a
  | 6 => a.isNan || b.isNan
  | _ => a.isFinite

end Sys2Proof.Machine
end

