-- ==== Sys2Proof/Machine/Checks.lean ====
section
/-!
DEFINITION. The checks of step 3 (06 R466) that tensors, windows and the local units' descriptors meet. Each function
follows the order of R466: the first check that fails decides.
-/
namespace Sys2Proof.Machine

/-! ### Status codes (06 R167) -/

def stOk : Nat := 0x00
def stGated : Nat := 0x01
def stNoUnit : Nat := 0x02
def stNoPeer : Nat := 0x03
def stBadOpcode : Nat := 0x08
def stBadAddr : Nat := 0x09
def stBadFormat : Nat := 0x0A
def stBadAlign : Nat := 0x0B
def stBadGeom : Nat := 0x0C
def stBadOverlap : Nat := 0x0D
def stNotLocal : Nat := 0x0E
def stBadScale : Nat := 0x0F
def stBadTd : Nat := 0x10
def stBadSem : Nat := 0x11
def stBadRepeat : Nat := 0x12
def stDescPoison : Nat := 0x13
def stAborted : Nat := 0x18

/-- The opcodes (06 R144). -/
def opKnown (o : Nat) : Bool :=
  [0x00, 0x01, 0x02, 0x03, 0x08, 0x09, 0x0A, 0x0B, 0x10, 0x18, 0x19, 0x1A, 0x20, 0x21, 0x28, 0x29, 0x2A, 0x30].contains o

/-- The first failing row of a list of checks in order, as its status; 0 when all pass. -/
def firstBad : List (Bool × Nat) → Nat
  | [] => 0
  | (bad, code) :: r => if bad then code else firstBad r

/-- What the checks answer: a status (0 passes), whether a poisoned table entry was read, and what the occurrence keeps
from step 3. -/
structure CheckOut where
  code : Nat
  poison : Bool
  tens : List (Option Tensor)
  wins : List (Option Window)
  step : Nat
  exps : List Int
  aux  : List Nat
  deriving DecidableEq, Repr

def CheckOut.fail (code : Nat) : CheckOut := ⟨code, false, [], [], 0, [], []⟩

/-! ### Protected ranges (06 R163, 07 R172) -/

/-- A queue's registers. -/
def qfd (f : Fd) (q : Nat) : Fd := f.plus (0x40 * q)

namespace State

def queueOf (s : State) (t q : Nat) : QueueSt := sparseGet (fun _ => ⟨[], 0, [], none, false⟩) s.seq.queues (8 * t + q)
def setQueue (s : State) (t q : Nat) (x : QueueSt) : State :=
  { s with seq := { s.seq with queues := sparsePut (fun _ => ⟨[], 0, [], none, false⟩) (8 * t + q) x s.seq.queues } }

def qEnabled (s : State) (t q : Nat) : Bool := s.flag (pageNum .tseq t) (qfd TSEQ.Q_CTRL_enable q)
def qSlots (s : State) (t q : Nat) : Nat := 2 ^ s.fget (pageNum .tseq t) (qfd TSEQ.Q_CTRL_size_log2 q)
def qBase (s : State) (t q : Nat) : Nat := s.pair (pageNum .tseq t) (qfd ⟨0x100, 0, 32⟩ q)
def qSBase (s : State) (t q : Nat) : Nat := s.pair (pageNum .tseq t) (qfd ⟨0x108, 0, 32⟩ q)

/-- An occurrence that was dispatched and awaits completion; a REPEAT itself never counts (06 R149). -/
def awaiting (_ : State) (o : Occ) : Bool := !(decide (o.opcode = 0x30))

/-- Q_STAT.idle (06 R139): no dispatched descriptor of the queue awaits completion and, while the queue is enabled, none
is fetched. -/
def qIdle (s : State) (t q : Nat) : Bool :=
  !(s.seq.occs.any fun o => decide (o.tile = t) && decide (o.queue = q) && s.awaiting o) &&
    (!s.qEnabled t q || (s.queueOf t q).fetched.isEmpty)

/-- Whether a range lies wholly in the populated part of one stack window. -/
def inStack (s : State) (a n : Nat) : Bool :=
  match region s.member a, region s.member (a + (n - 1)) with
  | .stack j _, .stack k _ => decide (j = k)
  | _, _ => false

/-- A ring of a queue, where it lies as R137 asks; elsewhere the registers place none (notes/assumptions/22.md). -/
def ringAt (s : State) (a n : Nat) : List ByteRange := if s.inStack a n then [ByteRange.ofLen a n] else []

/-- Every tile's descriptor rings and status rings (06 R163), of queues enabled or not. -/
def rings (s : State) : List ByteRange :=
  (List.range (Member.tiles s.member)).flatMap fun t => (List.range 8).flatMap fun q =>
    s.ringAt (s.qBase t q) (64 * s.qSlots t q) ++ s.ringAt (s.qSBase t q) (16 * s.qSlots t q)

/-- What no descriptor of a tile may write: its tensor-descriptor and window tables, and any tile's rings. -/
def guarded (s : State) (tile : Nat) : List ByteRange :=
  (if s.tdCount tile = 0 then [] else [ByteRange.ofLen (s.tdBase tile) (64 * s.tdCount tile)]) ++
    [ByteRange.ofLen (s.winBase tile) 2048] ++ s.rings

def clash (s : State) (tile : Nat) (r : ByteRange) : Bool := (s.guarded tile).any fun g => g.meets r

end State

/-! ### Tensors -/

/-- Which bytes of a tensor its opcode touches: its elements, `n` bytes from its base whatever its shape, or `n` mask
bits from its base and advance. -/
inductive Extent where
  | elems
  | raw (n : Nat)
  | bits
  deriving DecidableEq, Repr

/-- A tensor a descriptor names: its index, its extent, the formats of its role (none: the format is ignored), whether
it must be local to the tile, and whether it is written. -/
structure Role where
  td  : Nat
  ext : Extent
  fmts : List Nat
  loc : Bool
  wr  : Bool
  deriving DecidableEq, Repr

/-- The range an extent covers. -/
def extentRange (t : Tensor) : Extent → ByteRange
  | .elems => t.range
  | .raw n => ByteRange.ofLen t.base n
  | .bits => ⟨t.base + t.adv / 8, t.base + (t.adv + t.lens.getD 0 0) / 8⟩

/-- Whether every byte of an extent satisfies a test of addresses. -/
def extentAll (t : Tensor) (p : Int → Bool) : Extent → Bool
  | .elems => t.addrs.all fun a => p a && p (a + t.size - 1)
  | .raw n => decide (n = 0) || (p t.base && p (t.base + n - 1))
  | .bits =>
    let r := extentRange t .bits
    p r.first && p r.last

/-- The address of a tensor-table entry. -/
def State.tdEntry (s : State) (tile td : Nat) : Nat := s.tdBase tile + 64 * td

/-- Whether a table entry cannot be read: index at or above the count, in a hole, or poisoned (06 R162). -/
def State.tdBad (s : State) (tile td : Nat) : Bool :=
  decide (s.tdCount tile ≤ td) || !memRange s.member (s.tdEntry tile td) 64 || s.mem.poisonedN (s.tdEntry tile td) 64
def State.tdPoison (s : State) (tile td : Nat) : Bool :=
  decide (td < s.tdCount tile) && memRange s.member (s.tdEntry tile td) 64 && s.mem.poisonedN (s.tdEntry tile td) 64
/-- The tensor of a table entry for an occurrence's indices. -/
def State.tensor (s : State) (tile td : Nat) (its : List Nat) : Tensor :=
  Tensor.ofBits (s.mem.readN (s.tdEntry tile td) 64) its

/-- The named tensors with their roles. -/
abbrev Named := List (Role × Tensor)

def anyNamed (ns : Named) (p : Role → Tensor → Bool) : Bool := ns.any fun x => p x.1 x.2

/-- Rows 9 to 14 and the aliasing test of 16 for tensors (06 R166). -/
def rankBad (ns : Named) : Bool := anyNamed ns fun _ t => decide (t.rank < 1) || decide (5 < t.rank)
def reservedFmt (ns : Named) : Bool := anyNamed ns fun r t => !r.fmts.isEmpty && !fmtKnown t.fmt
def State.addrBad (s : State) (tile : Nat) (ns : Named) : Bool :=
  anyNamed ns fun r t =>
    !extentAll t (fun a => memAt s.member a) r.ext || (r.wr && s.clash tile (extentRange t r.ext))
def localBad (tile : Nat) (ns : Named) : Bool :=
  anyNamed ns fun r t => r.loc && !extentAll t (fun a => localAt tile a) r.ext
def roleFmtBad (ns : Named) : Bool := anyNamed ns fun r t => !r.fmts.isEmpty && !r.fmts.contains t.fmt
def alignBad (ns : Named) : Bool :=
  anyNamed ns fun r t => !r.fmts.isEmpty && decide (t.base % fmtAlign t.fmt ≠ 0)
def aliasBad (ns : Named) : Bool :=
  anyNamed ns fun r t => r.wr && decide (r.ext = .elems) && !noAlias t.dims

def rangesOf (ns : Named) (p : Role → Bool) : List ByteRange :=
  (ns.filter fun x => p x.1).map fun x => extentRange x.2 x.1.ext

/-- Reads the roles' entries. -/
def State.named (s : State) (tile : Nat) (its : List Nat) (rs : List Role) : Named :=
  rs.map fun r => (r, s.tensor tile r.td its)

/-- Row 8 over the roles. -/
def State.tdsBad (s : State) (tile : Nat) (rs : List Role) : Bool := rs.any fun r => s.tdBad tile r.td
def State.tdsPoison (s : State) (tile : Nat) (rs : List Role) : Bool :=
  match rs.find? fun r => s.tdBad tile r.td with
  | some r => s.tdPoison tile r.td
  | none => false

/-- Rows 8 to 14 for the named tensors of a list of roles, in order. -/
def State.rowsOf (s : State) (tile : Nat) (rs : List Role) (ns : Named) : List (Bool × Nat) :=
  [(s.tdsBad tile rs, stBadTd), (rankBad ns, stBadGeom), (reservedFmt ns, stBadFormat),
    (s.addrBad tile ns, stBadAddr), (localBad tile ns, stNotLocal), (roleFmtBad ns, stBadFormat),
    (alignBad ns, stBadAlign)]

/-- Rows 8 to 14 for a list of roles. -/
def State.tensorRows (s : State) (tile : Nat) (its : List Nat) (rs : List Role) : List (Bool × Nat) :=
  s.rowsOf tile rs (s.named tile its rs)

/-- A required tensor named as 0xFFFF (06 R168). -/
def noTensor (td : Nat) : Bool := decide (td = 0xFFFF)

/-- The tensor of a role, where it is named. -/
def State.optTensor (s : State) (tile : Nat) (its : List Nat) (td : Nat) : Option Tensor :=
  if td = 0xFFFF then none else some (s.tensor tile td its)

/-! ### MATMUL and DRAIN (03 R60 to R64, R84, R217) -/

/-- DRN fields. -/
def drnAct (w : Nat) : Nat := natBits w 11 3
def drnBias (w : Nat) : Bool := natBits w 10 1 == 1
def drnUseOut (w : Nat) : Bool := natBits w 8 1 == 1
def drnUseIn (w : Nat) : Bool := natBits w 9 1 == 1
def drnAmax (w : Nat) : Bool := natBits w 14 1 == 1
def drnWatch (w : Nat) : Bool := natBits w 15 1 == 1
def drnKeep (w : Nat) : Bool := natBits w 16 1 == 1

def fmtsMul : List Nat := [1, 2]
def fmtsOut : List Nat := [1, 2, 3, 4]

/-- The exponent a drain takes from a tensor's slot: 0 unless slot_en (03 R85). -/
def State.slotExp (s : State) (tile : Nat) : Option Tensor → Int
  | some t => if t.slotEn then (s.slotOf tile t.slot).exp else 0
  | none => 0

/-- The scale exponent s of 03 R85 step 2. -/
def State.drainScale (s : State) (tile drn : Nat) (out a b : Option Tensor) : Int :=
  signedOf 8 (natBits drn 0 8) + (if drnUseOut drn then s.slotExp tile out else 0) -
    (if drnUseIn drn then s.slotExp tile a + s.slotExp tile b else 0)

/-- A tensor's lengths, where it is named. -/
def lensOf : Option Tensor → List Nat
  | some t => t.lengths
  | none => []

def teEnabled (s : State) (tile e : Nat) : Bool := s.flag (pageNum .te (4 * tile + e)) TE.PAGE_CTRL_enable

/-- The engines a MATMUL or DRAIN names. -/
def matmulEngines (d : BitVec 512) : List Nat := if dbits d 308 1 = 1 then [0, 1, 2, 3] else [dbits d 312 4]

/-- The role of a tensor that may be left out: named, or required by the DRN word (06 R166, R168). -/
def optRole (td : Nat) (needed : Bool) (fmts : List Nat) (wr : Bool) : List Role :=
  if needed || !noTensor td then [⟨td, .elems, fmts, true, wr⟩] else []

/-- A vector tensor, named or required, whose lengths are not the one that its role asks for (03 R63). -/
def vecLenBad (td : Nat) (needed : Bool) (t : Option Tensor) (len : Nat) : Bool :=
  (needed || !noTensor td) && decide (lensOf t ≠ [len])

/-- The ranges of the tensors of some roles. -/
def State.roleRanges (s : State) (tile : Nat) (its : List Nat) (rs : List Role) : List ByteRange :=
  rs.map fun r => (s.tensor tile r.td its).range

def checkMatmul (s : State) (tile : Nat) (d : BitVec 512) (its : List Nat) : CheckOut :=
  let quad := dbits d 308 1 == 1
  let eng := dbits d 312 4
  let drained := decide (2 ≤ dbits d 306 2)
  let drn := if drained then dbits d 320 32 else 0
  let a := dbits d 192 16
  let b := dbits d 208 16
  let tot := dbits d 224 16
  let out := if drained then dbits d 240 16 else 0xFFFF
  let bias := dbits d 256 16
  let attn := decide (drnAct drn = 4)
  let am := dbits d 272 16
  let ap := dbits d 288 16
  let ins := [Role.mk a .elems fmtsMul true false, ⟨b, .elems, fmtsMul, true, false⟩, ⟨tot, .elems, [4], true, true⟩] ++
    optRole bias (drnBias drn) [1, 2, 4] false ++ optRole am attn [2] attn ++ optRole ap attn [2] attn
  let outs := if drained then [Role.mk out .elems fmtsOut true true] else []
  let rs := ins ++ outs
  let t (td : Nat) := s.optTensor tile its td
  let la := lensOf (t a)
  let lb := lensOf (t b)
  let lt := lensOf (t tot)
  let n := lt.getD 0 0
  let m := lt.getD 1 0
  let ns := s.named tile its rs
  let meet (xs ys : List Role) : Bool :=
    (s.roleRanges tile its xs).any fun x => (s.roleRanges tile its ys).any fun y => x.meets y
  let code := firstBad ([
    ((!quad && decide (3 < eng)) || (quad && decide (eng ≠ 0xF)), stBadGeom),
    ((matmulEngines d).any (fun e => !teEnabled s tile e), stNoUnit),
    (decide (4 < drnAct drn), stBadFormat),
    (rs.any (fun r => noTensor r.td), stBadGeom)] ++ s.tensorRows tile its rs ++ [
    (decide (la.length ≠ 2) || decide (lb.length ≠ 2) || decide (lt.length ≠ 2) ||
      decide (la.getD 0 0 ≠ lb.getD 1 0) || decide (la.getD 1 0 ≠ m) || decide (lb.getD 0 0 ≠ n) ||
      (drained && decide (lensOf (t out) ≠ lt)) || vecLenBad bias (drnBias drn) (t bias) n || vecLenBad am attn (t am) m ||
      vecLenBad ap attn (t ap) m, stBadGeom),
    (aliasBad ns || meet outs ins || meet ((ins.drop 2).take 1) (ins.take 2), stBadOverlap)])
  ⟨code, decide (code = stBadTd) && s.tdsPoison tile rs,
    [t a, t b, t tot, t out, if drnBias drn then t bias else none, if attn then t am else none,
      if attn then t ap else none], [],
    s.fget (pageNum .rng tile) RNG.STEP_value, [s.drainScale tile drn (t out) (t a) (t b)], []⟩

def checkDrain (s : State) (tile : Nat) (d : BitVec 512) (its : List Nat) : CheckOut :=
  let eng := dbits d 272 4
  let drn := dbits d 288 32
  let tot := dbits d 192 16
  let out := dbits d 208 16
  let bias := dbits d 224 16
  let attn := decide (drnAct drn = 4)
  let am := dbits d 240 16
  let ap := dbits d 256 16
  let ins := [Role.mk tot .elems [4] true false] ++ optRole bias (drnBias drn) [1, 2, 4] false ++
    optRole am attn [2] attn ++ optRole ap attn [2] attn
  let outs := [Role.mk out .elems fmtsOut true true]
  let rs := ins ++ outs
  let t (td : Nat) := s.optTensor tile its td
  let lt := lensOf (t tot)
  let n := lt.getD 0 0
  let m := lt.getD 1 0
  let ns := s.named tile its rs
  let code := firstBad ([
    (decide (3 < eng), stBadGeom),
    (!teEnabled s tile eng, stNoUnit),
    (decide (4 < drnAct drn), stBadFormat),
    (rs.any (fun r => noTensor r.td), stBadGeom)] ++ s.tensorRows tile its rs ++ [
    (decide (lt.length ≠ 2) || decide (lensOf (t out) ≠ lt) || vecLenBad bias (drnBias drn) (t bias) n ||
      vecLenBad am attn (t am) m || vecLenBad ap attn (t ap) m, stBadGeom),
    (aliasBad ns || (s.roleRanges tile its outs).any (fun x => (s.roleRanges tile its ins).any fun y => x.meets y),
      stBadOverlap)])
  ⟨code, decide (code = stBadTd) && s.tdsPoison tile rs,
    [t tot, t out, if drnBias drn then t bias else none, if attn then t am else none, if attn then t ap else none], [],
    s.fget (pageNum .rng tile) RNG.STEP_value, [s.drainScale tile drn (t out) none none], []⟩

/-! ### MOVE (06 R169) -/

def checkMove (s : State) (tile : Nat) (d : BitVec 512) (its : List Nat) : CheckOut :=
  let src := dbits d 192 16
  let dst := dbits d 208 16
  let rs := [Role.mk src .elems fmtsOut false false, ⟨dst, .elems, fmtsOut, false, true⟩]
  let t (td : Nat) := s.tensor tile td its
  let ns := s.named tile its rs
  let code := firstBad ([
    (!s.flag (pageNum .dma tile) DMA.PAGE_CTRL_enable, stNoUnit),
    (noTensor src || noTensor dst, stBadGeom)] ++ s.tensorRows tile its rs ++ [
    (decide ((t src).lengths ≠ (t dst).lengths), stBadGeom),
    (aliasBad ns || (t src).range.meets (t dst).range, stBadOverlap)])
  ⟨code, decide (code = stBadTd) && s.tdsPoison tile rs,
    [s.optTensor tile its src, s.optTensor tile its dst], [], s.fget (pageNum .rng tile) RNG.STEP_value, [], []⟩

/-! ### RNG_FILL (08 R207, R208) -/

def rngKindFmts : Nat → List Nat
  | 1 => [2]
  | 2 => [1, 2, 4]
  | 3 => [1, 2, 4]
  | _ => []

def checkRng (s : State) (tile : Nat) (d : BitVec 512) (its : List Nat) : CheckOut :=
  let kind := dbits d 8 4
  let dst := dbits d 192 16
  let noDst := decide (kind = 0xF)
  let rs := if noDst then [] else [Role.mk dst (if kind = 4 then .bits else .elems) (rngKindFmts kind) true true]
  let t := s.tensor tile dst its
  let ns := s.named tile its rs
  let code := firstBad ([
    (!s.flag (pageNum .rng tile) RNG.PAGE_CTRL_enable, stNoUnit),
    (!([1, 2, 3, 4, 0xF].contains kind), stBadOpcode),
    (!noDst && noTensor dst, stBadGeom)] ++ s.tensorRows tile its rs ++ [
    (decide (kind = 4) && (decide (t.rank ≠ 1) || decide (t.strides.getD 0 0 ≠ 1) ||
      decide ((8 * (t.base : Int) + t.adv) % 64 ≠ 0) || decide ((t.lens.getD 0 0 + 1) % 64 ≠ 0)), stBadGeom),
    (aliasBad ns, stBadOverlap)])
  ⟨code, decide (code = stBadTd) && s.tdsPoison tile rs,
    [if noDst then none else s.optTensor tile its dst], [], 0, [], []⟩

/-! ### SCALE (08 R215) -/

def checkScale (s : State) (tile : Nat) (d : BitVec 512) (its : List Nat) : CheckOut :=
  let sub := dbits d 8 8
  let slot := dbits d 192 12
  let count := dbits d 208 13
  let td := dbits d 224 16
  let ext : Extent := if sub = 4 ∨ sub = 5 then .raw (80 * count) else if sub = 6 then .raw (48 * count) else .elems
  let fmts := if sub = 4 ∨ sub = 5 ∨ sub = 6 then [] else [2]
  let rs := [Role.mk td ext fmts true (decide (sub = 1) || decide (sub = 4) || decide (sub = 6))]
  let t := s.tensor tile td its
  let ns := s.named tile its rs
  let code := firstBad ([
    (!s.flag (pageNum .scale tile) SCALE.PAGE_CTRL_enable, stNoUnit),
    (decide (sub < 1) || decide (6 < sub), stBadOpcode),
    (decide (count = 0) || decide (4096 < slot + count) || noTensor td, stBadGeom)] ++ s.tensorRows tile its rs ++ [
    (!fmts.isEmpty && decide (t.count ≠ count), stBadGeom),
    (aliasBad ns, stBadOverlap)])
  ⟨code, decide (code = stBadTd) && s.tdsPoison tile rs, [s.optTensor tile its td], [], 0, [], []⟩

/-! ### VEC (07 R172 to R177, R181, R187, R188, R191, R195, R196) -/

/-- How a window serves: its elements, the linear results of a reduction, a mask, the scale bytes of a wire window, or
the parameter record. -/
inductive WKind where
  | elems | results (n : Nat) | mask | scales | param
  deriving DecidableEq, Repr

/-- A window a VEC names: number, kind, allowed formats (none: ignored), written. -/
structure WRole where
  num  : Nat
  kind : WKind
  fmts : List Nat
  wr   : Bool
  deriving DecidableEq, Repr

/-- The classes of the operations (07, Vector operations): reads of windows a, b and c, whether wide is allowed. -/
inductive VClass where
  | exact | func | mask | reduce | topk | opt
  deriving DecidableEq, Repr

structure VOp where
  cls : VClass
  wide : Bool
  readsA : Bool
  readsB : Bool
  readsC : Bool
  deriving DecidableEq, Repr

/-- The operation of a subop code without bit 7. -/
def vop : Nat → Option VOp
  | 0x01 | 0x02 | 0x03 | 0x05 | 0x07 | 0x08 => some ⟨.exact, true, true, true, false⟩
  | 0x04 => some ⟨.exact, true, true, true, true⟩
  | 0x06 | 0x09 | 0x0A | 0x0C => some ⟨.exact, true, true, false, false⟩
  | 0x0B => some ⟨.exact, true, true, true, false⟩
  | 0x0D => some ⟨.exact, true, false, false, false⟩
  | 0x10 | 0x11 | 0x12 | 0x13 | 0x14 | 0x15 => some ⟨.func, false, true, false, false⟩
  | 0x16 | 0x17 | 0x18 => some ⟨.func, false, true, true, false⟩
  | 0x19 => some ⟨.func, false, true, true, true⟩
  | 0x20 => some ⟨.mask, true, true, true, false⟩
  | 0x21 => some ⟨.mask, false, true, false, false⟩
  | 0x22 | 0x23 | 0x24 | 0x25 => some ⟨.mask, false, true, true, false⟩
  | 0x30 | 0x31 | 0x32 | 0x33 => some ⟨.reduce, true, true, false, false⟩
  | 0x34 => some ⟨.topk, true, true, false, false⟩
  | 0x38 => some ⟨.opt, true, true, true, true⟩
  | 0x39 => some ⟨.opt, true, true, true, false⟩
  | _ => none

/-- A VEC descriptor's own fields. -/
def vecOp (d : BitVec 512) : Nat := dbits d 8 7
def vecWide (d : BitVec 512) : Bool := dbits d 15 1 == 1
def vecCount (d : BitVec 512) : Nat := dbits d 232 24
def vecAux (d : BitVec 512) : Nat := dbits d 352 32
def vecImm (d : BitVec 512) : Nat := dbits d 288 64
def vecMaskEn (d : BitVec 512) : Bool := dbits d 230 1 == 1

/-- Whether window b is replaced by the immediate (07 R181); FILL reads the immediate alone. -/
def vecImmB (d : BitVec 512) : Bool :=
  match vop (vecOp d) with
  | some o => decide (o.cls = .exact) && o.readsB && natBits (vecAux d) 31 1 == 1
  | none => false

/-- Vectors of one reduction group, and the results a reduction or TOPK writes. -/
def vecGroup (d : BitVec 512) : Nat := natBits (vecAux d) 0 24 + 1
def topkK (d : BitVec 512) : Nat := natBits (vecAux d) 0 6 + 1
def topkSegLog (d : BitVec 512) : Nat := natBits (vecAux d) 14 4
/-- Segments of a TOPK: one, or 1,024 / 2^seg for each vector. -/
def topkSegs (d : BitVec 512) : Nat :=
  if topkSegLog d = 0 then 1 else (vecCount d + 1) * (1024 / 2 ^ topkSegLog d)
/-- Lanes a segment covers. -/
def topkLanes (d : BitVec 512) : Nat := if topkSegLog d = 0 then 1024 * (vecCount d + 1) else 2 ^ topkSegLog d
def vecResults (d : BitVec 512) : Nat :=
  if vecOp d = 0x34 then topkK d * topkSegs d else (vecCount d + 1) / vecGroup d

/-- Source formats of a width; CVT alone takes the wire formats (07 R177). -/
def srcFmts (wide : Bool) : List Nat := if wide then [1, 2, 3, 4] else [1, 2]

/-- The windows a VEC reads and writes, in the order dst, a, b, c, mask, position or parameter window, scales of a wire
source, scales of a wire target. -/
def vecRoles (d : BitVec 512) (aWire dstWire : Bool) : List (Nat × WRole) :=
  match vop (vecOp d) with
  | none => []
  | some o =>
    let op := vecOp d
    let wide := o.wide && vecWide d
    let src := srcFmts wide ++ (if op = 0x0C then [5, 6] else [])
    let dstF : List Nat :=
      if op = 0x0C then [1, 2, 3, 4, 5, 6]
      else if op = 0x19 then [1, 2]
      else if (o.cls = .reduce ∧ natBits (vecAux d) 24 1 = 1) ∨ (o.cls = .topk ∧ natBits (vecAux d) 12 1 = 1) then
        srcFmts wide
      else if o.cls = .opt then [3] else [1, 2, 3, 4]
    let isMaskOp := decide (0x22 ≤ op) && decide (op ≤ 0x25)
    let k : WKind := if isMaskOp then .mask else .elems
    let dstK : WKind :=
      if o.cls = .mask then .mask else if o.cls = .reduce ∨ o.cls = .topk then .results (vecResults d) else .elems
    let readsB := o.readsB && !vecImmB d && !(decide (op = 0x20) && decide (natBits (vecAux d) 0 3 = 7))
    let isOpt := decide (o.cls = .opt)
    [(0, WRole.mk (dbits d 192 6) dstK dstF true)] ++
    (if o.readsA then [(1, ⟨dbits d 200 6, k, if op = 0x21 then [2] else if isOpt then [1, 2] else src, false⟩)] else []) ++
    (if readsB then [(2, ⟨dbits d 208 6, k, if isOpt then [2] else src, isOpt⟩)] else []) ++
    (if o.readsC then [(3, ⟨dbits d 216 6, k, if isOpt then [2] else src, isOpt⟩)] else []) ++
    (if op = 0x0B then [(3, ⟨dbits d 216 6, .mask, [], false⟩)] else []) ++
    (if vecMaskEn d then [(4, ⟨dbits d 224 6, .mask, [], false⟩)] else []) ++
    (if op = 0x34 then [(5, ⟨natBits (vecAux d) 6 6, .results (vecResults d), [2], true⟩)] else []) ++
    (if isOpt then [(5, ⟨natBits (vecAux d) 0 6, .param, [], false⟩)] else []) ++
    (if op = 0x0C ∧ aWire then [(6, ⟨dbits d 208 6, .scales, [], false⟩)] else []) ++
    (if op = 0x0C ∧ dstWire then [(7, ⟨dbits d 216 6, .scales, [], false⟩)] else [])

def State.winEntry (s : State) (tile w : Nat) : Nat := s.winBase tile + 32 * w
def State.winBad (s : State) (tile w : Nat) : Bool :=
  !memRange s.member (s.winEntry tile w) 32 || s.mem.poisonedN (s.winEntry tile w) 32
def State.winPoison (s : State) (tile w : Nat) : Bool :=
  memRange s.member (s.winEntry tile w) 32 && s.mem.poisonedN (s.winEntry tile w) 32
def State.window (s : State) (tile w : Nat) : Window := Window.ofBits (s.mem.readN (s.winEntry tile w) 32)

/-- The dimensions of a window's written elements (07 R175): a reduction's window is judged as any other. -/
def wkindDims (w : Window) (count : Nat) : WKind → List (Nat × Int)
  | .elems | .results _ => [(1024, w.estride), (count + 1, w.vstride)]
  | .mask => [(count + 1, w.vstride)]
  | _ => []

/-- The byte range of a window in its role. -/
def wkindRange (w : Window) (count : Nat) : WKind → ByteRange
  | .elems | .results _ => w.range count
  | .mask => w.maskRange count
  | .scales => ByteRange.ofLen w.base (32 * (count + 1))
  | .param => ByteRange.ofLen w.base 64

/-- The first addresses and sizes of what a window's role names: the elements of every vector 0 to count (07 R176). -/
def wkindBytes (w : Window) (count : Nat) : WKind → List (Int × Nat)
  | .elems | .results _ => (w.addrs count).map fun a => (a, w.size)
  | .mask => (w.maskBytes count).map fun a => (a, 1)
  | .scales => [((w.base : Int), 32 * (count + 1))]
  | .param => [((w.base : Int), 64)]

/-- The first addresses and sizes of what an operation writes in a window: of a reduction, its results alone. -/
def wkindWrites (w : Window) (count : Nat) : WKind → List (Int × Nat)
  | .results n => (List.range n).map fun i => (w.addrI (i / 1024) (i % 1024), w.size)
  | k => wkindBytes w count k

abbrev WNamed := List (WRole × Window)
def anyWin (ws : WNamed) (p : WRole → Window → Bool) : Bool := ws.any fun x => p x.1 x.2

/-- A written window coincides with a source (07 R175). -/
def coincides (a b : Window) : Bool :=
  decide (a.base = b.base) && decide (a.fmt = b.fmt) && decide (a.estride = b.estride) &&
    decide (a.vstride = b.vstride) && decide (a.origin = b.origin) && decide (a.bcast = 0) && decide (b.bcast = 0)
/-- For masks, whose format, estride and bcast are ignored (07 R174). -/
def coincidesMask (a b : Window) : Bool :=
  decide (a.base = b.base) && decide (a.vstride = b.vstride) && decide (a.origin = b.origin)

/-- A written window in role `k` coincides with a source window in role `l`: both masks, or both of elements. -/
def coincidesAs (k l : WKind) (a b : Window) : Bool :=
  match k, l with
  | .mask, .mask => coincidesMask a b
  | .elems, .elems | .results _, .elems => coincides a b
  | _, _ => false

/-- Overlap faults of the written windows (07 R175). Two written windows that overlap are a fault, also where they coincide
and both are sources, as b = c of OPT_ADAMW (DESIGN CHOICE, notes/assumptions/110.md). -/
def overlapBad (count : Nat) : WNamed → WNamed → Bool
  | _, [] => false
  | before, (r, w) :: rest =>
    (r.wr && ((decide (r.kind ≠ .mask) && decide (w.bcast ≠ 0)) || !noAlias (wkindDims w count r.kind) ||
      (before ++ rest).any fun x =>
        (wkindRange w count r.kind).meets (wkindRange x.2 count x.1.kind) &&
          !(!x.1.wr && coincidesAs r.kind x.1.kind w x.2))) ||
    overlapBad count (before ++ [(r, w)]) rest

/-- A scale byte outside the accepted range, in a word that is not poisoned (02 R42, 07 R187). -/
def State.scaleBytesBad (s : State) (a n : Nat) : Bool :=
  (List.range n).any fun i =>
    !s.mem.poisoned (a + i) && (decide (signedOf 8 (s.mem.readByte (a + i)) < -112) ||
      decide (112 < signedOf 8 (s.mem.readByte (a + i))))

def checkVec (s : State) (tile : Nat) (d : BitVec 512) : CheckOut :=
  let op := vecOp d
  let count := vecCount d
  let win (n : Nat) := s.window tile n
  let aWire := fmtWire (win (dbits d 200 6)).fmt
  let dstWire := fmtWire (win (dbits d 192 6)).fmt
  let rs := vecRoles d aWire dstWire
  let ws : WNamed := rs.map fun r => (r.2, win r.2.num)
  let isWide := match vop op with | some o => o.wide | none => false
  let isOpt := decide (op = 0x38) || decide (op = 0x39)
  let wa := win (dbits d 200 6)
  let wd := win (dbits d 192 6)
  let wireGeom (w : Window) : Bool := decide (w.estride ≠ 1) || decide (w.vstride ≠ 1024) || decide (w.bcast ≠ 0)
  let code := firstBad [
    (!s.flag (pageNum .ve tile) VE.PAGE_CTRL_enable, stNoUnit),
    ((vop op).isNone || (vecWide d && !isWide && !isOpt), stBadOpcode),
    (rs.any (fun r => s.winBad tile r.2.num), stBadTd),
    (anyWin ws (fun r w => decide (r.kind ≠ .mask) && decide (10 < w.bcast)), stBadGeom),
    (anyWin ws (fun r w => !r.fmts.isEmpty && decide (r.kind ≠ .mask) && !fmtKnown w.fmt), stBadFormat),
    (anyWin ws (fun r w => (wkindBytes w count r.kind).any (fun x =>
      !memAt s.member x.1 || !memAt s.member (x.1 + x.2 - 1)) ||
      (r.wr && s.clash tile (wkindRange w count r.kind))), stBadAddr),
    (anyWin ws (fun r w => (wkindBytes w count r.kind).any (fun x =>
      !localAt tile x.1 || !localAt tile (x.1 + x.2 - 1))), stNotLocal),
    (anyWin ws (fun r w => !r.fmts.isEmpty && decide (r.kind ≠ .mask) && !r.fmts.contains w.fmt), stBadFormat),
    (anyWin ws (fun r w => (!r.fmts.isEmpty && decide (r.kind ≠ .mask) && decide (w.base % fmtAlign w.fmt ≠ 0)) ||
      (decide (r.kind = .mask) && decide (w.base % 8 ≠ 0))), stBadAlign),
    ((decide (0x30 ≤ op) && decide (op ≤ 0x33) && decide ((count + 1) % vecGroup d ≠ 0)) ||
      (decide (op = 0x34) && ((decide (topkSegLog d ≠ 0) && (decide (topkSegLog d < 5) || decide (10 < topkSegLog d))) ||
        decide (topkLanes d < topkK d) || decide (2 ^ 32 < wa.origin + 1024 * (count + 1)))) ||
      (decide (op = 0x0C) && ((aWire && wireGeom wa) || (dstWire && wireGeom wd))), stBadGeom),
    (overlapBad count [] ws, stBadOverlap),
    (rs.any (fun r => decide (r.2.kind = .scales) && s.scaleBytesBad (win r.2.num).base (32 * (count + 1))), stBadScale)]
  let pick (i : Nat) : Option Window := ((rs.find? fun r => decide (r.1 = i)).map fun r => win r.2.num)
  ⟨code, decide (code = stBadTd) && rs.any fun r => s.winPoison tile r.2.num,
    [], [pick 0, pick 1, pick 2, pick 3, pick 4, pick 5, pick 6, pick 7],
    s.fget (pageNum .rng tile) RNG.STEP_value, [], []⟩

end Sys2Proof.Machine
end

