-- ==== Sys2Proof/Machine/ChecksGroup.lean ====
section
/-!
DEFINITION. The checks of step 3 (06 R466) of the descriptors that use groups, buffers and slots: STASH and UNSTASH,
GATHER_AHEAD, COLL, NORM, CLEARING, MARK and REPEAT.
-/
namespace Sys2Proof.Machine

def stClrOrder : Nat := 0x40

/-! ### STASH and UNSTASH (09 R233) -/

/-- Whether an address lies in the populated part of a stack. -/
def stackAt (m : Member) (a : Int) : Bool :=
  decide (0 ≤ a) && (match region m a.toNat with | .stack .. => true | _ => false)

/-- A tensor moved to its micro-batch slot: ubatch × E more elements of advance. -/
def Tensor.slotted (t : Tensor) (ubatch : Nat) : Tensor := { t with adv := t.adv + (ubatch * t.count : Nat) }

/-- STASH (`out`) copies from the understory to a stack slot, UNSTASH back. -/
def checkStash (s : State) (tile : Nat) (d : BitVec 512) (its : List Nat) (out : Bool) : CheckOut :=
  let src := dbits d 192 16
  let dst := dbits d 208 16
  let ub := dbits d 224 16
  let rs := [Role.mk src .elems fmtsOut out false, ⟨dst, .elems, fmtsOut, !out, true⟩]
  let ts := if out then s.tensor tile src its else (s.tensor tile src its).slotted ub
  let td := if out then (s.tensor tile dst its).slotted ub else s.tensor tile dst its
  let ns : Named := [(Role.mk src .elems fmtsOut out false, ts), (⟨dst, .elems, fmtsOut, !out, true⟩, td)]
  let side := if out then td else ts
  let code := firstBad ([
    (!s.flag (pageNum .dma tile) DMA.PAGE_CTRL_enable, stNoUnit),
    (noTensor src || noTensor dst, stBadGeom),
    (s.tdsBad tile rs, stBadTd), (rankBad ns, stBadGeom), (reservedFmt ns, stBadFormat),
    (s.addrBad tile ns, stBadAddr),
    (localBad tile ns || !side.addrs.all (fun a => stackAt s.member a && stackAt s.member (a + side.size - 1)),
      stNotLocal),
    (roleFmtBad ns, stBadFormat), (alignBad ns, stBadAlign),
    (decide (ts.lengths ≠ td.lengths), stBadGeom),
    (aliasBad ns || ts.range.meets td.range, stBadOverlap)])
  ⟨code, decide (code = stBadTd) && s.tdsPoison tile rs, [some ts, some td], [],
    s.fget (pageNum .rng tile) RNG.STEP_value, [], []⟩

/-! ### Participant groups (10 R239 to R241) -/

namespace State

def groupEntry (s : State) (g : Nat) : Nat := s.pair (pageNum .coll 0) COLL.GROUP_BASE_LO_addr + 16 * g
/-- The fields of a group table entry. -/
def groupBits (s : State) (g lo w : Nat) : Nat := natBits (s.mem.readN (s.groupEntry g) 16) lo w
def groupSize (s : State) (g : Nat) : Nat := s.groupBits g 64 16 + 1
def groupPos (s : State) (g : Nat) : Nat := s.groupBits g 80 16
/-- The rank at a position of the entry's list. -/
def groupRank (s : State) (g k : Nat) : Nat := s.mem.readN (s.groupBits g 0 48 + 2 * k) 2
def groupRanks (s : State) (g : Nat) : List Nat := (List.range (s.groupSize g)).map (s.groupRank g)
/-- Whether an entry is marked valid. -/
def groupValid (s : State) (g : Nat) : Bool := s.coll.valid.contains g

/-- The report table (10 R254). -/
def reportBase (s : State) : Nat := s.pair (pageNum .coll 0) COLL.REPORT_BASE_LO_addr
def reportSlot (s : State) (bucket : Nat) : Nat := s.reportBase + 32 * bucket
def reportSlotBad (s : State) (bucket : Nat) : Bool := !memRange s.member (s.reportSlot bucket) 32

def collOn (s : State) : Bool := s.flag (pageNum .coll 0) COLL.PAGE_CTRL_enable

/-- Whether a participant needs another rank on a card that has no links (00 R5). -/
def noPeer (s : State) (g : Nat) : Bool := decide (s.member = .xsc1) && decide (s.groupSize g ≠ 1)

end State

def stNoPeerRow (s : State) (g : Nat) : Bool × Nat := (s.noPeer g, stNoPeer)

/-! ### GATHER_AHEAD (09 R226, R227) -/

def gaDepth (d : BitVec 512) : Nat := dbits d 240 2 + 2
/-- The layer an occurrence gathers. -/
def gaLayer (d : BitVec 512) (its : List Nat) : Nat := its.getD 0 0 + dbits d 248 8
def gaBucket (tile : Nat) : Nat := 0xFF00 + tile

/-- The checks of a GATHER_AHEAD; its dst is every one of its `depth` buffers, each judged element by element (01 R25). -/
def checkGather (s : State) (tile : Nat) (d : BitVec 512) (its : List Nat) : CheckOut :=
  let src := dbits d 192 16
  let dst := dbits d 208 16
  let g := dbits d 224 16
  let layer := gaLayer d its
  let ts := s.tensor tile src (its.set 0 layer)
  let t0 : Tensor := { s.tensor tile dst its with adv := 0 }
  let n := ts.lens.getD 0 0 + 1
  let row := n * s.groupSize g
  let out : Role := ⟨dst, .elems, fmtsOut, true, true⟩
  let rs := [Role.mk src .elems fmtsOut false false, out]
  let buffer (b : Nat) : Tensor := { t0 with base := t0.base + b * row * t0.size }
  let ns : Named := (Role.mk src .elems fmtsOut false false, ts) :: (List.range (gaDepth d)).map fun b => (out, buffer b)
  let td := { t0 with base := t0.base + layer % gaDepth d * row * t0.size }
  let code := firstBad ([
    (!s.flag (pageNum .dma tile) DMA.PAGE_CTRL_enable || !s.collOn ||
      (decide (dbits d 288 1 = 1) && decide (s.member ≠ .xsm8)), stNoUnit),
    (noTensor src || noTensor dst || decide (dbits d 240 2 = 3) || decide (gaDepth d < dbits d 248 8 + 1), stBadGeom),
    (!s.groupValid g, stBadGeom)] ++ [
    (s.tdsBad tile rs, stBadTd), (rankBad ns, stBadGeom), (reservedFmt ns, stBadFormat),
    (s.addrBad tile ns || s.reportSlotBad (gaBucket tile), stBadAddr), (localBad tile ns, stNotLocal),
    (roleFmtBad ns || decide (ts.fmt ≠ t0.fmt), stBadFormat), (alignBad ns, stBadAlign)] ++ [
    (decide (ts.rank ≠ 1) || decide (ts.strides.getD 0 0 ≠ 1) || decide (t0.rank ≠ 2) ||
      decide (t0.lengths ≠ [n, s.groupSize g]) || decide (t0.strides.take 2 ≠ [1, (n : Int)]) ||
      decide (2 ^ 24 < n * ts.size), stBadGeom),
    (aliasBad ns, stBadOverlap), stNoPeerRow s g])
  ⟨code, decide (code = stBadTd) && s.tdsPoison tile rs, [some ts, some td, none, none], [],
    s.fget (pageNum .rng tile) RNG.STEP_value, [],
    [0x10, 3, (dbits d 256 32 + layer) % 2 ^ 32, gaBucket tile, g, s.groupSize g, s.groupPos g]⟩

/-! ### COLL (10 R242 to R248, R254, R256) -/

def collSub (d : BitVec 512) : Nat := dbits d 8 8
def subReduces (sub : Nat) : Bool := decide (sub = 1) || decide (sub = 2)
def isFfff (x : Nat) : Bool := decide (x = 0xFFFF)

/-- Row 6 of R466 for COLL: the fields each sub-operation requires and forbids, the channel, the bucket id and
fan-out. BROADCAST's src stands at the root alone. -/
def collFieldsBad (sub src dst scales peer counts pos vc bucket : Nat) (fanout : Bool) : Bool :=
  let none4 := isFfff scales && isFfff peer && isFfff counts
  let ok :=
    match sub with
    | 1 | 2 => !isFfff src && !isFfff dst && !isFfff scales && isFfff peer && isFfff counts
    | 3 => !isFfff src && !isFfff dst && none4
    | 4 => isFfff scales && !isFfff peer && isFfff counts &&
        (if pos = peer then !isFfff src else isFfff src && !isFfff dst)
    | 5 => !isFfff src && !isFfff dst && isFfff scales && isFfff peer
    | 6 => !isFfff src && isFfff dst && isFfff scales && !isFfff peer && isFfff counts
    | 7 => isFfff src && !isFfff dst && isFfff scales && !isFfff peer && isFfff counts
    | _ => (isFfff src != isFfff dst) && none4
  !ok || decide (vc < 2) || decide (0xFF00 ≤ bucket) || (fanout && decide (sub ≠ 3) && decide (sub ≠ 4))

/-- The formats of a sub-operation (R244, R247). -/
def collFmtBad (sub : Nat) (src dst : Option Tensor) : Bool :=
  let any6 (t : Option Tensor) : Bool := match t with | some x => decide (1 ≤ x.fmt) && decide (x.fmt ≤ 6) | none => true
  match sub with
  | 1 | 2 =>
    match src, dst with
    | some a, some b =>
      if fmtWire a.fmt then !(decide (b.fmt = a.fmt) || decide (b.fmt = 2) || decide (b.fmt = 4))
      else !(fmtWire b.fmt && (decide (a.fmt = 1) || decide (a.fmt = 2)))
    | _, _ => true
  | 8 => (match src with | some x => decide (x.fmt ≠ 4) | none => false) ||
      (match dst with | some x => decide (x.fmt ≠ 4) | none => false)
  | _ => !any6 src || !any6 dst ||
      (match src, dst with | some a, some b => decide (a.fmt ≠ b.fmt) | _, _ => false)

/-- The wire format of a reducing collective. -/
def collWire (src dst : Tensor) : Nat := if fmtWire src.fmt then src.fmt else dst.fmt

def optCount (t : Option Tensor) : Nat := match t with | some x => x.count | none => 0
def optBytes (t : Option Tensor) : Nat := match t with | some x => x.count * x.size | none => 0

/-- The values of a counts tensor, as (value, poison). -/
def countAt (s : State) (t : Tensor) (i : Nat) : Nat × Bool :=
  (s.mem.readN (t.addr [i]) 4, s.mem.poisonedN (t.addr [i]) 4)

def collGeomBad (s : State) (sub g pos peer : Nat) (src dst scales counts : Option Tensor) : Bool :=
  let e := optCount src
  let big (t : Option Tensor) : Bool := decide (2 ^ 24 < optBytes t)
  match sub with
  | 1 | 2 =>
    match src, dst, scales with
    | some a, some b, some c =>
      let n := a.count
      let bytes := n * fmtSize (collWire a b)
      decide (bytes < 2 ^ 16) || decide (2 ^ 24 < bytes) ||
        (decide (sub = 1) && decide (b.count ≠ n)) ||
        (decide (sub = 2) && (decide (n % (32 * g) ≠ 0) || decide (b.count * g ≠ n))) ||
        decide (c.rank ≠ 1) || decide (c.strides.getD 0 0 ≠ 1) || decide (c.lengths ≠ [(n + 31) / 32])
    | _, _, _ => true
  | 3 => decide (optCount dst ≠ g * e) || big src
  | 4 => decide (g ≤ peer) || (src.isSome && dst.isSome && decide (optCount dst ≠ e)) || big src || big dst
  | 5 =>
    match counts with
    | none => decide (e % g ≠ 0) || decide (optCount dst ≠ e) || big src || big dst
    | some c =>
      decide (c.lengths ≠ [2 * g]) || big src || big dst ||
        (List.range g).any (fun i => (countAt s c i).2) ||
        decide ((List.range g).foldl (fun a i => a + (countAt s c i).1) 0 ≠ e)
  | 6 => decide (g ≤ peer) || decide (peer = pos) || big src
  | 7 => decide (g ≤ peer) || decide (peer = pos) || big dst
  | _ => (src.isSome && decide (pos + 1 = g)) || (dst.isSome && decide (pos = 0)) || big src || big dst

/-- A tensor whose format field is ignored, with elements of the size of `fmt`. -/
def Tensor.asFmt (t : Tensor) (fmt : Nat) : Tensor := { t with fmt := fmt }

/-- A scale byte that is out of range in an unpoisoned word (10 R248, 02 R42). -/
def scaleVecBad (s : State) (t : Option Tensor) : Bool :=
  match t with
  | none => false
  | some x => x.addrs.any fun a => s.scaleBytesBad a.toNat 1

/-- Step 3 of a COLL in the rows of R466. NO_PEER (00 R5), which has no row there, is judged last
(notes/assumptions/103.md). -/
def checkColl (s : State) (tile : Nat) (d : BitVec 512) (its : List Nat) : CheckOut :=
  let sub := collSub d
  let src := dbits d 192 16
  let dst := dbits d 208 16
  let sc := dbits d 224 16
  let gi := dbits d 240 16
  let bucket := dbits d 256 16
  let vc := dbits d 272 3
  let fan := dbits d 275 1 == 1
  let peer := dbits d 280 16
  let ct := dbits d 296 16
  let g := s.groupSize gi
  let pos := s.groupPos gi
  let t (td : Nat) := s.optTensor tile its td
  let tsc := (t sc).map fun x => x.asFmt 5
  let tct := (t ct).map fun x => x.asFmt 2
  let named (td : Nat) (fmts : List Nat) (wr : Bool) (x : Option Tensor) : List (Role × Tensor) :=
    match x with
    | some y => [(Role.mk td .elems fmts false wr, y)]
    | none => []
  let any := [1, 2, 3, 4, 5, 6, 7]
  let ns : Named := named src any false (t src) ++ named dst any true (t dst) ++ named sc [] false tsc ++
    named ct [] true tct
  let rs := ns.map fun x => x.1
  let reportR := ByteRange.ofLen s.reportBase (2 ^ 21)
  let code := firstBad ([
    (!s.collOn || (fan && decide (s.member ≠ .xsm8)), stNoUnit),
    (decide (sub < 1) || decide (8 < sub), stBadOpcode),
    (collFieldsBad sub src dst sc peer ct pos vc bucket fan, stBadGeom),
    (!s.groupValid gi, stBadGeom),
    (s.tdsBad tile rs, stBadTd), (rankBad ns, stBadGeom), (reservedFmt ns, stBadFormat),
    (s.addrBad tile ns || anyNamed ns (fun r x => r.wr && reportR.meets (extentRange x r.ext)) ||
      s.reportSlotBad bucket, stBadAddr),
    (collFmtBad sub (t src) (t dst), stBadFormat),
    (alignBad ns, stBadAlign),
    ((decide (vc = 5) && decide (64 < g)) || collGeomBad s sub g pos peer (t src) (t dst) tsc tct, stBadGeom),
    (aliasBad ns, stBadOverlap),
    (scaleVecBad s tsc, stBadScale),
    stNoPeerRow s gi])
  let ctPoison := match tct with
    | some c => (List.range g).any (fun i => (countAt s c i).2)
    | none => false
  ⟨code, (decide (code = stBadTd) && s.tdsPoison tile rs) || (decide (code = stBadGeom) && decide (sub = 5) && ctPoison),
    [t src, t dst, tsc, tct], [], s.fget (pageNum .rng tile) RNG.STEP_value, [],
    [sub, vc, dbits d 320 32, bucket, gi, g, pos]⟩

/-! ### NORM (08 R220 to R224) -/

def normBucket (tile : Nat) : Nat := 0xFF10 + tile

def checkNorm (s : State) (tile : Nat) (d : BitVec 512) (its : List Nat) : CheckOut :=
  let sub := dbits d 8 8
  let src := if sub = 2 then dbits d 192 16 else 0xFFFF
  let acc := dbits d 208 16
  let out := if sub = 3 ∨ sub = 4 then dbits d 224 16 else 0xFFFF
  let gi := dbits d 240 16
  let t (td : Nat) := s.optTensor tile its td
  let tacc := s.tensor tile acc its
  let opt (td : Nat) (r : Role) : List Role := if td = 0xFFFF then [] else [r]
  let rs := opt src ⟨src, .elems, [1, 2], true, false⟩ ++ [Role.mk acc .elems [7] true (decide (sub ≠ 4))] ++
    opt out ⟨out, .elems, [4], true, true⟩
  -- the accumulator's own rule answers BAD_GEOM for its format, rank, length and alignment
  let nsA : Named := (s.named tile its rs).map fun x =>
    if x.1.td = acc ∧ x.1.fmts = [7] then (x.1, if fmtKnown x.2.fmt then x.2.asFmt 7 else x.2) else x
  let nsB := nsA.filter fun x => decide (x.1.fmts ≠ [7])
  let code := firstBad ([
    (!s.flag (pageNum .norm 0) NORM.PAGE_CTRL_enable || !s.flag (pageNum .ve tile) VE.PAGE_CTRL_enable ||
      (decide (sub = 3) && !s.collOn), stNoUnit),
    (decide (sub < 1) || decide (4 < sub), stBadOpcode),
    (noTensor acc || (decide (sub = 2) && noTensor src) || (decide (sub = 4) && noTensor out), stBadGeom),
    (decide (sub = 3) && !s.groupValid gi, stBadGeom),
    (s.tdsBad tile rs, stBadTd), (rankBad nsA, stBadGeom), (reservedFmt nsA, stBadFormat),
    (s.addrBad tile nsA || (decide (sub = 3) && s.reportSlotBad (normBucket tile)), stBadAddr),
    (localBad tile nsA, stNotLocal), (roleFmtBad nsB, stBadFormat), (alignBad nsB, stBadAlign),
    (decide (tacc.fmt ≠ 7) || decide (tacc.lengths ≠ [1]) || decide (tacc.base % 8 ≠ 0) ||
      (match t out with | some x => decide (x.lengths ≠ [1]) && decide (x.lengths ≠ [3]) | none => false), stBadGeom),
    (aliasBad nsA, stBadOverlap),
    (decide (sub = 3) && s.noPeer gi, stNoPeer)])
  ⟨code, decide (code = stBadTd) && s.tdsPoison tile rs, [t src, some tacc, t out, none], [],
    s.fget (pageNum .rng tile) RNG.STEP_value, [],
    [0x11, 3, dbits d 256 32, normBucket tile, gi, s.groupSize gi, s.groupPos gi,
      s.pair (pageNum .norm 0) NORM.NORM_MAX_LO_value]⟩

/-! ### CLEARING and MARK (13 R327, R339) -/

/-- The levels of a CLEARING: L3 implies L2. -/
def clrLevels (d : BitVec 512) : Nat :=
  let l := dbits d 256 4
  if l / 8 % 2 = 1 ∧ l / 4 % 2 = 0 then l + 4 else l

def checkClearing (s : State) (tile : Nat) (d : BitVec 512) : CheckOut :=
  let l := clrLevels d
  let gi := dbits d 272 16
  let code := firstBad [
    (!s.flag (pageNum .snap 0) SNAP.PAGE_CTRL_enable ||
      (decide (s.member = .xsc1) && decide (l / 2 % 4 ≠ 0)), stNoUnit),
    (decide (l % 2 = 0), stBadGeom),
    (!s.groupValid gi, stBadGeom),
    (decide (dbits d 192 64 ≠ (s.pair (pageNum .snap 0) SNAP.LAST_CLR_LO_number + 1) % 2 ^ 64), stClrOrder)]
  ⟨code, false, [], [], s.fget (pageNum .rng tile) RNG.STEP_value, [], [dbits d 192 64, l, gi]⟩

def markType (t : Nat) : Bool := (decide (1 ≤ t) && decide (t ≤ 6)) || (decide (0x40 ≤ t) && decide (t < 0x80))

def checkMark (s : State) (tile : Nat) (d : BitVec 512) (its : List Nat) : CheckOut :=
  let td := dbits d 192 16
  let rs := if td = 0xFFFF then [] else [Role.mk td .elems [1, 2, 3, 4, 5, 6, 7] false false]
  let t := s.tensor tile td its
  let code := firstBad ([
    (!s.flag (pageNum .trail 0) TRAIL.PAGE_CTRL_enable, stNoUnit),
    (!markType (dbits d 8 8), stBadOpcode)] ++ s.tensorRows tile its rs ++ [
    (decide (td ≠ 0xFFFF) && decide (4064 < t.count * t.size), stBadGeom)])
  ⟨code, decide (code = stBadTd) && s.tdsPoison tile rs, [s.optTensor tile its td], [],
    s.fget (pageNum .rng tile) RNG.STEP_value, [], []⟩

/-! ### REPEAT (06 R159) -/

def repN (d : BitVec 512) : Nat := dbits d 216 8 + 1
def repC (d : BitVec 512) : Nat := dbits d 192 24 + 1

def checkRepeat (s : State) (tile q : Nat) (d : BitVec 512) : CheckOut :=
  let x := s.queueOf tile q
  let leaves := x.reps.any fun r => decide ((r.slot + r.n) < x.pos + repN d)
  let code := if decide (4 ≤ x.reps.length) || leaves || decide (s.qSlots tile q < repN d + 1) then stBadRepeat else 0
  ⟨code, false, [], [], 0, [], []⟩

/-! ### Every opcode -/

/-- The whole of step 3 for a descriptor of a queue (R466). -/
def checkDesc (s : State) (tile q : Nat) (d : BitVec 512) (its : List Nat) : CheckOut :=
  match dbits d 0 8 with
  | 0x00 | 0x28 | 0x29 | 0x2A => CheckOut.fail 0
  | 0x01 => checkMatmul s tile d its
  | 0x02 => checkDrain s tile d its
  | 0x03 => checkVec s tile d
  | 0x08 => checkMove s tile d its
  | 0x09 => checkGather s tile d its
  | 0x0A => checkStash s tile d its true
  | 0x0B => checkStash s tile d its false
  | 0x10 => checkColl s tile d its
  | 0x18 => checkNorm s tile d its
  | 0x19 => checkScale s tile d its
  | 0x1A => checkRng s tile d its
  | 0x20 => checkClearing s tile d
  | 0x21 => checkMark s tile d its
  | 0x30 => checkRepeat s tile q d
  | _ => CheckOut.fail stBadOpcode

end Sys2Proof.Machine
end

