-- ==== Sys2Proof/Machine/Seq.lean ====
section
/-!
DEFINITION. The descriptor sequencer: queues, fetch, dispatch, gates, REPEAT, hand-over and completion (06 R137 to R170),
with the commands DESC_FETCH, DISPATCH, NOP, WAIT, FENCE, FENCE_COMPLETE, REPEAT, REPEAT_COMPLETE and
Q_WAIT_LIMIT_EXPIRE.
-/
namespace Sys2Proof.Machine

/-! ### Descriptor header (06 R143) -/

def dWaitEn (d : BitVec 512) : Bool := dbits d 80 1 == 1
def dSigEn (d : BitVec 512) : Bool := dbits d 144 1 == 1
def dSigTile (d : BitVec 512) : Nat := dbits d 140 3

/-- A wait condition (06 R151): REACHED in wrapping order, or EQUAL. -/
def waitOk (equal : Bool) (sem value : Nat) : Bool :=
  if equal then decide (sem = value) else decide ((sem + 2 ^ 32 - value) % 2 ^ 32 < 2 ^ 31)

/-- The unit that executes a descriptor (06 R144); an engine number that names no engine gives TSEQ. -/
def unitOf (d : BitVec 512) : UnitId :=
  match dbits d 0 8 with
  | 0x01 => if dbits d 308 1 = 1 then .quad else if dbits d 312 4 < 4 then .te (dbits d 312 4) else .tseq
  | 0x02 => if dbits d 272 4 < 4 then .drain (dbits d 272 4) else .tseq
  | 0x03 | 0x18 => .ve
  | 0x08 | 0x09 | 0x0A | 0x0B => .dma
  | 0x10 => .coll
  | 0x19 => .scale
  | 0x1A => .rng
  | 0x20 => .snap
  | 0x21 => .trail
  | _ => .tseq

/-- The unit field of a status record (06 R167). -/
def UnitId.code : UnitId → Nat
  | .tseq => 0
  | .te e => 1 + e
  | .drain e => 1 + e
  | .quad => 5
  | .ve => 6
  | .dma => 7
  | .rng => 8
  | .scale => 9
  | .coll => 10
  | .snap => 11
  | .trail => 11

/-- Whether a descriptor needs a collective context (10 R257). -/
def needsContext (d : BitVec 512) : Bool :=
  match dbits d 0 8 with
  | 0x09 | 0x10 => true
  | 0x18 => decide (dbits d 8 8 = 3)
  | _ => false

/-! ### Queue registers -/

namespace State

def tseqP (t : Nat) : Nat := pageNum .tseq t

/-- A 32-bit queue register at +off. -/
def qReg (s : State) (t q off : Nat) : Nat := (s.reg (tseqP t) (0x100 + 0x40 * q + off)).toNat
def setQReg (s : State) (t q off v : Nat) : State := s.setReg (tseqP t) (0x100 + 0x40 * q + off) (BitVec.ofNat 32 v)
def qTail (s : State) (t q : Nat) : Nat := s.qReg t q 0x18
def qDone (s : State) (t q : Nat) : Nat := s.qReg t q 0x20
def qHalted (s : State) (t q : Nat) : Bool := s.flag (tseqP t) (qfd TSEQ.Q_STAT_halted q)
/-- The ring slot of a count (06 R139). -/
def slotOfCount (s : State) (t q c : Nat) : Nat := c % s.qSlots t q

/-- Whether the outermost REPEAT's last iteration has been fetched whole (06 R161). -/
def repsFetched (x : QueueSt) : Bool :=
  x.reps.all fun r =>
    decide (r.iter + 1 = r.c) && decide (r.slot + r.n < x.pos + x.fetched.length) &&
      !((x.fetched.take (r.slot + r.n + 1 - x.pos)).any fun f => decide (dbits f.desc 0 8 = 0x30))

/-- An occurrence by its number. -/
def occ (s : State) (id : Nat) : Option Occ := s.seq.occs.find? fun o => decide (o.id = id)

/-- The head occurrence of a queue at step 4. -/
def headOcc (s : State) (t q : Nat) : Option Occ :=
  match (s.queueOf t q).head with
  | some id => s.occ id
  | none => none

/-- The slot of a REPEAT that has been dispatched and whose body has not begun. -/
def headRepeat (s : State) (t q : Nat) : Option Nat :=
  match s.headOcc t q with
  | some o => if o.opcode = 0x30 then some o.count else none
  | none => none

/-- Q_HEAD: the count of the oldest slot TSEQ may still read. It does not pass a REPEAT until its last iteration has been
fetched whole, and does not fall back when what was fetched is discarded (06 R139, R161). -/
def qHead (s : State) (t q : Nat) : Nat :=
  let x := s.queueOf t q
  match x.reps.getLast?, s.headRepeat t q with
  | some r, some _ => r.slot
  | some r, none => if x.whole || repsFetched x then x.pos else r.slot
  | none, some c => c
  | none, none => x.pos

/-- Whether a tile's TSEQ may dispatch (06 R170; 13 R329, R345; 14 R364; 15 R372). -/
def mayDispatch (s : State) (t : Nat) : Bool :=
  decide (t < Member.tiles s.member) && s.flag (tseqP t) TSEQ.PAGE_CTRL_enable &&
    !s.flag (tseqP t) TSEQ.PAGE_CTRL_quiesce && !s.flag (pageNum .snap 0) SNAP.PAGE_STAT_hold &&
    decide (s.fget 0 MODULE.FIREBREAK_state = 0) && decide (s.fget (pageNum .pwr 0) PWR.PAGE_STAT_state ≤ 1)

/-- Replaces the occurrence of a number. -/
def putOcc (s : State) (o : Occ) : State :=
  { s with seq := { s.seq with occs := s.seq.occs.map fun x => if x.id = o.id then o else x } }
/-- Adds an occurrence as the latest. -/
def addOcc (s : State) (o : Occ) : State := { s with seq := { s.seq with occs := s.seq.occs ++ [o] } }
def dropOcc (s : State) (id : Nat) : State :=
  { s with seq := { s.seq with occs := s.seq.occs.filter fun o => decide (o.id ≠ id) } }

/-- Whether a tile's dispatched work is all complete (PAGE_STAT.busy is its negation). -/
def tileBusy (s : State) (t : Nat) : Bool := s.seq.occs.any fun o => decide (o.tile = t) && s.awaiting o
def tseqQuiesced (s : State) (t : Nat) : Bool := s.flag (tseqP t) TSEQ.PAGE_CTRL_quiesce && !s.tileBusy t

/-! ### The first error and halts (06 R142, R167, R170) -/

/-- Records the first descriptor error or halt code with its queue and slot. -/
def tseqFirst (s : State) (t code q slot : Nat) : State :=
  if s.fget (tseqP t) TSEQ.PAGE_ERR_code = 0 then
    ((s.fset (tseqP t) TSEQ.PAGE_ERR_code code).fset (tseqP t) TSEQ.PAGE_ERR_queue q).fset (tseqP t)
      TSEQ.PAGE_ERR_slot slot
  else s

/-- Halts a queue (R142, R159). -/
def haltQueue (s : State) (t q code slot : Nat) : State :=
  let s := (s.fset (tseqP t) (qfd TSEQ.Q_STAT_halted q) 1).fset (tseqP t) (qfd TSEQ.Q_STAT_halt_code q) code
  let s := s.tseqFirst t code q slot
  (s.errEvent .tseq t 0x96 (q + code * 256) 0).event .tseq t TSEQ.PAGE_EVT_halted

/-! ### Completion (06 R148, R153, R167) -/

/-- The 128 bits of a status record. -/
def statusRecord (o : Occ) (done : Nat) : Nat :=
  o.code + bitIf o.runSplit (2 ^ 8) + bitIf o.accInf (2 ^ 9) + bitIf o.poison (2 ^ 10) +
    bitIf (decide (o.uflags ≠ 0)) (2 ^ 11) + o.opcode * 2 ^ 16 + o.queue * 2 ^ 24 + o.its.getD 0 0 * 2 ^ 32 +
    o.unit.code * 2 ^ 56 + o.uflags * 2 ^ 64 + done * 2 ^ 96

/-- The effects of a descriptor error code. -/
def noteDescError (s : State) (o : Occ) : State :=
  if 0x08 ≤ o.code ∧ o.code ≤ 0x12 then
    let slot := s.slotOfCount o.tile o.queue o.count
    let s := (s.tseqFirst o.tile o.code o.queue slot).count (tseqP o.tile) TSEQ.DESC_ERR_CNT_count
    (s.errEvent .tseq o.tile 0xB6 (o.code + o.queue * 256 + slot * 65536) 0).event .tseq o.tile TSEQ.PAGE_EVT_desc_err
  else s

/-- The header's signal, unless the code is BAD_SEM or the tile is absent. -/
def applySignal (s : State) (o : Occ) : State :=
  if dSigEn o.desc ∧ o.code ≠ stBadSem ∧ dSigTile o.desc < Member.tiles s.member then
    s.signalSem (dSigTile o.desc) (o.f 128 12) (o.f 145 1 == 1) (o.f 160 32)
  else s

/-- Frees the queue's head place. -/
def freeHead (s : State) (o : Occ) : State :=
  let x := s.queueOf o.tile o.queue
  if x.head = some o.id then s.setQueue o.tile o.queue { x with head := none } else s

/-! ### What a completion shows on its unit's page (03 R95, 07 R201, 08 R225, 18 R463) -/

/-- A completion's poison, abort and error class. -/
def badDesc (code : Nat) : Bool := decide (0x08 ≤ code) && decide (code ≤ 0x12)

/-- Sets an event bit when a condition holds. -/
def eventIf (s : State) (c : Bool) (ty : PageType) (i : Nat) (f : Fd) : State := if c then s.event ty i f else s
/-- Adds to a register when a condition holds. -/
def countIf (s : State) (c : Bool) (page : Nat) (f : Fd) : State := if c then s.count page f else s

/-- A completion on a tensor engine's page (03 R94, R95). -/
def noteTe (s : State) (o : Occ) (i : Nat) : State :=
  let p := pageNum .te i
  let ab := decide (o.code = stAborted)
  let s := (s.fset p TE.TE_LAST_STATUS_code o.code).fset p TE.TE_LAST_STATUS_flags
    (bitIf o.runSplit 1 + bitIf o.accInf 2 + bitIf o.poison 4)
  let s := (s.countIf (o.runSplit && !ab) p TE.TE_RUN_SPLIT_CNT_count).countIf (o.accInf && !ab) p TE.TE_ACC_INF_CNT_count
  let s := s.countIf (o.poison && !ab) p TE.TE_POISON_CNT_count
  let s := (s.event .te i TE.PAGE_EVT_done).eventIf o.runSplit .te i TE.PAGE_EVT_run_split
  let s := (s.eventIf o.accInf .te i TE.PAGE_EVT_acc_inf).eventIf o.poison .te i TE.PAGE_EVT_poison
  let s := s.eventIf (decide (stBadAddr ≤ o.code) && decide (o.code ≤ stNotLocal)) .te i TE.PAGE_EVT_bad_desc
  s.eventIf ab .te i TE.PAGE_EVT_aborted

/-- Vectors a VEC or NORM completion processed: none unless it completed with OK (DESIGN CHOICE,
notes/assumptions/100.md). -/
def vectorsOf (o : Occ) : Nat :=
  if o.code ≠ stOk then 0
  else if o.opcode = 0x03 then o.f 232 24 + 1
  else match o.ten 0 with
    | some t => (t.count + 1023) / 1024
    | none => 0

/-- A completion on the vector engine's page (07 R201), and an EXCHANGE's on the NORM page (08 R225). -/
def noteVe (s : State) (o : Occ) : State :=
  let p := pageNum .ve o.tile
  let s := (s.fset p VE.VE_LAST_STATUS_code o.code).setReg p VE.VE_LAST_FLAGS_word.off (BitVec.ofNat 32 o.uflags)
  let s := s.fset p VE.VE_FLAGS_flags (Nat.lor (s.fget p VE.VE_FLAGS_flags) (natBits o.uflags 0 6))
  let s := (s.addPair p VE.VE_VEC_CNT_LO_count (vectorsOf o)).addWrap p VE.VE_DESC_CNT_count 1
  let s := (s.event .ve o.tile VE.PAGE_EVT_done).eventIf (decide (natBits o.uflags 0 6 ≠ 0)) .ve o.tile VE.PAGE_EVT_flags
  let s := (s.eventIf o.poison .ve o.tile VE.PAGE_EVT_poison).eventIf (badDesc o.code) .ve o.tile VE.PAGE_EVT_bad_desc
  let s := s.eventIf (decide (o.code = stAborted)) .ve o.tile VE.PAGE_EVT_aborted
  if o.opcode = 0x18 ∧ o.subop = 3 then
    (s.addWrap (pageNum .norm 0) NORM.NORM_EXCH_CNT_count 1).event .norm 0 NORM.PAGE_EVT_exch_done
  else s

/-- A completion on the DMA's page (18 R463). -/
def noteDma (s : State) (o : Occ) : State :=
  let p := pageNum .dma o.tile
  let ab := decide (o.code = stAborted)
  let s := (s.fset p DMA.DMA_LAST_STATUS_code o.code).fset p DMA.DMA_LAST_STATUS_poison (bitIf o.poison 1)
  let s := (s.addWrap p DMA.DMA_DESC_CNT_count 1).countIf o.poison p DMA.DMA_POISON_CNT_count
  let s := (s.countIf ab p DMA.DMA_ABORT_CNT_count).event .dma o.tile DMA.PAGE_EVT_done
  let s := (s.eventIf o.poison .dma o.tile DMA.PAGE_EVT_poison).eventIf (badDesc o.code) .dma o.tile DMA.PAGE_EVT_bad_desc
  let s := s.eventIf ab .dma o.tile DMA.PAGE_EVT_aborted
  s.eventIf (decide (o.opcode = 0x09) && decide (0x20 ≤ o.code) && decide (o.code < 0x40)) .dma o.tile DMA.PAGE_EVT_peer

/-- A completion on its unit's page. -/
def noteUnit (s : State) (o : Occ) : State :=
  match o.unit with
  | .te e | .drain e => s.noteTe o (4 * o.tile + e)
  | .quad => (((s.noteTe o (4 * o.tile)).noteTe o (4 * o.tile + 1)).noteTe o (4 * o.tile + 2)).noteTe o (4 * o.tile + 3)
  | .ve => s.noteVe o
  | .dma => s.noteDma o
  | .rng => s.event .rng o.tile RNG.PAGE_EVT_done
  | .scale => s.event .scale o.tile SCALE.PAGE_EVT_done
  | .trail => s.event .trail 0 TRAIL.PAGE_EVT_done
  | _ => s

/-- Completes an occurrence: its status record, then its signal, then desc_evt (R148). -/
def completeOcc (s : State) (o : Occ) : State :=
  let p := tseqP o.tile
  let done := (s.qDone o.tile o.queue + 1) % 2 ^ 32
  let s := (s.dropOcc o.id).freeHead o
  let s := (s.setQReg o.tile o.queue 0x20 done).noteUnit o
  let s := s.tileStore o.tile (s.qSBase o.tile o.queue + 16 * s.slotOfCount o.tile o.queue o.count) (statusRecord o done) 16
  let s := s.noteDescError o
  let s := if o.code = stGated then (s.count p TSEQ.GATED_CNT_count).event .tseq o.tile TSEQ.PAGE_EVT_gated else s
  let s := if o.poison then s.event .tseq o.tile TSEQ.PAGE_EVT_poison else s
  let s := s.applySignal o
  if o.f 16 1 = 1 then s.event .tseq o.tile TSEQ.PAGE_EVT_desc_evt else s

/-- An earlier GATHER_AHEAD of the queue that is still open (09 R228, R229). -/
def earlierGather (s : State) (o : Occ) : Bool :=
  s.seq.occs.any fun x => decide (x.id < o.id) && decide (x.tile = o.tile) && decide (x.queue = o.queue) &&
    decide (x.opcode = 0x09)

/-- Ends an occurrence inside TSEQ: at once, or, for a GATHER_AHEAD, once the earlier ones have completed, and once its
status ring accepts the record; its queue goes on meanwhile (09 R228). -/
def endInTseq (s : State) (o : Occ) : State :=
  if (o.opcode = 0x09 ∧ s.earlierGather o) ∨ s.memOpen (s.qSBase o.tile o.queue) = false then (s.freeHead o).putOcc { o with place := .ended } else s.completeOcc o

/-! ### Moving past a slot (06 R158, R161) -/

/-- Leaves finished bodies: the next iteration begins, or the REPEAT's body has been issued. -/
def settle : Nat → QueueSt → QueueSt × List Nat
  | 0, x => (x, [])
  | n + 1, x =>
    match x.reps with
    | r :: rest =>
      if x.pos = r.slot + r.n + 1 then
        if r.iter + 1 < r.c then
          ({ x with reps := { r with iter := r.iter + 1 } :: rest, pos := r.slot + 1, fetched := [] }, [])
        else
          let y := settle n { x with reps := rest }
          (y.1, r.id :: y.2)
      else (x, [])
    | [] => (x, [])

/-- Marks REPEATs whose body has been issued whole. -/
def markTails (s : State) (ids : List Nat) : State :=
  let f (o : Occ) : Occ := if ids.contains o.id then { o with place := .tail } else o
  { s with seq := { s.seq with occs := s.seq.occs.map f } }

/-- Moves a queue past the slot just dispatched. -/
def passSlot (s : State) (t q : Nat) : State :=
  let x := s.queueOf t q
  let y := settle 5 { x with fetched := x.fetched.drop 1, pos := x.pos + 1 }
  (s.setQueue t q y.1).markTails y.2

/-! ### Fetch (06 R141, R142) -/

/-- Fetches the next released slot, or halts the queue at a poisoned one. -/
def fetchSlot (s : State) (t q : Nat) : State :=
  let x := s.queueOf t q
  let c := x.pos + x.fetched.length
  let a := s.qBase t q + 64 * s.slotOfCount t q c
  let bad := s.mem.poisonedN a 64
  let d := BitVec.ofNat 512 (s.mem.readN a 64)
  let s := s.tileTouch t a 64
  if bad then s.haltQueue t q stDescPoison (s.slotOfCount t q c)
  else s.setQueue t q { x with fetched := x.fetched ++ [⟨c, d⟩] }

/-- Whether TSEQ runs, and the stack of an occurrence's status ring accepts its record (05 R136; 15 R372). -/
def mayEnd (s : State) (o : Occ) : Bool := decide (s.pwrState ≤ 1) && s.memOpen (s.qSBase o.tile o.queue)

/-- Whether TSEQ may fetch for a queue: enabled, not halted, prefetch not full, a released slot left. -/
def mayFetch (s : State) (t q : Nat) : Bool :=
  let x := s.queueOf t q
  let left := (s.qTail t q + 2 ^ 32 - (x.pos + x.fetched.length) % 2 ^ 32) % 2 ^ 32
  decide (t < Member.tiles s.member) && decide (q < 8) && s.qEnabled t q && !s.qHalted t q &&
    decide (x.fetched.length < 16) && decide (0 < left) && decide (left ≤ s.qSlots t q) &&
    decide (s.fget 0 MODULE.FIREBREAK_state = 0) && decide (s.fget (pageNum .pwr 0) PWR.PAGE_STAT_state ≤ 1) &&
    s.memOpen (s.qBase t q)

/-! ### Dispatch (06 R145) -/

/-- The iteration indices and enclosing iterations of a queue's next descriptor (06 R160). -/
def itsOf (reps : List RepSt) : List Nat := (reps.map fun r => r.iter) ++ List.replicate (4 - reps.length) 0
def enclOf (reps : List RepSt) : List (Nat × Nat) := reps.map fun r => (r.id, r.iter)

/-- Tensor-table indices a descriptor names, for the reads of step 3. -/
def namedTds (d : BitVec 512) : List Nat :=
  let tdsAt (l : List Nat) : List Nat := l.map fun b => dbits d b 16
  match dbits d 0 8 with
  | 0x01 => tdsAt [192, 208, 224, 240, 256, 272, 288]
  | 0x02 => tdsAt [192, 208, 224, 240, 256]
  | 0x08 | 0x09 | 0x0A | 0x0B => tdsAt [192, 208]
  | 0x10 => tdsAt [192, 208, 224, 296]
  | 0x18 => tdsAt [192, 208, 224]
  | 0x19 => tdsAt [224]
  | 0x1A | 0x21 => tdsAt [192]
  | _ => []

/-- The read of a table entry, where there is one, counted as memory reads are. -/
def touchEntry (s : State) (t td : Nat) : State :=
  if td < s.tdCount t ∧ memRange s.member (s.tdEntry t td) 64 = true then s.tileTouch t (s.tdEntry t td) 64 else s

/-- The reads of the table entries of step 3. -/
def touchTds (s : State) (t : Nat) (d : BitVec 512) : State :=
  (dedup (namedTds d)).foldl (fun s td => s.touchEntry t td) s

/-- What the gate of a descriptor answers: a code (0 to execute), whether it read a poisoned word, and the byte read. -/
structure GateOut where
  code   : Nat
  poison : Bool
  read   : Option Nat
  deriving DecidableEq, Repr

/-- The gate (06 R156). -/
def gateOf (s : State) (t : Nat) (d : BitVec 512) (its : List Nat) : GateOut :=
  let td := dbits d 32 16
  let x := s.tensor t td its
  let g : Int := (dbits d 48 10 : Nat) + x.adv
  let a : Int := x.base + g / 8
  if td = 0xFFFF then ⟨stBadGeom, false, none⟩
  else if s.tdBad t td then ⟨stBadTd, s.tdPoison t td, none⟩
  else if !memAt s.member a then ⟨stBadAddr, false, none⟩
  else if !localAt t a then ⟨stNotLocal, false, none⟩
  else if s.mem.poisoned a.toNat then ⟨stGated, true, some a.toNat⟩
  else
    let bit := s.mem.bit a.toNat (g % 8).toNat
    ⟨if bit != (dbits d 18 1 == 1) then 0 else stGated, false, some a.toNat⟩

/-- The windows a VEC names (07 R172). -/
def namedWins (s : State) (t : Nat) (d : BitVec 512) : List Nat :=
  let wire (lo : Nat) : Bool := fmtWire (s.window t (dbits d lo 6)).fmt
  if dbits d 0 8 = 0x03 then dedup ((vecRoles d (wire 200) (wire 192)).map fun r => r.2.num) else []

/-- The reads of the window records of step 3, each counted as memory reads are. -/
def touchWins (s : State) (t : Nat) (d : BitVec 512) : State :=
  ((s.namedWins t d).filter fun n => memRange s.member (s.winEntry t n) 32).foldl
    (fun s n => s.tileTouch t (s.winEntry t n) 32) s

/-- The scale vector of a COLL, which step 3 reads to judge its values (row 17 of R466). -/
def touchScales (s : State) (t : Nat) (x : Option Tensor) : State :=
  match x with
  | some x =>
    (x.addrs.foldl (fun (s : State) a => s.stackBytes STK.STK_RD_BYTES_LO_count a.toNat 1)
      (s.touchReads (x.addrs.map fun a => (a.toNat, 1)))).crossFrom t (x.addrs.map fun a => (a.toNat, 1))
  | none => s

/-- The send counts of an ALLTOALL, which step 3 reads to add them up (10 R245). -/
def touchCounts (s : State) (t : Nat) (x : Option Tensor) : State :=
  match x with
  | some x => ((x.addrs.take (x.count / 2)).map Int.toNat).foldl (fun (s : State) a => s.tileTouch t a 4) s
  | none => s

/-- The reads of step 3 that its answer shows were made: table entries and window records come after the unit, opcode and
REPEAT rows of R466, an ALLTOALL's send counts and scale values at its end. -/
def touchStep3 (s : State) (t : Nat) (d : BitVec 512) (c : CheckOut) : State :=
  if c.code = stBadOpcode ∨ c.code = stNoUnit ∨ c.code = stBadRepeat then s
  else
    let s := (s.touchTds t d).touchWins t d
    let s := if dbits d 0 8 = 0x10 ∧ (c.code = 0 ∨ c.code = stBadOverlap ∨ c.code = stNoPeer ∨
        (c.code = stBadGeom ∧ c.poison = true)) then s.touchCounts t (c.tens.getD 3 none) else s
    if dbits d 0 8 = 0x10 ∧ (c.code = 0 ∨ c.code = stBadScale ∨ c.code = stNoPeer) then s.touchScales t (c.tens.getD 2 none) else s

/-- Steps 1 to 3 of a descriptor whose wait is satisfied, as the occurrence that leaves them. `code` 0 goes on to
step 4. -/
def judge (s : State) (t q : Nat) (d : BitVec 512) (its : List Nat) (gated : Bool) : State × CheckOut × Bool × Bool :=
  -- the state after the reads, the checks' answer, whether the gate is off, whether step 3 was reached
  let op := dbits d 0 8
  if dSigEn d ∧ Member.tiles s.member ≤ dSigTile d then (s, CheckOut.fail stBadSem, false, false)
  else if gated ∧ op ≠ 0x30 then (s, CheckOut.fail stGated, false, false)
  else
    let g : GateOut := if dbits d 17 1 = 1 ∧ !gated then s.gateOf t d its else ⟨0, false, none⟩
    let s := if dbits d 17 1 = 1 ∧ !gated then s.touchEntry t (dbits d 32 16) else s
    let s := match g.read with | some a => s.tileTouch t a 1 | none => s
    if g.code ≠ 0 ∧ ¬(g.code = stGated ∧ op = 0x30) then
      (s, { CheckOut.fail g.code with poison := g.poison }, false, false)
    else
      let c := checkDesc s t q d its
      (s.touchStep3 t d c, { c with poison := c.poison || g.poison }, gated || decide (g.code = stGated), true)

/-- Occurrences that a FENCE waits for (06 R149). -/
def fenceAwaits (s : State) (t q scope : Nat) : List Nat :=
  (s.seq.occs.filter fun o => decide (o.tile = t) && (decide (scope = 1) || decide (o.queue = q)) && s.awaiting o).map
    fun o => o.id

/-- The occurrence a dispatch begins with. One that ends in TSEQ writes unit_flags 0, also where a poisoned window record ends
it (DESIGN CHOICE, notes/assumptions/110.md). -/
def newOcc (s : State) (t q c : Nat) (d : BitVec 512) (reps : List RepSt) : Occ :=
  { id := s.seq.nextId, tile := t, queue := q, count := c, desc := d, its := itsOf reps, encl := enclOf reps,
    unit := .tseq, place := .checked, code := 0, runSplit := false, accInf := false, poison := false, uflags := 0,
    tens := [], wins := [], step := 0, exps := [], aux := [] }

/-- Whether a queue's next descriptor is a GATHER_AHEAD of a layer past the last (09 R228). -/
def layerOut (x : QueueSt) (d : BitVec 512) : Bool :=
  match x.reps with
  | r :: _ => decide (dbits d 0 8 = 0x09) && decide (r.c ≤ gaLayer d (itsOf x.reps))
  | [] => false

/-- The semaphore that a queue's head tests at step 1. -/
def headTests (s : State) (t q : Nat) : Option Nat :=
  let x := s.queueOf t q
  match x.fetched with
  | f :: _ => if dWaitEn f.desc && !layerOut x f.desc then some (dbits f.desc 64 12) else none
  | [] => none

/-- Whether the head may leave step 1. -/
def headReady (s : State) (t q : Nat) : Bool :=
  let x := s.queueOf t q
  match x.fetched with
  | f :: _ =>
    layerOut x f.desc || !dWaitEn f.desc ||
      waitOk (dbits f.desc 81 1 == 1) (s.sem t (dbits f.desc 64 12)) (dbits f.desc 96 32)
  | [] => false

/-- Whether a CLEARING of a queue waits in the snapshot unit's input, which holds the queue back (13 R328). -/
def clearingWaits (s : State) (t q : Nat) : Bool :=
  s.seq.occs.any fun o => decide (o.unit = .snap) && decide (o.place = .input) && decide (o.tile = t) && decide (o.queue = q)

/-- Whether a head stands at step 1 of a queue that dispatches, and may leave it. -/
def headGoes (s : State) (t q : Nat) : Bool :=
  s.qEnabled t q && !s.qHalted t q && decide ((s.queueOf t q).head = none) && !s.clearingWaits t q && s.headReady t q

/-- Whether a lower-numbered queue's head finds the same semaphore satisfying, and so tests it first (06 R151; that heads
found ready in one state are ready in one CCLK is DEDUCED, notes/assumptions/104.md). -/
def testsLater (s : State) (t q : Nat) : Bool :=
  (s.headTests t q).isSome && (List.range q).any fun p => s.headGoes t p && decide (s.headTests t p = s.headTests t q)

/-- Whether the memory that steps 2 and 3 of a queue's head read, and its status ring, accept accesses (05 R136). A
GATHER_AHEAD of a layer past the last reads none (09 R228). -/
def dispatchOpen (s : State) (t q : Nat) : Bool :=
  match (s.queueOf t q).fetched with
  | f :: _ =>
    let tables := !(namedTds f.desc).isEmpty || decide (dbits f.desc 17 1 = 1)
    let scales := [224, 296].all fun lo => (s.tensor t (dbits f.desc lo 16) (itsOf (s.queueOf t q).reps)).addrs.all
      fun a => s.memOpen a.toNat
    layerOut (s.queueOf t q) f.desc ||
      (s.memOpen (s.qSBase t q) && (!tables || s.memOpen (s.tdBase t)) &&
        (decide (dbits f.desc 0 8 ≠ 0x03) || s.memOpen (s.winBase t)) && (decide (dbits f.desc 0 8 ≠ 0x10) || scales))
  | [] => true

/-- Dispatches the head of a queue: wait, gate and checks in one step (06 R145; 09 R228). -/
def dispatchHead (s : State) (t q : Nat) : State :=
  let x := s.queueOf t q
  match x.fetched with
  | [] => s
  | f :: _ =>
    let d := f.desc
    let its := itsOf x.reps
    let early := layerOut x d
    let o := s.newOcc t q f.count d x.reps
    let s := { s with seq := { s.seq with nextId := s.seq.nextId + 1 } }
    let s := (s.addPair (tseqP t) TSEQ.DISP_CNT_LO_count 1).fset (tseqP t) (qfd TSEQ.Q_STAT_wait_long q) 0
    let s :=
      if !early && dWaitEn d && dbits d 82 1 == 1 then
        let n := dbits d 64 12
        s.setSem t n (s.sem t n + 2 ^ 32 - dbits d 96 32)
      else s
    if early then
      let o : Occ := { o with code := stGated }
      ((s.addOcc o).passSlot t q).endInTseq o
    else
      let j := s.judge t q d its (x.reps.any fun r => r.gated)
      let s : State := j.1
      let c : CheckOut := j.2.1
      let gatedRepeat := j.2.2.1
      let unit : UnitId := if j.2.2.2 then unitOf d else .tseq
      let o : Occ := { o with
        unit := unit, poison := c.poison, tens := c.tens, wins := c.wins, step := c.step, exps := c.exps, aux := c.aux }
      if c.code ≠ 0 then
        let o : Occ := { o with code := c.code }
        let s := ((s.addOcc o).passSlot t q).endInTseq o
        if c.code = stBadRepeat then s.haltQueue t q stBadRepeat (s.slotOfCount t q f.count) else s
      else
        let o : Occ := if o.opcode = 0x2A then { o with aux := s.fenceAwaits t q (o.f 192 1) } else o
        let o : Occ := if gatedRepeat then { o with code := stGated } else o
        let s := (s.addOcc o).passSlot t q
        s.setQueue t q { s.queueOf t q with head := some o.id }

/-! ### Hand-over (06 R144, R145, R147) -/

/-- Occurrences that wait in a unit's input. -/
def inputCount (s : State) (p : Occ → Bool) : Nat := (s.seq.occs.filter fun o => decide (o.place = .input) && p o).length

/-- Whether a unit's input has room for an occurrence. A quad MATMUL waits until no MATMUL of the tile is left on any
engine, and an engine takes no MATMUL while a quad MATMUL is (03 R67). -/
def hasRoom (s : State) (o : Occ) : Bool :=
  let onTile (u : UnitId) (x : Occ) : Bool := decide (x.tile = o.tile) && decide (x.unit = u)
  let isMul (x : Occ) : Bool :=
    match x.unit with | .te _ | .quad => decide (x.tile = o.tile) && decide (x.place ≠ .checked) | _ => false
  match o.unit with
  | .te e => decide (s.inputCount (onTile (.te e)) < 2) &&
      !(s.seq.occs.any fun x => isMul x && decide (x.unit = .quad))
  | .quad => !(s.seq.occs.any isMul)
  | .dma => decide (s.inputCount (onTile .dma) < 8)
  | .coll => decide (s.inputCount (onTile .coll) < 16)
  | .snap => decide (s.inputCount (fun x => decide (x.unit = .snap)) < 4)
  | .trail => decide (s.inputCount (fun x => decide (x.unit = .trail)) < 4)
  | u => decide (s.inputCount (onTile u) < 2)

/-- Whether the unit's page is quiesced against new work (03 R94, 07 R200, 08 R225, 18 R463). -/
def unitQuiesced (s : State) (o : Occ) : Bool :=
  let te (e : Nat) : Bool := s.flag (pageNum .te (4 * o.tile + e)) TE.PAGE_CTRL_quiesce
  match o.unit with
  | .te e | .drain e => te e
  | .quad => te 0 || te 1 || te 2 || te 3
  | .ve => s.flag (pageNum .ve o.tile) VE.PAGE_CTRL_quiesce
  | .dma => s.flag (pageNum .dma o.tile) DMA.PAGE_CTRL_quiesce
  | .rng => s.flag (pageNum .rng o.tile) RNG.PAGE_CTRL_quiesce
  | .scale => s.flag (pageNum .scale o.tile) SCALE.PAGE_CTRL_quiesce
  | _ => false

/-- Whether an occurrence runs on the tile clock that IDLE stops (15 R375). -/
def needsTclk (o : Occ) : Bool :=
  match o.unit with
  | .te _ | .drain _ | .quad | .ve => true
  | _ => false

/-- Moves an occurrence into its unit's input, as the latest handed over. -/
def handOver (s : State) (o : Occ) : State := ((s.dropOcc o.id).freeHead o).addOcc { o with place := .input }

/-- Whether a checked head may pass into its unit's input: there is room, nothing quiesces the unit, and TSEQ runs with the
firebreak open (06 R145 step 4; 14 R366; 15 R372). One that needs a collective context waits for its grant. -/
def mayHand (s : State) (o : Occ) : Bool :=
  decide (o.place = .checked) && decide (o.unit ≠ .tseq) && !needsContext o.desc && !s.unitQuiesced o && s.hasRoom o &&
    decide (s.pwrState ≤ 1) && !s.fireClosed

/-- Whether TSEQ serves queue `p` before queue `q`: a higher Q_CTRL.prio first, equal ones in round-robin order after the
queue served last (R146). -/
def servedBefore (s : State) (t p q : Nat) : Bool :=
  let prio (q : Nat) : Nat := s.fget (tseqP t) (qfd TSEQ.Q_CTRL_prio q)
  let turn (q : Nat) : Nat := (q + 15 - sparseGet (fun _ => 7) s.seq.served t) % 8
  decide (prio q < prio p) || (decide (prio q = prio p) && decide (turn p < turn q))

/-- Serves a queue: its head is handed over, and the round robin goes on after it (R146). -/
def serveQueue (s : State) (t q : Nat) (o : Occ) : State :=
  { s.handOver o with seq := { (s.handOver o).seq with served := sparsePut (fun _ => 7) t q (s.handOver o).seq.served } }

/-! ### Places of occurrences -/

/-- The occurrences of a unit on a tile, in the order of hand-over. -/
def unitOccs (s : State) (t : Nat) (u : UnitId) : List Occ :=
  s.seq.occs.filter fun o => decide (o.tile = t) && decide (o.unit = u) && decide (o.place ≠ .checked)

/-- Units that complete in start order (06 R147). -/
def inOrder : UnitId → Bool
  | .dma | .coll => false
  | _ => true

/-- The occurrence that a unit may start or carry on: the first that is not done, provided none before it is done. -/
def unitFront (s : State) (t : Nat) (u : UnitId) : Option Occ := (s.unitOccs t u).head?

end State

/-! ### The commands -/

/-- DESC_FETCH (06 R141, R142). -/
def execDescFetch (t q : Nat) (s : State) : Host.Outcome State Fault Refusal :=
  .next (if s.mayFetch t q then s.start.fetchSlot t q else s.start)

/-- DISPATCH (06 R145): nothing happens while the queue's head may not leave step 1. -/
def execDispatch (t q : Nat) (s : State) : Host.Outcome State Fault Refusal :=
  .next (if s.mayDispatch t && decide (q < 8) && s.headGoes t q && !s.testsLater t q && s.dispatchOpen t q then
      s.start.dispatchHead t q else s.start)

/-- NOP (06 R143): does nothing but complete. -/
def execNop (t q : Nat) (s : State) : Host.Outcome State Fault Refusal :=
  match s.headOcc t q with
  | some o => .next (if o.opcode = 0x00 ∧ s.mayEnd o = true then s.start.completeOcc o else s.start)
  | none => .next s.start

/-- WAIT (06 R151): completes once its wait field was satisfied, which DISPATCH saw to. -/
def execWait (t q : Nat) (s : State) : Host.Outcome State Fault Refusal :=
  match s.headOcc t q with
  | some o => .next (if o.opcode = 0x28 ∧ s.mayEnd o = true then s.start.completeOcc o else s.start)
  | none => .next s.start

/-- Whether every occurrence a FENCE awaits has completed. -/
def State.fenceDone (s : State) (o : Occ) : Bool := o.aux.all fun id => (s.occ id).isNone

/-- FENCE (06 R149): begins to wait, or completes when nothing is awaited. -/
def execFence (t q : Nat) (s : State) : Host.Outcome State Fault Refusal :=
  match s.headOcc t q with
  | some o =>
    .next (if o.opcode = 0x2A ∧ o.place = .checked ∧ s.mayEnd o = true then
        if s.fenceDone o then s.start.completeOcc o else s.start.putOcc { o with place := .waiting }
      else s.start)
  | none => .next s.start

/-- FENCE_COMPLETE (06 R149). -/
def execFenceComplete (t q : Nat) (s : State) : Host.Outcome State Fault Refusal :=
  match s.headOcc t q with
  | some o =>
    .next (if o.opcode = 0x2A ∧ o.place = .waiting ∧ s.fenceDone o = true ∧ s.mayEnd o = true then s.start.completeOcc o else s.start)
  | none => .next s.start

/-- REPEAT (06 R158): its body is issued from the next slot on. -/
def execRepeat (t q : Nat) (s : State) : Host.Outcome State Fault Refusal :=
  match s.headOcc t q with
  | some o =>
    .next (if o.opcode = 0x30 ∧ o.place = .checked ∧ s.pwrState ≤ 1 then
        let x := s.queueOf t q
        let r : RepSt := ⟨o.id, o.count, repN o.desc, repC o.desc, 0, decide (o.code = stGated)⟩
        (s.start.putOcc { o with place := .issuing }).setQueue t q { x with head := none, reps := r :: x.reps, whole := false }
      else s.start)
  | none => .next s.start

/-- Whether an occurrence belongs to the last iteration of a REPEAT. -/
def inLast (r : Occ) (o : Occ) : Bool := o.encl.any fun e => decide (e.1 = r.id) && decide (e.2 + 1 = repC r.desc)

/-- REPEAT_COMPLETE (06 R158, R157): the first REPEAT of the queue whose last iteration has completed. -/
def execRepeatComplete (t q : Nat) (s : State) : Host.Outcome State Fault Refusal :=
  match s.seq.occs.find? (fun o => decide (o.tile = t) && decide (o.queue = q) && decide (o.place = .tail) &&
      !(s.seq.occs.any fun x => inLast o x)) with
  | some o => .next (if s.mayEnd o then s.start.completeOcc o else s.start)
  | none => .next s.start

/-- Q_WAIT_LIMIT_EXPIRE (06 R170): the head has waited at step 1 beyond the limit. -/
def execQWaitLimitExpire (t q : Nat) (s : State) : Host.Outcome State Fault Refusal :=
  let x := s.queueOf t q
  let waits := match x.fetched with | f :: _ => dWaitEn f.desc && decide (x.head = none) && !s.headReady t q | [] => false
  .next (if waits && decide (s.fget (State.tseqP t) (qfd TSEQ.Q_WAIT_LIMIT_ms q) ≠ 0) && decide (s.pwrState ≤ 1) then
      (s.start.fset (State.tseqP t) (qfd TSEQ.Q_STAT_wait_long q) 1).event .tseq t TSEQ.PAGE_EVT_wait_long
    else s.start)

end Sys2Proof.Machine
end

