-- ==== Sys2Proof/Machine/PowerReq.lean ====
section
/-!
DEFINITION. Requests for a power state: started, absorbed, or placed in the pending slot (15 R373, R374).
-/
namespace Sys2Proof.Machine

namespace State

/-- The pages whose quiesce bit a request for SLEEP or deeper sets (R374). -/
def quiescePages (s : State) : List Nat := (List.range (Member.tiles s.member)).map (fun t => pageNum .tseq t) ++ [pageNum .coll 0]
def quiesceFd : Fd := ⟨0x008, 2, 1⟩

/-- Starts a transition. A request for SLEEP, DEEP or OFF sets the quiesce bits, keeping the old ones: for the return to
RUN, and, of a request from SLEEP, for its refusal. -/
def startMove (s : State) (target src : Nat) : State :=
  let from' := s.pwrState
  let s := (s.fset pwrP PWR.PAGE_STAT_moving 1).fset pwrP PWR.PAGE_STAT_target target
  let s : State := { s with pwr := { s.pwr with src := src, left := from' } }
  if 2 ≤ target then
    let old := s.quiescePages.map fun p => (p, s.fget p quiesceFd)
    let s : State := { s with pwr := (if from' = 2 then { s.pwr with savedLow := old } else { s.pwr with saved := old }) }
    s.quiescePages.foldl (fun s p => s.fset p quiesceFd 1) s
  else s

/-- Restores the quiesce bits that a request set, for RUN or IDLE. -/
def restoreQuiesce (s : State) : State :=
  let s' := s.pwr.saved.foldl (fun s x => s.fset x.1 quiesceFd x.2) s
  { s' with pwr := { s'.pwr with saved := [], savedLow := [] } }

/-- Restores the quiesce bits as a refused request found them: those of RUN and IDLE, or those of SLEEP (R374). -/
def refuseQuiesce (s : State) : State :=
  if s.pwrState ≤ 1 then s.restoreQuiesce
  else
    let s' := s.pwr.savedLow.foldl (fun s x => s.fset x.1 quiesceFd x.2) s
    { s' with pwr := { s'.pwr with savedLow := [] } }

/-- A request for a power state from a source (R373). -/
def pwrRequest (s : State) (target src : Nat) : State :=
  if s.pwrMoving then
    if target = s.pwrTarget then s.event .pwr 0 PWR.PAGE_EVT_req_absorbed
    else
      let s := if s.flag pwrP PWR.PAGE_STAT_pend_valid then s.event .pwr 0 PWR.PAGE_EVT_req_replaced else s
      let s := (s.fset pwrP PWR.PAGE_STAT_pend_valid 1).fset pwrP PWR.PAGE_STAT_pending target
      { s with pwr := { s.pwr with pendSrc := src } }
  else if target = s.pwrState then s
  else s.startMove target src

/-- A descriptor held in IDLE requests RUN (R375), where wake source 7 is enabled (R378). -/
def wakeForWork (s : State) : State :=
  if s.flag pwrP PWR.PWR_CFG_auto_idle then s.pwrRequest 0 7 else s

end State

end Sys2Proof.Machine
end

