-- ==== Sys2Proof/Machine/Scale.lean ====
section
/-!
DEFINITION. SCALE: the tensor slots, the scale rule and the watcher's export (08 R213 to R219).
-/
namespace Sys2Proof.Machine

def scaleSlot (o : Occ) : Nat := o.f 192 12
def scaleCount (o : Occ) : Nat := o.f 208 13
def scaleMerge (o : Occ) : Bool := o.f 240 1 == 1
def scaleClear (o : Occ) : Bool := o.f 241 1 == 1

/-- The slots a SCALE acts on, each with its place in the tensor. -/
def scaleSlots (o : Occ) : List (Nat × Nat) := (List.range (scaleCount o)).map fun i => (i, scaleSlot o + i)

namespace State

/-- Changes a slot on every present tile. -/
def onTiles (s : State) (slot : Nat) (f : Slot → Slot) : State :=
  (List.range (Member.tiles s.member)).foldl (fun (s : State) t => s.setSlot t slot (f (s.slotOf t slot))) s

end State

/-- The largest history entry (08 R216): entries are nonnegative, so their codes order as their values. -/
def Slot.hmax (x : Slot) : Nat := x.hist.foldl max 0

/-- The largest integer e with H × 2^e ≤ T, for a nonzero H; a number beyond the limits on the side of a T that no
integer fits. -/
def scaleFit (h t : Nat) : Int :=
  match val32 h, val32 t with
  | .fin _ mh eh, .fin false mt et =>
    if mt = 0 then -1000
    else
      let e := topExp mt et - topExp mh eh
      if Val.lt (.fin false mt et) ((Val.fin false mh eh).scale2 e) then e - 1 else e
  | _, .inf false => 1000
  | _, _ => -1000

/-- The new exponent and whether it was clamped (08 R216). -/
def scaleRule (h t : Nat) (old : Int) : Int × Bool :=
  if h = 0 then (old, false)
  else
    let e := scaleFit h t
    if e < -80 then (-80, true) else if 80 < e then (80, true) else (e, false)

/-- The slot after a push of an accepted amax. -/
def Slot.push (x : Slot) (a : Nat) : Slot :=
  let i := (x.hidx + 1) % 16
  let y : Slot := { x with hidx := i, hist := x.hist.set i a }
  { y with exp := (scaleRule y.hmax y.target y.exp).1 }

/-- Whether a push clamps. -/
def Slot.pushClamps (x : Slot) (a : Nat) : Bool :=
  let y : Slot := { x with hist := x.hist.set ((x.hidx + 1) % 16) a }
  (scaleRule y.hmax y.target y.exp).2

/-- An amax that PUSH stores: +0 for −0; none for a negative number, NaN or Inf. -/
def pushable (code : Nat) : Option Nat :=
  if code = 0x80000000 then some 0 else if code < 0x7F800000 then some code else none

/-- A slot's 80-byte record (08 R215). -/
def Slot.record (x : Slot) : Nat :=
  x.hist.foldr (fun h n => h + 2 ^ 32 * n) 0 + x.target * 2 ^ 512 + x.amax * 2 ^ 544 + codeOf 8 x.exp * 2 ^ 576 +
    x.hidx * 2 ^ 584

/-- A slot as LOAD sets it from a record. -/
def Slot.ofRecord (w : Nat) : Slot :=
  { hist := (List.range 16).map fun i => natBits w (32 * i) 32, hidx := natBits w 584 4, target := natBits w 512 32,
    exp := signedOf 8 (natBits w 576 8), amax := 0 }

/-- EXPORT (08 R215). -/
def scaleExport (s : State) (o : Occ) (x : Tensor) : State :=
  let es := (scaleSlots o).zip (x.addrs.map Int.toNat)
  let outs := es.map fun e =>
    let a := (s.slotOf o.tile e.1.2).amax
    if scaleMerge o then
      WElem.mk e.2 4 (fp32Fmt.ofVal (valMax (val32 (s.mem.code 2 e.2)) (val32 a))) (s.mem.poisonedN e.2 4)
    else WElem.mk e.2 4 a false
  let s := if scaleMerge o then s.touchReads (es.map fun e => (e.2, 4)) else s
  let meets := s.mem.writeMeetsPoison (wElems outs)
  let s := s.store (wElems outs)
  let s := if scaleClear o then
      (scaleSlots o).foldl (fun (s : State) e => s.setSlot o.tile e.2 { s.slotOf o.tile e.2 with amax := 0 }) s
    else s
  s.putOcc { o with place := .done, poison := o.poison || meets || outs.any fun w => w.poison }

/-- One slot of a PUSH (08 R216): clamps and refused values are counted on the issuing tile's page. -/
def pushSlot (t slot code : Nat) (poison : Bool) (s : State) : State :=
  let p := pageNum .scale t
  match if poison then none else pushable code with
  | none => (s.count p SCALE.BAD_AMAX_CNT_count).event .scale t SCALE.PAGE_EVT_bad_amax
  | some a =>
    let clamps := (s.slotOf t slot).pushClamps a
    let s := s.onTiles slot fun x => x.push a
    if clamps then
      let s := if s.flag p SCALE.FIRST_CLAMP_valid then s
        else (s.fset p SCALE.FIRST_CLAMP_slot slot).fset p SCALE.FIRST_CLAMP_valid 1
      (s.count p SCALE.CLAMP_CNT_count).event .scale t SCALE.PAGE_EVT_clamp
    else s

/-- PUSH (08 R216). -/
def scalePush (s : State) (o : Occ) (x : Tensor) : State :=
  let es := (scaleSlots o).zip (x.addrs.map fun a => (s.mem.code 2 a.toNat, s.mem.poisonedN a.toNat 4))
  let s := s.touchReads (x.addrs.map fun a => (a.toNat, 4))
  let s := es.foldl (fun (s : State) e => pushSlot o.tile e.1.2 e.2.1 e.2.2 s) s
  s.putOcc { o with place := .done, poison := o.poison || es.any fun e => e.2.2 }

/-- SET_TARGET (08 R215). -/
def scaleSetTarget (s : State) (o : Occ) (x : Tensor) : State :=
  let es := (scaleSlots o).zip (x.addrs.map fun a => (s.mem.code 2 a.toNat, s.mem.poisonedN a.toNat 4))
  let s := s.touchReads (x.addrs.map fun a => (a.toNat, 4))
  let poison := es.any fun e => e.2.2
  let bad := es.any fun e => e.2.2 || decide (e.2.1 = 0) || decide (0x7F800000 ≤ e.2.1)
  if bad then s.putOcc { o with place := .done, code := stBadScale, poison := o.poison || poison }
  else
    let s := es.foldl (fun (s : State) e => s.onTiles e.1.2 fun y => { y with target := e.2.1 }) s
    s.putOcc { o with place := .done }

/-- SAVE (08 R215). -/
def scaleSave (s : State) (o : Occ) (x : Tensor) : State :=
  let bytes := (scaleSlots o).flatMap fun e => wbytes (x.base + 80 * e.1) (s.slotOf o.tile e.2).record false 80
  let meets := s.mem.writeMeetsPoison bytes
  (s.store bytes).putOcc { o with place := .done, poison := o.poison || meets }

/-- LOAD (08 R215). -/
def scaleLoad (s : State) (o : Occ) (x : Tensor) : State :=
  let es := (scaleSlots o).map fun e =>
    (e.2, s.mem.readN (x.base + 80 * e.1) 80, s.mem.poisonedN (x.base + 80 * e.1) 80)
  let s := s.touchReads [(x.base, 80 * scaleCount o)]
  let s := es.foldl (fun (s : State) e => if e.2.2 then s else s.onTiles e.1 fun _ => Slot.ofRecord e.2.1) s
  s.putOcc { o with place := .done, poison := o.poison || es.any fun e => e.2.2 }

/-- WATCH_EXPORT (08 R215, R219). -/
def scaleWatchExport (s : State) (o : Occ) (x : Tensor) : State :=
  let bytes := (scaleSlots o).flatMap fun e =>
    wbytes (x.base + 48 * e.1) ((s.watchOf o.tile e.2).foldr (fun c n => c + 2 ^ 64 * n) 0) false 48
  let meets := s.mem.writeMeetsPoison bytes
  let s := s.store bytes
  let s := if scaleClear o then (scaleSlots o).foldl (fun (s : State) e => s.setWatch o.tile e.2 watchZero) s else s
  s.putOcc { o with place := .done, poison := o.poison || meets }

namespace State

/-- The SCALE that a tile's unit acts on next: the first handed over that it has not done, which its soft reset ends
(08 R225). -/
def scaleFront (s : State) (t : Nat) : Option Occ :=
  (s.unitOccs t .scale).find? fun o => decide (o.place = .input)

/-- Runs the SCALE in front when it has this subop. -/
def runScale (s : State) (t sub : Nat) (f : State → Occ → Tensor → State) : State :=
  match s.scaleFront t with
  | some o =>
    if o.subop = sub ∧ s.domainOn .scale t = true then
      match o.ten 0 with
      | some x => f s o x
      | none => s
    else s
  | none => s

end State

/-- SCALE_EXPORT (08 R215). -/
def execScaleExport (t : Nat) (s : State) : Host.Outcome State Fault Refusal := .next (s.start.runScale t 1 scaleExport)
/-- SCALE_PUSH (08 R216). -/
def execScalePush (t : Nat) (s : State) : Host.Outcome State Fault Refusal := .next (s.start.runScale t 2 scalePush)
/-- SCALE_SET_TARGET (08 R215). -/
def execScaleSetTarget (t : Nat) (s : State) : Host.Outcome State Fault Refusal :=
  .next (s.start.runScale t 3 scaleSetTarget)
/-- SCALE_SAVE (08 R215). -/
def execScaleSave (t : Nat) (s : State) : Host.Outcome State Fault Refusal := .next (s.start.runScale t 4 scaleSave)
/-- SCALE_LOAD (08 R215). -/
def execScaleLoad (t : Nat) (s : State) : Host.Outcome State Fault Refusal := .next (s.start.runScale t 5 scaleLoad)
/-- SCALE_WATCH_EXPORT (08 R219). -/
def execScaleWatchExport (t : Nat) (s : State) : Host.Outcome State Fault Refusal :=
  .next (s.start.runScale t 6 scaleWatchExport)

end Sys2Proof.Machine
end

