-- ==== Sys2Proof/Machine/Dma.lean ====
section
/-!
DEFINITION. The tile DMA: MOVE, STASH and UNSTASH (06 R169, 09 R233, 18 R463).
-/
namespace Sys2Proof.Machine

/-- A copied or converted element: its write, its watcher class when counted, its poison. -/
structure MoveElem where
  w   : WElem
  cls : Option Nat
  deriving DecidableEq, Repr

/-- One element of a MOVE: equal formats copy bits, others convert under CVT with the word of position `pos`. -/
def moveElem (mem : MemSt) (c : Cvt) (key step sf df sa da pos : Nat) : MoveElem :=
  let code := mem.code sf sa
  let poison := mem.poisonedN sa (fmtSize sf)
  if sf = df then ⟨⟨da, fmtSize df, code, poison⟩, none⟩
  else
    let r := convertFmt df 0 (c.mode key step pos) c.ieee (decodeFmt sf 0 code)
    ⟨⟨da, fmtSize df, r.code, poison⟩, if poison then none else some (watchClass df r false)⟩

namespace State

/-- Occurrences that hold an execution slot of a DMA: started and not complete. -/
def dmaActive (s : State) (t : Nat) : List Occ :=
  s.seq.occs.filter fun o => decide (o.tile = t) && decide (o.unit = .dma) &&
    (decide (o.place = .running) || decide (o.place = .done))
def dmaInput (s : State) (t : Nat) : List Occ :=
  s.seq.occs.filter fun o => decide (o.tile = t) && decide (o.unit = .dma) && decide (o.place = .input)

/-- Whether the stacks an occurrence's tensors lie in accept accesses (05 R136). -/
def tensOpen (s : State) (o : Occ) : Bool :=
  o.tens.all fun t => match t with | some t => t.addrs.all (fun a => s.memOpen a.toNat) | none => true

/-- The descriptor the DMA may start next: the oldest in its input, while a slot is free. -/
def dmaFront (s : State) (t : Nat) : Option Occ :=
  if (s.dmaActive t).length < 4 then
    match (s.dmaInput t).head? with
    | some o => if s.tensOpen o then some o else none
    | none => none
  else none

/-- Counts the bytes that stacks moved for a tensor's elements. -/
def stackElems (s : State) (f : Fd) (t : Tensor) : State :=
  t.addrs.foldl (fun (s : State) a => s.stackBytes f a.toNat t.size) s

/-- Copies `src` to `dst`; stochastic rounding takes its position from `post` (06 R169, 09 R233). -/
def moveRun (s : State) (o : Occ) (src dst post : Tensor) (cvt : Nat) : State :=
  let c := Cvt.ofWord cvt
  let key := s.jobKey o.tile
  let es := ((src.addrs.zip dst.addrs).zip post.positions).map fun x =>
    moveElem s.mem c key o.step src.fmt dst.fmt x.1.1.toNat x.1.2.toNat x.2
  let bytes := wElems (es.map fun e => e.w)
  let reads := src.addrs.map fun a => (a.toNat, src.size)
  let s := (s.touchReads reads).stackElems STK.STK_RD_BYTES_LO_count src
  let s := s.crossFrom o.tile (reads ++ dst.addrs.map fun a => (a.toNat, dst.size))
  let meets := s.mem.writeMeetsPoison bytes
  let s := (s.store bytes).stackElems STK.STK_WR_BYTES_LO_count dst
  let s := if dst.slotEn then s.watchAdd o.tile dst.slot (es.filterMap fun e => e.cls) else s
  let p := pageNum .dma o.tile
  let s := (s.addPair p DMA.DMA_RD_BYTES_LO_count (src.count * src.size)).addPair p DMA.DMA_WR_BYTES_LO_count
    (dst.count * dst.size)
  s.putOcc { o with place := .done, poison := o.poison || meets || es.any fun e => e.w.poison }

/-- Runs the descriptor the DMA may start when it has this opcode. -/
def runMove (s : State) (t op : Nat) : State :=
  match s.dmaFront t with
  | some o =>
    match o.ten 0, o.ten 1 with
    | some src, some dst =>
      if o.opcode = op ∧ s.domainOn .dma t = true then
        s.moveRun o src dst (if op = 0x0B then src else dst) (if op = 0x08 then o.f 224 32 else o.f 256 32)
      else s
    | _, _ => s
  | none => s

end State

/-- MOVE (06 R169); `upsets` are stored bits that flipped before its reads (05 R112 to R116). -/
def execMove (t : Nat) (upsets : List (Nat × Nat)) (s : State) : Host.Outcome State Fault Refusal :=
  .next ((s.start.upset upsets).runMove t 0x08)
/-- STASH (09 R233). -/
def execStash (t : Nat) (s : State) : Host.Outcome State Fault Refusal := .next (s.start.runMove t 0x0A)
/-- UNSTASH (09 R233). -/
def execUnstash (t : Nat) (s : State) : Host.Outcome State Fault Refusal := .next (s.start.runMove t 0x0B)

end Sys2Proof.Machine
end

