-- ==== Sys2Proof/Machine/Crc.lean ====
section
/-!
DEFINITION. CRC-32C (12 R315): Castagnoli polynomial 0x1EDC_6F41 taken bit-reversed, initial value and final XOR
0xFFFF_FFFF.
-/
namespace Sys2Proof.Machine

/-- One bit. -/
def crcBit (c : Nat) : Nat := if c % 2 = 1 then Nat.xor (c / 2) 0x82F63B78 else c / 2
/-- One byte. -/
def crcByte (c b : Nat) : Nat := crcBit (crcBit (crcBit (crcBit (crcBit (crcBit (crcBit (crcBit (Nat.xor c b))))))))
/-- The CRC-32C of a byte string. -/
def crc32c (bs : List Nat) : Nat := Nat.xor (bs.foldl crcByte 0xFFFFFFFF) 0xFFFFFFFF

end Sys2Proof.Machine
end

