-- ==== Sys2Proof/Machine/Net.lean ====
section
/-!
DEFINITION. Channels, ports, routes, frames, replay and credit (12 R301 to R322), with the commands TRAIN_SEND,
TRAIN_RECEIVE, FEC_DECODER_LOCK, FRAME_TRANSMIT, FRAME_INCOMPLETE_TIMEOUT, ACK_TIMER, REPLAY_TIMEOUT, PORT_DOWN_END,
PORT_FAILOVER and PORT_FAILBACK.
-/
namespace Sys2Proof.Machine

/-! ### Channel and port tables (12 R307) -/

def chReset : ChSt := ⟨false, none, 0, false, false⟩
def portReset : PortSt :=
  ⟨0, 0, false, [], [], [], List.replicate 8 0, List.replicate 8 0, 2, 0, false, none, [], [], [], [], false⟩

/-- A port entry (Port entry). -/
structure PortEntry where
  peer   : Nat
  mask   : Nat
  valid  : Bool
  transit : Bool
  weight : Nat
  deriving DecidableEq, Repr

def PortEntry.ofBits (w : Nat) : PortEntry :=
  ⟨natBits w 0 16, natBits w 16 8, natBits w 24 1 == 1, natBits w 25 1 == 1, natBits w 32 32⟩

/-- Whether a VC mask holds a VC. -/
def vcIn (mask vc : Nat) : Bool := natBits mask vc 1 == 1

def PlanTab.port (p : PlanTab) (i : Nat) : PortEntry := PortEntry.ofBits (p.ports.getD i 0)
def PlanTab.txPort (p : PlanTab) (l k : Nat) : Nat := natBits (p.chans.getD (16 * l + k) 0xFFFF0000) 16 8
def PlanTab.rxPort (p : PlanTab) (l k : Nat) : Nat := natBits (p.chans.getD (16 * l + k) 0xFFFF0000) 24 8

namespace State

def linkP (l : Nat) : Nat := pageNum .link l
def pechP (l : Nat) : Nat := pageNum .pech l
def peP (p : Nat) : Nat := pageNum .pe p
def planP : Nat := pageNum .plan 0
def routeP : Nat := pageNum .route 0

def rank (s : State) : Nat := s.fget 0 MODULE.COORD_rank
def coordValid (s : State) : Bool := s.flag 0 MODULE.PAGE_STAT_coord_valid
def epoch (s : State) : Nat := s.fget planP PLAN.PLAN_EPOCH_epoch
def fenced (s : State) : Bool := decide (s.fget 0 MODULE.FIREBREAK_state = 2)

/-- A per-channel field of a PECH page. -/
def chGet (s : State) (l k : Nat) (f : Fd) : Nat := s.fget (pechP l) (f.plus (16 * k))
def chSet (s : State) (l k : Nat) (f : Fd) (v : Nat) : State := s.fset (pechP l) (f.plus (16 * k)) v

def chOf (s : State) (l k : Nat) : ChSt := sparseGet (fun _ => chReset) s.net.chans (16 * l + k)
def setCh (s : State) (l k : Nat) (c : ChSt) : State :=
  { s with net := { s.net with chans := sparsePut (fun _ => chReset) (16 * l + k) c s.net.chans } }
def portOf (s : State) (p : Nat) : PortSt := sparseGet (fun _ => portReset) s.net.ports p
def setPort (s : State) (p : Nat) (x : PortSt) : State :=
  { s with net := { s.net with ports := sparsePut (fun _ => portReset) p x s.net.ports } }

/-- The valid port entry of a number; none before a plan is in force. -/
def portEntry (s : State) (p : Nat) : Option PortEntry :=
  match s.net.plan with
  | some t => if p < 255 ∧ (t.port p).valid then some (t.port p) else none
  | none => none

def txPort (s : State) (l k : Nat) : Nat := match s.net.plan with | some t => t.txPort l k | none => 0xFF
def rxPort (s : State) (l k : Nat) : Nat := match s.net.plan with | some t => t.rxPort l k | none => 0xFF
def portPeer (s : State) (p : Nat) : Option Nat := (s.portEntry p).map fun e => e.peer

/-! ### Which channels carry (12 R302, R304, R305; 11 R277, R299) -/

/-- Whether a link may train and carry: never before the start-up has ended (16 R412). -/
def linkOn (s : State) (l : Nat) : Bool :=
  Member.link s.member l && s.coordValid && s.flag (linkP l) LINK.PAGE_CTRL_enable &&
    s.flag (peP (l / 8)) PE.PAGE_CTRL_enable && s.flag (pechP l) PECH.PAGE_CTRL_enable && !s.fenced &&
    decide (s.pwrState ≤ 1) && s.flag 0 MODULE.PAGE_STAT_ready && s.domainOn .link l

def txLocked (s : State) (l k : Nat) : Bool :=
  decide (s.chGet l k PECH.CH_STAT_sel = 4) && decide (s.chGet l k PECH.CH_STAT_mod = 4)
def rxLocked (s : State) (l k : Nat) : Bool := decide (s.chGet l k PECH.CH_STAT_drop = 4)
def txEn (s : State) (l k : Nat) : Bool := decide (s.chGet l k PECH.CH_CTRL_tx_en = 1)
def rxEn (s : State) (l k : Nat) : Bool := decide (s.chGet l k PECH.CH_CTRL_rx_en = 1)

/-- Whether the last training record of a channel is that of the peer and line the plan expects, at the epoch in
force. -/
def trained (s : State) (l k : Nat) : Bool :=
  match (s.chOf l k).train with
  | some r =>
    decide ((s.chOf l k).bad = 0) && decide (r.epoch = s.epoch) && decide (s.epoch ≠ 0) &&
      decide (r.txLine = s.chGet l k PECH.CH_CTRL_rx_line) &&
      (match s.portPeer (s.rxPort l k) with | some p => decide (r.rank = p) | none => decide (s.rxPort l k = 0xFF))
  | none => false

/-- Whether a global link is barred: a channel's peer reports the own grove (R303). -/
def barred (s : State) (l : Nat) : Bool := decide (24 ≤ l) && (List.range 16).any fun k => decide ((s.chOf l k).bad = 7)

/-- Whether a thermal hold has left a ring to show its pilot on its target before its channel carries again (11 R284). -/
def ringProven (s : State) (l k r : Nat) : Bool :=
  s.flag (peP (l / 8)) PE.PAGE_STAT_hold || !s.optics.unproved.contains (64 * l + 4 * k + r)

/-- Whether a channel side carries: its rings, its decoder, and a record received on the channel's receive side all allow
it (R304), since the last retraining of the side. -/
def rxCarry (s : State) (l k : Nat) : Bool :=
  s.linkOn l && !s.barred l && s.rxEn l k && s.rxLocked l k && s.ringProven l k 2 && (s.chOf l k).fec && s.trained l k &&
    !(s.chOf l k).rxHold && decide (s.rxPort l k ≠ 0xFF)
def txCarry (s : State) (l k : Nat) : Bool :=
  s.linkOn l && !s.barred l && s.txEn l k && s.txLocked l k && s.ringProven l k 0 && (s.chOf l k).fec && s.trained l k &&
    !(s.chOf l k).txHold && !s.flag (pechP l) PECH.PAGE_STAT_probing

/-- All (link, channel) pairs, links and channels ascending. -/
def allChans : List (Nat × Nat) := (List.range 40).flatMap fun l => (List.range 16).map fun k => (l, k)

/-- The channels of a port's transmit and receive sets. -/
def txSet (s : State) (p : Nat) : List (Nat × Nat) := allChans.filter fun x => decide (s.txPort x.1 x.2 = p)
def rxSet (s : State) (p : Nat) : List (Nat × Nat) := allChans.filter fun x => decide (s.rxPort x.1 x.2 = p)
/-- The carrying transmit channels of a port. -/
def txUp (s : State) (p : Nat) : List (Nat × Nat) := (s.txSet p).filter fun x => s.txCarry x.1 x.2
def rxUp (s : State) (p : Nat) : List (Nat × Nat) := (s.rxSet p).filter fun x => s.rxCarry x.1 x.2

/-- Whether a link may start a new frame (11 R284, R299; 12 R323). -/
def mayStart (s : State) (l : Nat) : Bool :=
  !s.flag (linkP l) LINK.PAGE_CTRL_quiesce && !s.flag (pechP l) PECH.PAGE_CTRL_quiesce &&
    !s.flag (peP (l / 8)) PE.PAGE_CTRL_quiesce && !s.flag (peP (l / 8)) PE.PAGE_STAT_hold

/-- The link that a port's events are shown on: its first. -/
def firstLink (s : State) (p : Nat) : Nat := (((s.txSet p) ++ (s.rxSet p)).map (·.1)).foldl min 39

/-! ### Routes (12 R311, R312) -/

/-- The ports that a (destination, VC) has, in the places of its route entry: primary, alt1, alt2; 0xFF for none. Without an
entry, the valid port to the destination. -/
def routeList (s : State) (dest vc : Nat) : List Nat :=
  match s.net.plan with
  | none => []
  | some t =>
    match t.routes.find? fun r => decide (natBits r 0 16 = dest) && vcIn (natBits r 16 8) vc with
    | some r => [natBits r 24 8, natBits r 32 8, natBits r 40 8]
    | none =>
      ((List.range 255).filter fun p => (t.port p).valid && decide ((t.port p).peer = dest) && vcIn (t.port p).mask vc).take 1
/-- The ports it may use, first to last. -/
def routePorts (s : State) (dest vc : Nat) : List Nat := (s.routeList dest vc).filter fun p => decide (p ≠ 0xFF)

/-- The place of the port that a stream uses now: where it has moved to, else the first that lists a port. -/
def routeWhich (s : State) (dest vc : Nat) : Nat :=
  let w := sparseGet (fun _ => 0) s.net.moved (8 * dest + vc)
  let ps := s.routeList dest vc
  if ps.getD w 0xFF ≠ 0xFF then w else ps.findIdx fun p => decide (p ≠ 0xFF)
def setWhich (s : State) (dest vc w : Nat) : State :=
  { s with net := { s.net with moved := sparsePut (fun _ => 0) (8 * dest + vc) w s.net.moved } }
def routeOf (s : State) (dest vc : Nat) : Option Nat := (s.routeList dest vc)[s.routeWhich dest vc]?
/-- The place of the next port listed after the one in use, the first following the last. -/
def nextWhich (s : State) (dest vc : Nat) : Option Nat :=
  let n := (s.routeList dest vc).length
  ((List.range n).map fun i => (s.routeWhich dest vc + 1 + i) % n).find? fun w =>
    decide ((s.routeList dest vc).getD w 0xFF ≠ 0xFF)

/-- Whether a port can carry in the transmit direction. -/
def portCanCarry (s : State) (p : Nat) : Bool := !(s.txUp p).isEmpty && !(s.portOf p).down

end State

/-! ### Frames (12 R315) -/

/-- Whether a type is link control, and whether it is in the table. -/
def linkControl (t : Nat) : Bool := decide (16 ≤ t)
def frameType (t : Nat) : Bool := decide (t ≤ 10) || (decide (16 ≤ t) && decide (t ≤ 19))

/-- The header as sent. -/
def Frame.header (f : Frame) : BitVec 256 :=
  BitVec.ofNat 256 (f.dst % 2 ^ 16 + f.src % 2 ^ 16 * 2 ^ 16 + f.hopSrc % 2 ^ 16 * 2 ^ 32 + f.vc % 8 * 2 ^ 48 +
    f.typ % 32 * 2 ^ 51 + f.seq % 2 ^ 24 * 2 ^ 56 + f.poison.toNat * 2 ^ 80 + f.last.toNat * 2 ^ 81 +
    f.transit.toNat * 2 ^ 82 + f.fanout.toNat * 2 ^ 83 + f.replay.toNat * 2 ^ 84 + f.reserved % 8 * 2 ^ 85 +
    f.ttl % 256 * 2 ^ 88 + f.coll % 2 ^ 32 * 2 ^ 96 + f.bucket % 2 ^ 16 * 2 ^ 128 + f.len % 2 ^ 13 * 2 ^ 144 +
    f.reserved / 8 % 8 * 2 ^ 157 + f.offset % 2 ^ 32 * 2 ^ 160 + f.ack % 2 ^ 24 * 2 ^ 192 + f.ackValid.toNat * 2 ^ 216 +
    f.reserved / 64 % 2 ^ 39 * 2 ^ 217)

/-- Whether a type carries such a payload. -/
def payloadFits (t : Nat) : Payload → Bool
  | .none => decide (t = 2) || decide (t = 4) || decide (t = 5) || decide (t = 9) || decide (t = 16) || decide (t = 17) ||
      decide (t = 18)
  | .data .. | .barrier .. | .verdict .. | .pair .. | .slotPart .. | .trailPart .. | .slotAck .. | .trailRec ..
  | .trailAck .. | .restoreReq .. | .restoreSlot .. | .restoreTrail .. => decide (t = 0)
  | .openRec _ => decide (t = 1)
  | .nak _ => decide (t = 3)
  | .closeFwd .. | .closeBack _ => decide (t = 6)
  | .signal .. => decide (t = 7)
  | .signalAck .. => decide (t = 8)
  | .heartbeat | .lost .. => decide (t = 9)
  | .mgmt _ => decide (t = 10)
  | .train _ => decide (t = 19)

/-- Payload bytes: a poisoned payload fills the 4 KiB, its map in the last 64 bytes (10 R252). The lengths of records
whose layout the spec does not give are the model's. -/
def Payload.len : Payload → Nat
  | .none | .heartbeat => 0
  | .data b p | .slotPart _ _ b p | .restoreSlot _ b p => if p.any id then 4096 else b.length
  | .mgmt b | .trailPart _ b | .trailRec _ b | .restoreTrail _ b => b.length
  | _ => 64
def Payload.poisoned : Payload → Bool
  | .data _ p | .slotPart _ _ _ p | .restoreSlot _ _ p => p.any id
  | _ => false

/-- The payload's bytes: data, with the poison map in the last 64 bytes of a poisoned payload (10 R252); none where the
spec does not lay the record out. -/
def Payload.bytes : Payload → Option (List Nat)
  | .none | .heartbeat => some []
  | .mgmt b => some b
  | .data b p =>
    if p.any id then
      some ((b ++ List.replicate 4032 0).take 4032 ++
        (List.range 64).map fun i => (List.range 8).foldl (fun n j => n + (p.getD (8 * i + j) false).toNat * 2 ^ j) 0)
    else some b
  | _ => none

/-- The header's bytes, and the CRC-32C over them and the payload's (R315). -/
def Frame.headBytes (f : Frame) : List Nat := (List.range 32).map fun i => natBits (Frame.header f).toNat (8 * i) 8
def Frame.crcOver (f : Frame) (pay : List Nat) : Nat := crc32c (Frame.headBytes f ++ pay)
/-- The CRC where the payload's bytes are laid out. -/
def Frame.crc (f : Frame) : Option Nat := (Payload.bytes f.pay).map (Frame.crcOver f)
/-- The bytes of a frame as they leave: header, payload, CRC little-endian. -/
def Frame.image (f : Frame) (pay : List Nat) : List Nat :=
  Frame.headBytes f ++ pay ++ (List.range 4).map fun i => natBits (Frame.crcOver f pay) (8 * i) 8

/-- The flits of a frame: header, payload and CRC in pieces of 64 bytes; and the tag of each (R316). -/
def Frame.flits (f : Frame) : Nat := (36 + f.len + 63) / 64
def Frame.tag (f : Frame) (i : Nat) : Nat := f.seq % 256 + i * 2 ^ 8 + (if i = 0 then 2 ^ 15 else 0)

/-- The slots of a frame with these payload bytes: flits in ascending order, dealt in turn to the channels (R316). -/
def Frame.slots (f : Frame) (cs : List (Nat × Nat)) (pay : List Nat) : List LinkSlot :=
  (List.range (Frame.flits f)).map fun i =>
    let c := cs.getD (i % cs.length) (0, 0)
    ⟨c.1, c.2, Frame.tag f i, ((Frame.image f pay).drop (64 * i)).take 64⟩

/-- Whether every flit of a received frame has come (R317), and whether its CRC is right. -/
def Rx.whole (r : Rx) : Bool := (List.range (Frame.flits r.frame)).all fun i => r.tags.contains (Frame.tag r.frame i)
def Rx.crcRight (r : Rx) : Bool := match Frame.crc r.frame with | some c => decide (r.crc = c) | none => r.crcOk

namespace State

/-- A frame of this module's own. -/
def frame (s : State) (dst vc typ coll bucket offset : Nat) (pay : Payload) : Frame :=
  { dst := dst, src := s.rank, hopSrc := s.rank, vc := vc, typ := typ, seq := 0, poison := Payload.poisoned pay, last := false,
    transit := false, fanout := false, replay := false, reserved := 0, ttl := 4, coll := coll, bucket := bucket,
    len := Payload.len pay, offset := offset, ack := 0, ackValid := false, pay := pay }

/-- Queues a sequenced frame on a port; its transit flag is set when the port's peer is not its destination (R313). -/
def enqueue (s : State) (p : Nat) (f : Frame) : State :=
  let x := s.portOf p
  let f : Frame := { f with transit := f.transit || decide (s.portPeer p ≠ some f.dst), hopSrc := s.rank }
  s.setPort p { x with waiting := x.waiting ++ [f] }

/-- Sends a frame along its route; a send with no route is counted and drops it (R311, R343). -/
def sendTo (s : State) (f : Frame) : State :=
  match s.routeOf f.dst f.vc with
  | some p => s.enqueue p f
  | none => s.count routeP ROUTE.NO_ROUTE_CNT_count

/-- Queues a link-control frame on a port. -/
def control (s : State) (p typ vc seq offset : Nat) : State :=
  let x := s.portOf p
  let f : Frame := { s.frame ((s.portPeer p).getD 0) vc typ 0 0 offset .none with seq := seq }
  s.setPort p { x with ctrl := x.ctrl ++ [f] }

/-- A frame of the module's own as it was before it took a port; one that is forwarded keeps its header (R313). -/
def unrouted (s : State) (f : Frame) : Frame := if f.src = s.rank then { f with transit := false } else f

/-! ### Retraining (12 R322) -/

/-- Times within the last `w` µs, with the present one. -/
def recentTimes (s : State) (w : Nat) (ts : List Nat) : List Nat := (ts.filter fun t => decide (s.now < t + w)) ++ [s.now]

/-- Takes channel sides out of carrying until the exchange of R304 is repeated: the transmit sides of one list, the receive
sides of another. -/
def holdSides (s : State) (tx rx : List (Nat × Nat)) : State :=
  let s := tx.foldl (fun (s : State) c => s.setCh c.1 c.2 { s.chOf c.1 c.2 with txHold := true }) s
  rx.foldl (fun (s : State) c => s.setCh c.1 c.2 { s.chOf c.1 c.2 with rxHold := true }) s
/-- Takes both sides of channels out of carrying, with what their last records said against it. -/
def untrain (s : State) (cs : List (Nat × Nat)) : State :=
  cs.foldl (fun (s : State) c => s.setCh c.1 c.2 { s.chOf c.1 c.2 with bad := 0, txHold := true, rxHold := true }) s

/-- Retrains a port; the third time within 1 s it goes down. -/
def retrainPort (s : State) (p : Nat) : State :=
  let l := s.firstLink p
  let peer := (s.portPeer p).getD 0
  let s := s.holdSides (s.txSet p) (s.rxSet p)
  let s := ((s.count (linkP l) LINK.RETRAIN_CNT_count).errEvent .link l 0xA4 p peer).event .link l LINK.PAGE_EVT_retrain
  let x := s.portOf p
  let ts := s.recentTimes 1000000 x.retrains
  let x : PortSt := { x with overs := [], crcs := [], reqs := [] }
  if 3 ≤ ts.length then
    ((s.setPort p { x with retrains := [], down := true }).errEvent .link l 0xA5 p peer).event .link l
      LINK.PAGE_EVT_port_down
  else s.setPort p { x with retrains := ts }

/-- Records a port error and retrains the port at its limit within 1 ms; a number that names no port has none. -/
def portOver (s : State) (p : Nat) : State :=
  let x := s.portOf p
  let ts := s.recentTimes 1000 x.overs
  let s' := s.setPort p { x with overs := ts }
  if (s.portEntry p).isNone then s else if 16 ≤ ts.length then s'.retrainPort p else s'
def portCrc (s : State) (p : Nat) : State :=
  let x := s.portOf p
  let ts := s.recentTimes 1000 x.crcs
  let s' := s.setPort p { x with crcs := ts }
  if (s.portEntry p).isNone then s else if 64 ≤ ts.length then s'.retrainPort p else s'
def portReq (s : State) (p : Nat) : State :=
  let x := s.portOf p
  let ts := s.recentTimes 1000 x.reqs
  let s' := s.setPort p { x with reqs := ts }
  if (s.portEntry p).isNone then s else if 64 ≤ ts.length then s'.retrainPort p else s'

end State

/-! ### Receiving (12 R318 to R321) -/

/-- Whether sequence number `a` lies at or before `b`, in wrapping order modulo 2^24. -/
def seqLe (a b : Nat) : Bool := decide ((b + 2 ^ 24 - a % 2 ^ 24) % 2 ^ 24 < 2 ^ 23)

/-- One element of a list replaced. -/
def bump (l : List Nat) (i : Nat) (f : Nat → Nat) : List Nat := l.set i (f (l.getD i 0))

namespace State

/-- Frames that an acknowledgement covers leave the replay buffer. -/
def takeAck (s : State) (p a : Nat) : State :=
  let x := s.portOf p
  s.setPort p { x with replay := x.replay.filter fun r => !seqLe r.frame.seq a }

/-- Marks every unacknowledged frame from a sequence number on to be sent again. -/
def replayFrom (s : State) (p n : Nat) : State :=
  let x := s.portOf p
  s.setPort p { x with replay := x.replay.map fun r => if seqLe n r.frame.seq then { r with again := true } else r }

/-- A frame that a check drops, with its last-bad record (R321, R323). -/
def dropBad (s : State) (r : Rx) (check : Nat) : State :=
  (s.fset (linkP r.link) LINK.LAST_BAD_rank r.frame.hopSrc).fset (linkP r.link) LINK.LAST_BAD_check check

def dropMalformed (s : State) (r : Rx) : State :=
  ((s.count (linkP r.link) LINK.MALFORMED_CNT_count).dropBad r 2).errEvent .link r.link 0xA3 0 r.frame.hopSrc
def dropMisaddr (s : State) (r : Rx) (check : Nat) : State :=
  (((s.count (linkP r.link) LINK.MISADDR_CNT_count).dropBad r check).errEvent .link r.link 0xA0 check
    r.frame.hopSrc).event .link r.link LINK.PAGE_EVT_misaddr

/-- Whether a frame for another rank is forwarded (R313). -/
def forwards (s : State) (p : Nat) (f : Frame) : Bool :=
  (match s.portEntry p with | some e => e.transit | none => false) && f.transit && decide (0 < f.ttl) &&
    (s.routeOf f.dst f.vc).isSome

/-- Codewords seen with a frame are counted on its link; uncorrectable ones are error events (R317). -/
def noteCodewords (s : State) (l k ce uc : Nat) : State :=
  let s := (s.addFree (linkP l) LINK.FEC_CE_CNT_count ce).addFree (linkP l) LINK.FEC_UC_CNT_count uc
  (List.range uc).foldl (fun (s : State) _ => s.errEvent .link l 0x8A k 0) s

/-- What the open occurrences' receive staging entitles a port to: of each, its reserved 64 KiB and what is lent to it, in
frames, split over its peers, of which those count that the port reaches (10 R260, 12 R320; notes/assumptions/35.md). -/
def ctxCredit (s : State) (p vc : Nat) : Nat :=
  (s.coll.ctxs.filter fun c => decide (c.vc = vc)).foldl (fun n c =>
    let peers := c.outs.map (fun o => o.rank) ++ c.ins.map fun i => i.rank
    n + (peers.filter fun r => decide (s.routeOf r vc = some p)).length * max 1 (16 * (1 + c.lent) / max 1 peers.length)) 0

/-- The credit a receiver lets stand out on a port and VC: on VC0 and VC1 their own 64 KiB pools, 16 frames; on the others
the staging of the open contexts, and on VC7 also that of the contexts which the snapshot unit keeps (R320, 10 R257). -/
def entitled (s : State) (p vc : Nat) : Nat :=
  match s.portEntry p with
  | some e => if vcIn e.mask vc then (if vc < 2 ∨ vc = 7 then 16 else 0) + s.ctxCredit p vc else 0
  | none => 0

/-- The frames of a port and VC that stand in receive staging and have not been consumed. -/
def staged (s : State) (p vc : Nat) : Nat :=
  ((s.coll.ctxs.flatMap (fun c => c.inbox) ++ s.snap.inbox).filter fun f =>
    decide (f.vc = vc) && decide (s.portPeer p = some f.hopSrc)).length

/-- Grants credit on a port and VC up to what it is entitled to beyond what is staged, by a CREDIT frame. -/
def topUp (s : State) (p vc : Nat) : State :=
  let x := s.portOf p
  let n := s.entitled p vc - (x.granted.getD vc 0 + s.staged p vc)
  if n = 0 then s
  else (s.setPort p { x with granted := bump x.granted vc (· + n) }).control p 18 vc 0 n

/-- Grants every port its credit on a VC. -/
def topUpVc (s : State) (vc : Nat) : State := (List.range 255).foldl (fun (s : State) p => s.topUp p vc) s

/-- Accepts a sequenced frame: it is the next expected one and within credit. -/
def acceptSeq (s : State) (p : Nat) (f : Frame) : State :=
  let x := s.portOf p
  (s.setPort p { x with
    rxSeq := (x.rxSeq + 1) % 2 ^ 24, got := true, granted := bump x.granted f.vc (· - 1), ackDue := true })

/-- A frame beyond the next expected one: REPLAY_REQ at most once per 2 µs for one number (R318). -/
def gap (s : State) (p : Nat) (r : Rx) : State :=
  let x := s.portOf p
  let s := s.errEvent .link r.link 0xA1 x.rxSeq r.frame.hopSrc
  let fresh := match x.lastReq with | some (n, t) => decide (n ≠ x.rxSeq) || decide (t + 2 ≤ s.now) | none => true
  if fresh then
    ((s.setPort p { x with lastReq := some (x.rxSeq, s.now) }).control p 17 0 x.rxSeq 0).count (linkP r.link)
      LINK.REPLAY_RX_CNT_count
  else s

/-- Whether a channel receives at all: its drop selector and its decoder are locked (11 R277; R304). One that does not carry takes
link control only. -/
def rxOpen (s : State) (l k : Nat) : Bool := s.linkOn l && s.rxEn l k && s.rxLocked l k && (s.chOf l k).fec

/-- The checks of a received frame in their order (R321), with acknowledgement, duplicates and forwarding, once all its flits
have come (R317). A frame for this module that passes them all is answered, with the port it came on. -/
def receive (s : State) (r : Rx) : State × Option (Nat × Frame) :=
  let f := r.frame
  let p := s.rxPort r.link r.chan
  if !Member.link s.member r.link || decide (16 ≤ r.chan) || !s.domainOn .link r.link then (s, none)
  else if s.fenced then (s.addSat 0 MODULE.FENCE_DROP_CNT_count 1, none)
  else if !s.rxOpen r.link r.chan then (s, none)
  else
    let s := s.noteCodewords r.link r.chan r.corrected r.lost
    if !Rx.whole r then (s, none)
    else if !Rx.crcRight r then ((s.count (linkP r.link) LINK.CRC_CNT_count).portCrc p, none)
    else if !frameType f.typ || decide (4096 < f.len) || decide (f.reserved ≠ 0) || !payloadFits f.typ f.pay ||
        decide (f.typ = 19) || (!linkControl f.typ && !s.rxCarry r.link r.chan) then
      (s.dropMalformed r, none)
    else if s.portPeer p ≠ some f.hopSrc then (s.dropMisaddr r 3, none)
    else if f.dst ≠ s.rank ∧ f.fanout = false ∧ s.forwards p f = false then
      if f.ttl = 0 then (s.count routeP ROUTE.TTL_DROP_CNT_count, none) else (s.dropMisaddr r 4, none)
    else
      let s := if f.ackValid then s.takeAck p f.ack else s
      let x := s.portOf p
      if linkControl f.typ then (s, some (p, f))
      else
        let old := decide (f.seq % 2 ^ 24 ≠ x.rxSeq) && seqLe f.seq x.rxSeq
        if x.granted.getD f.vc 0 = 0 then
          (((s.count (linkP r.link) LINK.CREDIT_OVR_CNT_count).errEvent .link r.link 0xA2 f.vc f.hopSrc).portOver p, none)
        else if old then ((s.setPort p { x with ackDue := true }).count (linkP r.link) LINK.DUP_CNT_count, none)
        else if f.seq % 2 ^ 24 ≠ x.rxSeq then (s.gap p r, none)
        else
          let s := s.acceptSeq p f
          if f.dst ≠ s.rank ∧ f.fanout = false then
            (((s.sendTo { f with ttl := f.ttl - 1, seq := 0, ack := 0, ackValid := false, replay := false }).addWrap
              routeP ROUTE.TRANSIT_CNT_count 1).topUp p f.vc, none)
          else (s, some (p, f))

/-! ### Transmitting (12 R311, R316 to R320) -/

/-- The bytes a frame takes in a replay buffer: header, payload and CRC. -/
def frameBytes (f : Frame) : Nat := 36 + f.len
def replayBytes (s : State) (p : Nat) : Nat := (s.portOf p).replay.foldl (fun n r => n + frameBytes r.frame) 0

/-- The fan-out channels that reach a peer of the own grove: valid sets' channels on the line of R301 (09 R230). -/
def fanChans (s : State) (d : Nat) : List (Nat × Nat) :=
  match s.net.plan with
  | none => []
  | some t =>
    allChans.filter fun x =>
      decide (x.1 < 24) && decide (d / 64 = s.rank / 64) &&
        decide (s.chGet x.1 x.2 PECH.CH_CTRL_tx_line = (d + 64 - s.rank % 64) % 64) &&
        (List.range 2).any fun j =>
          let w := t.fans.getD (2 * x.1 + j) 0
          natBits w 0 1 == 1 && natBits w (16 + x.2) 1 == 1

/-- Marks a fan-out stream whose colour does not carry as served unicast, counting the peer once (09 R232). -/
def markUnicast (s : State) (f : Frame) : State :=
  let hit (c : Ctx) : Bool := decide (c.vc = f.vc) && decide (c.seq = f.coll) && decide (c.bucket = f.bucket)
  let out (o : Stream) : Bool := decide (o.rank = f.dst) && !o.uni
  if s.coll.ctxs.any fun c => hit c && c.outs.any out then
    let fix (c : Ctx) : Ctx :=
      if hit c then { c with outs := c.outs.map fun o => if out o then { o with uni := true } else o } else c
    let s := { s with coll := { s.coll with ctxs := s.coll.ctxs.map fix } }
    (s.count (pageNum .coll 0) COLL.FALLBACK_CNT_count).event .coll 0 COLL.PAGE_EVT_fallback
  else s

/-- The payload bytes of a frame as sent: those of a record that the spec does not lay out are free (notes/assumptions/116.md). -/
def payBytes (s : State) (f : Frame) : List Nat :=
  match Payload.bytes f.pay with
  | some b => b
  | none => (List.range f.len).map fun i => natBits (Config.freeValue (s.free + i / 8)).toNat (8 * (i % 8)) 8
def usePay (s : State) (f : Frame) : State :=
  match Payload.bytes f.pay with
  | some _ => s
  | none => { s with free := s.free + (f.len + 7) / 8 }

/-- Puts a frame on the wire: the present acknowledgement goes with it, once a frame has been received. -/
def emitFrame (s : State) (p : Nat) (cs : List (Nat × Nat)) (f : Frame) : State :=
  let x := s.portOf p
  let f : Frame := { f with ack := (x.rxSeq + 2 ^ 24 - 1) % 2 ^ 24, ackValid := x.got }
  let x : PortSt := if linkControl f.typ && decide (f.typ ≠ 16) then x else { x with ackDue := false }
  let s := s.setPort p x
  let pay := s.payBytes f
  (s.usePay f).emit (.frame p (Frame.slots f cs pay) (Frame.header f) f (Frame.crcOver f pay))

/-- The channels that may start a frame of a port. -/
def startChans (s : State) (p : Nat) : List (Nat × Nat) := (s.txUp p).filter fun c => s.mayStart c.1

/-- Whether frames of a VC may be started now: all of them in service, until step 5 of a firebreak too (14 R364); VC0 and
VC1 while a plan load drains (12 R309). -/
def vcFlows (s : State) (vc : Nat) : Bool :=
  if s.net.stage = 2 then decide (vc < 2)
  else decide (s.net.stage = 0)

/-- The weight of a VC on a port; 0 takes the header's for that VC. -/
def vcWeight (s : State) (p vc : Nat) : Nat :=
  match s.net.plan with
  | some t =>
    let w := natBits (t.port p).weight (4 * vc) 4
    max 1 (if w = 0 then natBits t.weight (4 * vc) 4 else w)
  | none => 1

/-! ### Fan-out (09 R230 to R232) -/

/-- The fan-out channel that serves a rank: the first that reaches it. -/
def fanHome (s : State) (d : Nat) : Option (Nat × Nat) := (s.fanChans d).head?
/-- The fan-out channel of a frame's receiver, while the frame is to go on it and it carries. -/
def fanChan (s : State) (f : Frame) : Option (Nat × Nat) :=
  if f.fanout then (s.fanHome f.dst).filter fun c => s.txCarry c.1 c.2 else none

/-- The ranks that the other carrying channels of a channel's fan-out set serve. -/
def coPeers (s : State) (c : Nat × Nat) : List Nat :=
  match s.net.plan with
  | none => []
  | some t =>
    let sets := (List.range 2).filter fun j =>
      let w := t.fans.getD (2 * c.1 + j) 0
      natBits w 0 1 == 1 && natBits w (16 + c.2) 1 == 1
    (sets.take 1).flatMap fun j =>
      (((List.range 16).filter fun k =>
        decide (k ≠ c.2) && natBits (t.fans.getD (2 * c.1 + j) 0) (16 + k) 1 == 1 && s.txCarry c.1 k).map fun k =>
        (k, s.rank / 64 * 64 + (s.rank % 64 + s.chGet c.1 k PECH.CH_CTRL_tx_line) % 64)).filterMap fun x =>
          if s.fanHome x.2 = some (c.1, x.1) then some x.2 else none

/-- Whether two frames are the same payload for different receivers of a fan-out set. -/
def sameFan (f g : Frame) : Bool :=
  g.fanout && decide (g.vc = f.vc) && decide (g.coll = f.coll) && decide (g.bucket = f.bucket) && decide (g.typ = f.typ) &&
    decide (g.offset = f.offset) && decide (g.src = f.src)

/-- Where the same payload stands for another rank of the set: held for its ACCEPT, or waiting on a port. -/
def fanHeld (s : State) (f : Frame) (d : Nat) : Bool :=
  s.coll.ctxs.any fun c => c.outs.any fun o => decide (o.rank = d) && !o.uni && o.held.any (sameFan f)
def fanWaits (s : State) (f : Frame) (d : Nat) : Option (Nat × Frame) :=
  match s.routeOf d f.vc with
  | some p => ((s.portOf p).waiting.find? fun g => sameFan f g && decide (g.dst = d)).map fun g => (p, g)
  | none => none

/-- Whether a port may take one more frame into its replay buffer, with credit for its VC. -/
def roomFor (s : State) (p : Nat) (f : Frame) : Bool :=
  decide (0 < (s.portOf p).credit.getD f.vc 0) && decide (s.replayBytes p + frameBytes f ≤ 2 ^ 20) && !(s.portOf p).down

/-- Whether a frame has channels it may start on: its fan-out channel, with every other receiver of the set ready for the
same payload, or the port's own. -/
def channelReady (s : State) (p : Nat) (f : Frame) : Bool :=
  match s.fanChan f with
  | some c =>
    s.mayStart c.1 && (s.coPeers c).all fun d => !s.fanHeld f d &&
      (match s.fanWaits f d with | some x => s.roomFor x.1 x.2 | none => true)
  | none => !(s.startChans p).isEmpty

/-- Whether a VC of a port has a frame that may start: it flows, has credit and channels, and the replay buffer has room. -/
def vcReady (s : State) (p vc : Nat) : Bool :=
  match (s.portOf p).waiting.find? fun f => decide (f.vc = vc) with
  | some f => s.vcFlows vc && s.roomFor p f && s.channelReady p f
  | none => false

/-- The VC served next with the round robin's turn after it: VC0, VC1, then VC2 to VC7 by weight (12 R311). -/
def nextVc (s : State) (p : Nat) : Option (Nat × Nat × Nat) :=
  let x := s.portOf p
  if s.vcReady p 0 then some (0, x.turn, x.turnLeft)
  else if s.vcReady p 1 then some (1, x.turn, x.turnLeft)
  else if 0 < x.turnLeft ∧ s.vcReady p x.turn = true then some (x.turn, x.turn, x.turnLeft - 1)
  else
    match ((List.range 6).map fun i => 2 + (x.turn - 2 + 1 + i) % 6).find? fun v => s.vcReady p v with
    | some v => some (v, v, s.vcWeight p v - 1)
    | none => none

/-- Starts a waiting frame of a port: it takes its sequence number, its credit and its place in the replay buffer. -/
def startOn (s : State) (p : Nat) (g f : Frame) (cs : List (Nat × Nat)) : State :=
  let x := s.portOf p
  let f : Frame := { f with seq := x.txSeq }
  let s := s.setPort p { x with
    waiting := x.waiting.erase g, txSeq := (x.txSeq + 1) % 2 ^ 24, credit := bump x.credit f.vc (· - 1),
    replay := x.replay ++ [⟨f, false⟩] }
  s.emitFrame p cs f

/-- Starts the first frame of a VC. A fan-out frame goes once to its set, on each carrying channel to the rank that the
colour selects, with the sequence number of that rank's port (DESIGN CHOICE, notes/assumptions/108.md); a receiver whose
channel is dark gets it unicast. -/
def startFrame (s : State) (p vc turn left : Nat) (cs : List (Nat × Nat)) : State :=
  let x := s.portOf p
  match x.waiting.find? fun f => decide (f.vc = vc) with
  | none => s
  | some f =>
    let s := s.setPort p { x with turn := turn, turnLeft := left }
    match s.fanChan f with
    | some c =>
      (s.coPeers c).foldl (fun (s : State) d =>
        match s.fanWaits f d with
        | some x => s.startOn x.1 x.2 x.2 ((s.fanChan x.2).toList)
        | none => s) (s.startOn p f f [c])
    | none =>
      let s := if f.fanout then s.markUnicast f else s
      s.startOn p f { f with fanout := false } cs

/-- Starts one frame of a port that may start one: link control, then frames to be sent again, then the VCs. A fan-out frame
is sent again on its receiver's channel alone. -/
def transmit (s : State) (p : Nat) : State :=
  let x := s.portOf p
  let cs := s.startChans p
  if x.down || (s.portEntry p).isNone || decide (s.net.stage = 4) || !s.domainOn .link 0 then s
  else
    match x.ctrl, cs with
    | f :: r, _ :: _ => (s.setPort p { x with ctrl := r }).emitFrame p cs f
    | _, _ =>
      match x.replay.find? fun r => r.again && (s.vcFlows r.frame.vc || decide (s.net.stage = 2)) with
      | some r =>
        let on := match s.fanChan r.frame with | some c => if s.mayStart c.1 then [c] else [] | none => cs
        if on.isEmpty then s
        else
          let clear (y : Sent) : Sent := if y.frame.seq = r.frame.seq then { y with again := false } else y
          let s := s.setPort p { x with replay := x.replay.map clear }
          (s.count (linkP (s.firstLink p)) LINK.REPLAY_TX_CNT_count).emitFrame p on
            { r.frame with replay := true, fanout := (s.fanChan r.frame).isSome }
      | none =>
        match s.nextVc p with
        | some v => s.startFrame p v.1 v.2.1 v.2.2 cs
        | none => s

/-! ### Failover (12 R312) -/

/-- Moves a stream to another listed port: frames that wait move, unacknowledged ones are sent again there. -/
def moveStream (s : State) (dest vc w : Nat) : State :=
  match s.routeOf dest vc, (s.routeList dest vc)[w]? with
  | some p, some q =>
    let mine (f : Frame) : Bool := decide (f.dst = dest) && decide (f.vc = vc)
    let x := s.portOf p
    let again := (x.replay.map fun r => r.frame).filter mine
    let moved := again ++ x.waiting.filter mine
    let s := (s.setPort p { x with waiting := x.waiting.filter fun f => !mine f }).setWhich dest vc w
    let s := moved.foldl (fun (s : State) f => s.enqueue q (s.unrouted f)) s
    (s.count routeP ROUTE.FAILOVER_CNT_count).errEvent .route 0 0x8B dest 0
  | _, _ => s

/-! ### Levels (11 R289, R299) -/

/-- The level a monitor was last reported at (MONITOR_LOW), while that report stands. -/
def monOf (s : State) (p idx : Nat) : Option Nat :=
  (s.optics.mon.find? fun x => decide (x.1 = 2 ^ 20 * p + idx)).map (·.2)
/-- What a monitor shows: the level last reported of it while that stands, the level a peer sent for stage FAR, below −40 dBm
before the engines are in service and, of the stages that only the own comb lights, while that is dark; else what it measures
(none: a free value; R289, R299; notes/assumptions/19.md). -/
def monitor (s : State) (p idx : Nat) : Option Nat :=
  if idx % 16 = 8 ∧ idx / 4096 % 2 = 0 then some (s.chGet (8 * p + idx / 16 % 8) (idx / 256 % 16) PECH.CH_FAR_level)
  else if s.flag 0 MODULE.BOOT_STAT_optics = false then some 0x8000
  else
    match s.monOf p idx with
    | some v => some v
    | none => if idx % 16 ≤ 5 ∧ s.flag (peP p) PE.PAGE_STAT_lit = false then some 0x8000 else none
/-- A stage's monitor of one channel. -/
def chanMonitor (s : State) (l k stage : Nat) : Option Nat := s.monitor (l / 8) (stage + l % 8 * 16 + k * 256)

/-! ### Training (12 R303 to R305; 14 R365) -/

/-- The record a channel sends. The RD level is the reverse channel's, a free value where the channel measures it. -/
def trainRec (s : State) (l k epoch : Nat) : TrainRec :=
  ⟨s.rank, s.fget 0 MODULE.FEED_id, epoch, l, k, s.chGet l k PECH.CH_CTRL_tx_line,
    (s.chanMonitor l k 7).getD (s.freeVal % 2 ^ 16)⟩

/-- The rank that a channel's light reaches: the router's port of its line, or the peer of a global link (R301, R303). -/
def reached (s : State) (l k : Nat) : Nat :=
  if l < 24 then s.rank / 64 * 64 + (s.rank % 64 + s.chGet l k PECH.CH_CTRL_tx_line) % 64
  else (s.portPeer (s.txPort l k)).getD (s.fget (linkP l) LINK.LINK_PEER_rank)

/-- Sends a channel's training record in a TRAIN frame on that channel alone, to the rank that its light reaches (DESIGN CHOICE,
notes/assumptions/116.md). -/
def sendTraining (s : State) (l k epoch : Nat) : State :=
  let r := s.trainRec l k epoch
  let s := if (s.chanMonitor l k 7).isNone then s.useFree else s
  let f := s.frame (s.reached l k) 0 19 0 0 0 (.train r)
  (s.usePay f).emit (.training l k (Frame.slots f [(l, k)] (s.payBytes f)) (Frame.header f) f (Frame.crcOver f (s.payBytes f)))

/-- A received record is checked and kept; the channel carries when every condition holds. -/
def train (s : State) (l k : Nat) (r : TrainRec) : State :=
  let line := s.chGet l k PECH.CH_CTRL_rx_line
  let before := s.rxCarry l k
  let s := s.chSet l k PECH.CH_FAR_level r.farRd
  let keep (s : State) (bad : Nat) : State := s.setCh l k ⟨(s.chOf l k).fec, some r, bad, false, false⟩
  let grove := decide (l < 24)
  if grove ∧ ¬(r.rank / 64 = s.rank / 64 ∧ r.rank % 64 = (s.rank + 64 - line) % 64) then
    (((keep s 6).count (linkP l) LINK.COORD_ERR_CNT_count).errEvent .link l 0xA6 line r.rank).event .link l
      LINK.PAGE_EVT_coord_mismatch
  else if grove = false ∧ r.rank / 64 = s.rank / 64 then
    ((keep s 7).errEvent .link l 0xAA 0 r.rank).event .link l LINK.PAGE_EVT_peer_err
  else
    let s := if grove then s
      else ((s.fset (linkP l) LINK.LINK_PEER_rank r.rank).fset (linkP l) LINK.LINK_PEER_feed r.feed).fset (linkP l)
        LINK.PAGE_STAT_peer_valid 1
    if r.epoch ≠ s.epoch then (keep s 5).event .link l LINK.PAGE_EVT_epoch_mismatch
    else
      let s := keep s 0
      s.eventIf (s.rxCarry l k && !before) .link l LINK.PAGE_EVT_trained

end State

/-! ### The commands -/

/-- FRAME_TRANSMIT (12 R316): a port starts one frame. -/
def execFrameTransmit (port : Nat) (s : State) : Host.Outcome State Fault Refusal := .next (s.start.transmit port)

/-- FRAME_INCOMPLETE_TIMEOUT (12 R317). -/
def execFrameIncompleteTimeout (link chan corrected lost : Nat) (s : State) : Host.Outcome State Fault Refusal :=
  .next (if Member.link s.member link ∧ s.fenced = false ∧ s.domainOn .link link = true then
      (s.start.noteCodewords link chan corrected lost).count (State.linkP link) LINK.INCOMPLETE_CNT_count
    else s.start)

/-- ACK_TIMER (12 R319). -/
def execAckTimer (port : Nat) (s : State) : Host.Outcome State Fault Refusal :=
  .next (if (s.portOf port).ackDue && s.domainOn .link 0 then
      (s.start.setPort port { s.portOf port with ackDue := false }).control port 16 0 0 0
    else s.start)

/-- REPLAY_TIMEOUT (12 R319): the oldest unacknowledged frame has waited too long; the sender sends again from it. -/
def execReplayTimeout (port : Nat) (s : State) : Host.Outcome State Fault Refusal :=
  match (s.portOf port).replay with
  | r :: _ => .next (if s.domainOn .link 0 then s.start.replayFrom port r.frame.seq else s.start)
  | [] => .next s.start

/-- PORT_DOWN_END (12 R322). -/
def execPortDownEnd (port : Nat) (s : State) : Host.Outcome State Fault Refusal :=
  .next (if (s.portOf port).down && s.domainOn .link 0 then s.start.setPort port { s.portOf port with down := false } else s.start)

/-- PORT_FAILOVER (12 R312): a stream whose port cannot carry goes to the next listed port. -/
def execPortFailover (dest vc : Nat) (s : State) : Host.Outcome State Fault Refusal :=
  let ps := s.routePorts dest vc
  .next (match s.nextWhich dest vc with
    | some w =>
      if (match s.routeOf dest vc with | some p => !s.portCanCarry p | none => false) && decide (1 < ps.length) &&
          ps.any (fun p => s.portCanCarry p) && s.domainOn .route 0 then
        s.start.moveStream dest vc w
      else s.start
    | none => s.start)

/-- PORT_FAILBACK (12 R312): the first listed port has carried for 1 ms. -/
def execPortFailback (dest vc : Nat) (s : State) : Host.Outcome State Fault Refusal :=
  let first := (s.routeList dest vc).findIdx fun p => decide (p ≠ 0xFF)
  .next (if decide (s.routeWhich dest vc ≠ first) && s.domainOn .route 0 &&
      (match (s.routePorts dest vc).head? with | some p => s.portCanCarry p | none => false) then
      s.start.moveStream dest vc first
    else s.start)

/-- TRAIN_SEND (12 R304): a locked channel that does not carry sends its record. -/
def execTrainSend (link chan : Nat) (s : State) : Host.Outcome State Fault Refusal :=
  .next (if s.linkOn link ∧ s.net.plan.isSome ∧ s.txEn link chan ∧ s.txLocked link chan ∧
      ¬(s.txCarry link chan ∧ (s.rxEn link chan → s.rxCarry link chan)) then
      s.start.sendTraining link chan s.epoch
    else s.start)

/-- TRAIN_RECEIVE (12 R304): a record arrives on a channel whose drop selector and decoder are locked. -/
def execTrainReceive (link chan : Nat) (r : TrainRec) (s : State) : Host.Outcome State Fault Refusal :=
  .next (if s.fenced then s.start.addSat 0 MODULE.FENCE_DROP_CNT_count 1
    else if chan < 16 ∧ s.rxOpen link chan = true then
      s.start.train link chan r
    else s.start)

/-- FEC_DECODER_LOCK (12 R304). -/
def execFecDecoderLock (link chan : Nat) (locked : Bool) (s : State) : Host.Outcome State Fault Refusal :=
  .next (if Member.link s.member link ∧ chan < 16 ∧ s.domainOn .link link = true then
      s.start.setCh link chan { s.chOf link chan with fec := locked }
    else s.start)

end Sys2Proof.Machine
end

