-- ==== Sys2Proof/Machine/Norm.lean ====
section
/-!
DEFINITION. NORM: the LA576 accumulator, CLEAR, ACCUMULATE and FINAL (08 R220 to R224); EXCHANGE's frames are the
collective engine's.
-/
namespace Sys2Proof.Machine

/-- A NORM accumulator record (08 R220). -/
structure NormRec where
  la   : Nat
  nan  : Nat
  inf  : Nat
  ovf  : Bool
  elements : Nat
  deriving DecidableEq, Repr

def NormRec.ofBits (w : Nat) : NormRec :=
  ⟨natBits w 0 576, natBits w 576 32, natBits w 608 32, natBits w 672 1 == 1, natBits w 704 64⟩

/-- min(2^32 − 1, nan_cnt + inf_cnt + ovf). -/
def NormRec.nonfinite (r : NormRec) : Nat := min (2 ^ 32 - 1) (r.nan + r.inf + bitIf r.ovf 1)

def NormRec.bits (r : NormRec) : Nat :=
  r.la + r.nan * 2 ^ 576 + r.inf * 2 ^ 608 + r.nonfinite * 2 ^ 640 + bitIf r.ovf (2 ^ 672) + r.elements * 2 ^ 704

/-- Adds to la: all ones and ovf once the sum reaches 2^576 units (2^278); ovf is never cleared (08 R222). -/
def NormRec.addLa (r : NormRec) (n : Nat) : NormRec :=
  if r.ovf ∨ 2 ^ 576 ≤ r.la + n then { r with la := 2 ^ 576 - 1, ovf := true } else { r with la := r.la + n }

/-- Adds one element (08 R222). -/
def NormRec.addElem (r : NormRec) (v : Val) : NormRec :=
  let r : NormRec := { r with elements := (r.elements + 1) % 2 ^ 64 }
  match v with
  | .nan => { r with nan := min (2 ^ 32 - 1) (r.nan + 1) }
  | .inf _ => { r with inf := min (2 ^ 32 - 1) (r.inf + 1) }
  | .fin _ m e => r.addLa (m * m * 2 ^ (2 * e + 298).toNat)

/-- Combines two records (08 R223). -/
def NormRec.merge (a b : NormRec) : NormRec :=
  let r := a.addLa b.la
  { r with
    la := if r.ovf || b.ovf then 2 ^ 576 - 1 else r.la, ovf := r.ovf || b.ovf, nan := min (2 ^ 32 - 1) (a.nan + b.nan),
    inf := min (2 ^ 32 - 1) (a.inf + b.inf), elements := (a.elements + b.elements) % 2 ^ 64 }

/-- S, n and c of FINAL for a maximum norm m, as BIN64 codes (08 R224). -/
def NormRec.final (r : NormRec) (m : Nat) : Nat × Nat × Nat :=
  let nan := bin64Fmt.nanCode
  if r.nonfinite = 0 then
    let s := bin64Fmt.ofVal (.fin false r.la (-298))
    let n := bin64Fmt.ofVal (val64 s).sqrt
    let mv := val64 m
    let c :=
      if mv.isFinite && !mv.isZero && !mv.neg && mv.lt (val64 n) then bin64Fmt.ofVal (mv.div (val64 n))
      else bin64Fmt.ofVal .one
    (s, n, c)
  else if 0 < r.nan then (nan, nan, nan)
  else (bin64Fmt.infCode, bin64Fmt.infCode, nan)

/-- Writes FINAL's results and the NORM page's last values (08 R224). -/
def normFinal (s : State) (out : Tensor) (r : NormRec) (m : Nat) (poison : Bool) : State × Bool :=
  let f := r.final m
  let vals := if out.count = 3 then [f.1, f.2.1, f.2.2] else [f.2.2]
  let bytes := wElems ((out.addrs.zip vals).map fun x => ⟨x.1.toNat, 8, x.2, poison⟩)
  let meets := s.mem.writeMeetsPoison bytes
  let s := s.store bytes
  let p := pageNum .norm 0
  let s := (s.setPair p NORM.NORM_LAST_S_LO_value f.1).setPair p NORM.NORM_LAST_C_LO_value f.2.2
  let s := s.setReg p NORM.NORM_LAST_NF_count.off (BitVec.ofNat 32 r.nonfinite)
  (s.eventIf (decide (r.nonfinite ≠ 0)) .norm 0 NORM.PAGE_EVT_nonfinite, meets)

/-- Ends a NORM on the vector engine with the poison it met. -/
def normDone (s : State) (o : Occ) (poison : Bool) : State :=
  s.putOcc { o with place := .done, poison := o.poison || poison, uflags := bitIf poison flagPoison }

/-- CLEAR (08 R221). -/
def normClear (s : State) (o : Occ) : State :=
  match o.ten 1 with
  | some acc => normDone (s.store (wbytes (acc.addrs.headD 0).toNat 0 false 96)) o false
  | none => s

/-- ACCUMULATE (08 R222). VE_CUR_VEC shows the last of the source's vectors of 1,024 elements (07 R201). -/
def normAccumulate (s : State) (o : Occ) : State :=
  match o.ten 0, o.ten 1 with
  | some src, some acc =>
    let a := (acc.addrs.headD 0).toNat
    let r0 := NormRec.ofBits (s.mem.readN a 96)
    let es := src.addrs.map fun x => s.mem.elem src.fmt x.toNat
    let poison := s.mem.poisonedN a 96 || es.any fun e => e.poison
    let r := es.foldl (fun (r : NormRec) e => r.addElem e.val) r0
    let s := s.touchReads ((a, 96) :: src.addrs.map fun x => (x.toNat, src.size))
    let s := s.store (wbytes a r.bits poison 96)
    let s := s.fset (pageNum .ve o.tile) VE.VE_CUR_VEC_vec ((src.count - 1) / 1024)
    normDone (s.eventIf (r.ovf && !r0.ovf) .norm 0 NORM.PAGE_EVT_ovf) o poison
  | _, _ => s

/-- FINAL (08 R224). -/
def normFinalOp (s : State) (o : Occ) : State :=
  match o.ten 1, o.ten 2 with
  | some acc, some out =>
    let a := (acc.addrs.headD 0).toNat
    let poison := s.mem.poisonedN a 96
    let r := NormRec.ofBits (s.mem.readN a 96)
    let f := normFinal (s.touchReads [(a, 96)]) out r (o.aux.getD 7 0) poison
    normDone f.1 o (poison || f.2)
  | _, _ => s

/-- Runs the NORM in front of the vector engine when it has this subop. -/
def State.runNorm (s : State) (t sub : Nat) (f : State → Occ → State) : State :=
  match s.unitFront t .ve with
  | some o => if o.place = .input ∧ o.opcode = 0x18 ∧ o.subop = sub ∧ s.domainOn .ve t = true then f s o else s
  | none => s

/-- NORM_CLEAR (08 R221). -/
def execNormClear (t : Nat) (s : State) : Host.Outcome State Fault Refusal := .next (s.start.runNorm t 1 normClear)
/-- NORM_ACCUMULATE (08 R222). -/
def execNormAccumulate (t : Nat) (s : State) : Host.Outcome State Fault Refusal :=
  .next (s.start.runNorm t 2 normAccumulate)
/-- NORM_FINAL (08 R224). -/
def execNormFinal (t : Nat) (s : State) : Host.Outcome State Fault Refusal := .next (s.start.runNorm t 4 normFinalOp)

end Sys2Proof.Machine
end

