-- ==== Sys2Proof/Machine/Coll.lean ====
section
/-!
DEFINITION. The collective engine: contexts, opens, the orders of delivery, the reducing hop, and how an occurrence ends
(09 R226 to R232; 10 R242 to R266).
-/
namespace Sys2Proof.Machine

def stPeerLost : Nat := 0x20
def stPeerProtocol : Nat := 0x21
def stPeerAbort : Nat := 0x22
def stDupBucket : Nat := 0x23
def stDstShort : Nat := 0x24
def stNoRoute : Nat := 0x25
def stFenced : Nat := 0x26

/-! ### The data of an occurrence (R243) -/

/-- The addresses of bytes of a tensor's elements, taken in order. -/
def streamAddrs (t : Tensor) (off n : Nat) : List Nat :=
  let as := t.addrs
  (List.range n).map fun i => (as.getD ((off + i) / t.size) 0).toNat + (off + i) % t.size

/-- A piece of a stream: its bytes, and which of its 8-byte words are poisoned. -/
structure Piece where
  bytes  : List Nat
  poison : List Bool
  deriving DecidableEq, Repr

/-- The piece with poisoned words sent as data 0 (R252). -/
def Piece.masked (p : Piece) : Piece :=
  { p with bytes := (p.bytes.zip (List.range p.bytes.length)).map fun x => if p.poison.getD (x.2 / 8) false then 0 else x.1 }
def Piece.pay (p : Piece) : Payload := .data p.masked.bytes p.poison

/-- Reads a piece of a tensor's data. -/
def readPiece (m : MemSt) (t : Tensor) (off n : Nat) : Piece :=
  let as := streamAddrs t off n
  ⟨as.map m.readByte, (List.range ((n + 7) / 8)).map fun w => ((as.drop (8 * w)).take 8).any m.poisoned⟩

/-- The bytes of a piece written to a tensor's elements. -/
def landBytes (t : Tensor) (off : Nat) (p : Piece) : List WByte :=
  ((streamAddrs t off p.bytes.length).zip (p.bytes.zip (List.range p.bytes.length))).map fun x =>
    ⟨x.1, x.2.1, p.poison.getD (x.2.2 / 8) false⟩

namespace State

/-- The effects of reading a tensor's stream bytes. -/
def touchStream (s : State) (t : Tensor) (off n : Nat) : State :=
  let as := streamAddrs t off n
  (as.foldl (fun (s : State) a => s.stackBytes STK.STK_RD_BYTES_LO_count a 1)
    (s.touchReads (as.map fun a => (a, 1)))).crossFabric (as.map fun a => (a, 1))
/-- Lands a piece in a tensor. -/
def landPiece (s : State) (t : Tensor) (off : Nat) (p : Piece) : State :=
  let as := streamAddrs t off p.bytes.length
  (as.foldl (fun (s : State) a => s.stackBytes STK.STK_WR_BYTES_LO_count a 1) (s.store (landBytes t off p))).crossFabric
    (as.map fun a => (a, 1))

/-- Whether a piece meets a poisoned word that it writes in part, or lands a poisoned one (01 R28, 10 R252). -/
def landBad (s : State) (t : Tensor) (off : Nat) (p : Piece) : Bool :=
  (p.poison.any fun x => x) || s.mem.writeMeetsPoison (landBytes t off p)

/-- A GATHER_AHEAD counts its rows that landed and its sent shard on the DMA page (18, after R463). -/
def gatherBytes (s : State) (o : Occ) (f : Fd) (n : Nat) : State :=
  if o.opcode = 0x09 then s.addPair (pageNum .dma o.tile) f n else s

/-! ### Contexts -/

def collP : Nat := pageNum .coll 0
def putCtx (s : State) (c : Ctx) : State :=
  { s with coll := { s.coll with ctxs := s.coll.ctxs.map fun x => if x.occ = c.occ then c else x } }
def ctxOf (s : State) (id : Nat) : Option Ctx := s.coll.ctxs.find? fun c => decide (c.occ = id)
/-- The open occurrence of an identity (R256). -/
def ctxAt (s : State) (vc seq bucket : Nat) : Option Ctx :=
  s.coll.ctxs.find? fun c => decide (c.vc = vc) && decide (c.seq = seq) && decide (c.bucket = bucket)
def ctxCount (s : State) (vc : Nat) : Nat := (s.coll.ctxs.filter fun c => decide (c.vc = vc)).length

end State

/-! ### What a sub-operation moves -/

def redSub (sub : Nat) : Bool := decide (sub = 1) || decide (sub = 2)
/-- The element size of a reducing chain's wire format, and of any other stream. -/
def wireFmt (o : Occ) : Nat := match o.ten 0, o.ten 1 with | some a, some b => collWire a b | _, _ => 0
def unitSize (c : Ctx) (o : Occ) : Nat :=
  if redSub c.sub then fmtSize (wireFmt o)
  else if c.sub = 0x11 then 96
  else match o.ten 0, o.ten 1 with | some a, _ => a.size | none, some b => b.size | none, none => 1
/-- The send count of an ALLTOALL for a position. -/
def sendCount (s : State) (c : Ctx) (o : Occ) (k : Nat) : Nat :=
  match o.ten 3 with
  | some t => (countAt s t k).1
  | none => optCount (o.ten 0) / c.g
/-- The elements of the local block that a stream to a position takes, and where they start. -/
def blockOf (s : State) (c : Ctx) (o : Occ) (k : Nat) : Nat × Nat :=
  if c.sub = 5 then (((List.range k).map (sendCount s c o)).foldl (· + ·) 0, sendCount s c o k)
  else (0, optCount (o.ten 0))
/-- The elements that arrive in an ALLTOALL from a position. -/
def recvCount (s : State) (c : Ctx) (o : Occ) (k : Nat) : Nat :=
  if k = c.pos then sendCount s c o k else ((c.ins.find? fun i => decide (i.pos = k)).map fun i => i.n).getD 0
def recvBase (s : State) (c : Ctx) (o : Occ) (k : Nat) : Nat :=
  ((List.range k).map (recvCount s c o)).foldl (· + ·) 0

/-- Whether the local data of an occurrence goes out from this position. -/
def isSource (c : Ctx) (o : Occ) : Bool :=
  if redSub c.sub then decide (c.pos = 0)
  else if c.sub = 4 then decide (c.pos = o.f 280 16)
  else decide (c.sub = 3) || decide (c.sub = 0x10) || decide (c.sub = 5) || ((decide (c.sub = 6) || decide (c.sub = 8)) && (o.ten 0).isSome)

/-- The elements an open record states (R259). -/
def openCount (s : State) (c : Ctx) (o : Occ) (k : Nat) : Nat :=
  if c.sub = 0x11 then 1 else if c.sub = 5 then sendCount s c o k
  else if c.sub = 7 ∨ (c.sub = 4 ∧ isSource c o = false) then optCount (o.ten 1)
  else optCount (o.ten 0)
/-- The elements an open from a position must state; none where any count is taken. -/
def wantCount (c : Ctx) (o : Occ) : Option Nat :=
  if c.sub = 0x11 then some 1
  else if c.sub = 5 then (match o.ten 3 with | some _ => none | none => some (optCount (o.ten 1) / c.g))
  else if c.sub = 4 ∨ c.sub = 7 ∨ c.sub = 8 then some (optCount (o.ten 1))
  else some (optCount (o.ten 0))

/-- The sub-operation an open must name, as the sender sees it. -/
def wantSub (sub : Nat) : Nat := if sub = 7 then 6 else sub

/-- The format that an open states. -/
def openFmt (c : Ctx) (o : Occ) : Nat :=
  if redSub c.sub then wireFmt o
  else if c.sub = 0x11 then 7
  else match o.ten 0, o.ten 1 with | some a, _ => a.fmt | none, some b => b.fmt | none, none => 0

/-- The bytes of a number, low first. -/
def bytesOf (v : Nat) : Nat → List Nat
  | 0 => []
  | n + 1 => v % 256 :: bytesOf (v / 256) n

/-- The digest over the scale bytes, a poisoned one as 0, and the job key (R248, R259). -/
def digest (s : State) (o : Occ) : Nat :=
  let sc := match o.ten 2 with
    | some t => if o.opcode = 0x10 then t.addrs.map fun a => if s.mem.poisoned a.toNat then 0 else s.mem.readByte a.toNat else []
    | none => []
  crc32c (sc ++ bytesOf (s.pair (pageNum .coll 0) COLL.JOB_KEY_LO_key) 8)

/-! ### The reducing hop (R247 to R253) -/

/-- The random word of an encoding (R250). -/
def hopWord (key seq bucket elem hop : Nat) : Nat :=
  (philox key (1 + hop % 2 ^ 16 * 2 ^ 32 + elem % 2 ^ 32 * 2 ^ 48 + bucket % 2 ^ 16 * 2 ^ 80 + seq % 2 ^ 32 * 2 ^ 96)).x0

/-- The scale of an element's block, and whether its byte is poisoned. -/
def blockScale (m : MemSt) (o : Occ) (i : Nat) : Int × Bool :=
  match o.ten 2 with
  | some t =>
    let a := (t.addrs.getD (i / 32) 0).toNat
    (signedOf 8 (m.readByte a), m.poisoned a)
  | none => (0, false)

/-- One element's encoding at a position: its code, whether it saturated, and whether a local word it needs is
poisoned. -/
structure HopElem where
  code : Nat
  sat  : Bool
  poison : Bool
  deriving DecidableEq, Repr

/-- The code that leaves a position for element `i`; `inc` is the incoming code, none at position 0 (R249). Position 0's
W8 or W16 data goes out as it is; every other position adds in binary32 and encodes the sum again under the word of R250,
so an element is rounded once per hop, G − 1 times from such a source and once more from an FP16 or FP32 one: the bound of
R255. -/
def hopElem (m : MemSt) (key : Nat) (c : Ctx) (o : Occ) (i : Nat) (inc : Option Nat) : HopElem :=
  match o.ten 0 with
  | none => ⟨0, false, false⟩
  | some src =>
    let w := wireFmt o
    let e := blockScale m o i
    let a := (src.addrs.getD i 0).toNat
    let code := m.code src.fmt a
    let bad := m.poisonedN a src.size || e.2
    let x := decodeFmt src.fmt e.1 code
    let word := hopWord key c.seq c.bucket i c.pos
    match inc with
    | none =>
      if fmtWire src.fmt then ⟨code, false, bad⟩
      else
        let r := convertFmt w e.1 (.sr word) false x
        ⟨r.code, r.saturated, bad⟩
    | some y =>
      let sum := fp32Fmt.roundVal ((decodeFmt w e.1 y).add x)
      let r := convertFmt w e.1 (.sr word) false sum
      ⟨r.code, r.saturated, bad⟩

/-- A hop over a piece: the piece that leaves, the saturated elements, the NaN elements, the infinite ones, and whether
a poisoned local word was read. -/
structure HopOut where
  piece : Piece
  sats  : List Nat
  nans  : List Nat
  infs  : List Nat
  read  : Bool
  deriving DecidableEq, Repr

def hopPiece (m : MemSt) (key : Nat) (c : Ctx) (o : Occ) (off n : Nat) (inc : Option Piece) : HopOut :=
  let w := wireFmt o
  let sz := fmtSize w
  let elemAt (j : Nat) : Nat × HopElem :=
    (off / sz + j, hopElem m key c o (off / sz + j)
      (inc.map fun p => (List.range sz).foldr (fun b acc => p.bytes.getD (sz * j + b) 0 + 256 * acc) 0))
  let es := (List.range (n / sz)).map elemAt
  let per := 8 / sz
  let poison := (List.range ((n + 7) / 8)).map fun k =>
    (match inc with | some p => p.poison.getD k false | none => false) ||
      ((es.drop (per * k)).take per).any fun x => x.2.poison
  let val (x : Nat × HopElem) : Val := decodeFmt w 0 x.2.code
  ⟨⟨es.flatMap fun x => bytesOf x.2.code sz, poison⟩, (es.filter fun x => x.2.sat).map (·.1),
    (es.filter fun x => (val x).isNan).map (·.1), (es.filter fun x => (val x).isInf).map (·.1),
    es.any fun x => x.2.poison⟩

/-- The result of a reducing chain as dst elements: `base` is the dst element of bucket element 0. One converted under a
scale in a poisoned word is written poisoned (05 R118). -/
def resultElems (m : MemSt) (o : Occ) (dst : Tensor) (base off : Nat) (p : Piece) : List WElem :=
  let w := wireFmt o
  let sz := fmtSize w
  (List.range (p.bytes.length / sz)).map fun j =>
    let i := off / sz + j
    let code := (List.range sz).foldr (fun b acc => p.bytes.getD (sz * j + b) 0 + 256 * acc) 0
    let poison := p.poison.getD (sz * j / 8) false
    let e := blockScale m o i
    if dst.fmt = w then ⟨(dst.addrs.getD (i - base) 0).toNat, dst.size, code, poison⟩
    else ⟨(dst.addrs.getD (i - base) 0).toNat, dst.size, (convertFmt dst.fmt 0 .rne false (decodeFmt w e.1 code)).code,
      poison || e.2⟩

/-! ### Sending -/

namespace State

/-- The effects of reading the scale bytes of elements `i` to `i + n − 1` (R248). -/
def touchScaleBytes (s : State) (o : Occ) (i n : Nat) : State :=
  match o.ten 2 with
  | some t => if o.opcode = 0x10 ∧ 0 < n then s.touchStream t (i / 32) ((i + n - 1) / 32 - i / 32 + 1) else s
  | none => s

/-- Puts a frame on a stream: sent at once after the ACCEPT, held until then. -/
def post (s : State) (id : Nat) (k : Nat) (f : Frame) : State :=
  match s.ctxOf id with
  | none => s
  | some c =>
    match c.outs[k]? with
    | none => s
    | some st =>
      let f : Frame := { f with dst := st.rank, fanout := decide (f.typ = 0) && !st.uni }
      if st.accepted then s.sendTo f
      else s.putCtx { c with outs := c.outs.set k { st with held := st.held ++ [f] } }

/-- A frame of an occurrence. -/
def ctxFrame (s : State) (c : Ctx) (typ offset : Nat) (pay : Payload) : Frame := s.frame 0 c.vc typ c.seq c.bucket offset pay

/-- Sends an open record on a stream (R259). -/
def sendOpen (s : State) (c : Ctx) (o : Occ) (st : Stream) : State :=
  let r : OpenRec := ⟨c.sub, openFmt c o, openCount s c o st.pos, c.g, c.pos, s.rank, digest s o⟩
  s.sendTo { s.ctxFrame c 1 0 (.openRec r) with dst := st.rank }

/-! ### Ending (R263 to R266) -/

/-- Frames of an occurrence's own streams (OPEN, DATA, CLOSE) that a port has not sent yet are withdrawn; its answers
stay, and frames under way for other ranks, which have lost a forwarding hop. -/
def withdraw (s : State) (c : Ctx) : State :=
  let mine (f : Frame) : Bool :=
    decide (f.vc = c.vc) && decide (f.coll = c.seq) && decide (f.bucket = c.bucket) &&
      (decide (f.typ ≤ 1) || decide (f.typ = 6)) && decide (f.ttl = 4)
  let ports := (s.net.ports.map fun x => (x.1, { x.2 with waiting := x.2.waiting.filter fun f => !mine f })).filter
    fun x => decide (x.2 ≠ portReset)
  { s with net := { s.net with ports := ports } }

/-- Ranks with which an occurrence has exchanged an open. -/
def partners (c : Ctx) : List Nat :=
  dedup (c.outs.map (fun o => o.rank) ++ (c.ins.filter fun i => i.arrived).map fun i => i.rank)

/-- What an occurrence with a collective context writes: its dst, or the record and results of an EXCHANGE. -/
def ctxTargets (o : Occ) : List (Int × Nat) :=
  if o.opcode = 0x18 then normBytes (o.ten 1) ++ elemBytes (o.ten 2) else elemBytes (o.ten 1)

/-- Whether a descriptor asks for fan-out. -/
def fanBit (o : Occ) : Bool :=
  if o.opcode = 0x10 then o.f 275 1 == 1 else if o.opcode = 0x09 then o.f 288 1 == 1 else false

/-- The unit_flags of an occurrence that ends with a peer code (R262). -/
def peerFlags (c : Ctx) (o : Occ) (code nak peer : Nat) : Nat :=
  if o.opcode = 0x10 then
    bitIf (fanBit o && c.outs.any fun x => x.uni) 16 + nak * 2 ^ 8 + (if code = stAborted then 0 else peer * 2 ^ 16)
  else if o.opcode = 0x18 then bitIf c.poison flagPoison
  else 0

/-- Ends an open occurrence with a peer code, a NAK code and the position concerned: ABORT goes to every participant
with which an open was exchanged, but for FENCED (R263, R264). -/
def endCtx (s : State) (id code nak peer : Nat) : State :=
  match s.ctxOf id, s.occ id with
  | some c, some o =>
    let s := s.withdraw c
    let s := if code = stFenced then s
      else (partners c).foldl (fun (s : State) r => s.sendTo { s.ctxFrame c 5 0 .none with dst := r }) s
    let s := s.undefine (ctxTargets o)
    let s :=
      if code = stAborted then s
      else
        (((s.fset collP COLL.LAST_PEER_ERR_rank (c.ranks.getD peer 0)).fset collP COLL.LAST_PEER_ERR_code code).fset collP
          COLL.LAST_PEER_ERR_nak nak).fset collP COLL.LAST_PEER_SEQ_seq c.seq
    let s := s.putCtx { c with rep := none, done := true }
    s.putOcc { o with
      place := if o.place = .input ∧ o.unit ≠ .coll then .ended else .done, code := code,
      uflags := peerFlags c o code nak peer }
  | _, _ => s

/-- Whether an open occurrence still runs. -/
def running (s : State) (c : Ctx) : Bool :=
  match s.occ c.occ with
  | some o => decide (o.place ≠ .done) && decide (o.place ≠ .ended)
  | none => false

/-- Ends every open occurrence that a condition names. -/
def endCtxs (s : State) (p : Ctx → Bool) (code nak : Nat) (peer : Ctx → Nat) : State :=
  (s.coll.ctxs.filter fun c => p c && s.running c).foldl (fun (s : State) c => s.endCtx c.occ code nak (peer c)) s

/-- A NAK sent on an identity (R259, R266); CLOSED is no error event (14 R355). -/
def sendNak (s : State) (dst vc seq bucket code : Nat) : State :=
  let s := s.sendTo (s.frame dst vc 3 seq bucket 0 (.nak code))
  let s := s.count collP COLL.NAK_CNT_count
  if code = 4 then s else s.errEvent .coll 0 0xA7 code dst

/-- A frame for an identity that is not open is dropped and counted (R266). -/
def lateFrame (s : State) : State := (s.count collP COLL.LATE_FRAME_CNT_count).event .coll 0 COLL.PAGE_EVT_late_frame

/-! ### Closing records and reports (R253, R254, R261) -/

def reportEmpty : Report := ⟨0, 0xFFFFFFFF, 0, 0, 0, 0⟩

/-- The report that the last position makes of a chain's counts: only elements in unpoisoned result words count. With no
NaN result first_nan_pos is 0 (DESIGN CHOICE, notes/assumptions/112.md). -/
def chainReport (c : Ctx) (sz : Nat) : Report :=
  let ok (i : Nat) : Bool := !c.bad.contains (i * sz / 8)
  let final := (c.nans.filter fun x => decide (x.2 = c.g - 1) && ok x.1).map (·.1)
  let first := final.foldl min 0xFFFFFFFF
  let at' := ((c.nans.filter fun x => decide (x.1 = first)).map (·.2)).foldl min (c.g - 1)
  ⟨min (2 ^ 32 - 1) final.length, first, if final.isEmpty then 0 else at', min (2 ^ 32 - 1) (c.sats.filter ok).length,
    min (2 ^ 32 - 1) (c.infs.filter ok).length, c.bad.length⟩

/-- Total wire bytes of a reducing chain. -/
def chainBytes (c : Ctx) (o : Occ) : Nat := optCount (o.ten 0) * unitSize c o

/-- Sends the closing record once the chain has passed this position whole. -/
def tryClose (s : State) (id : Nat) : State :=
  match s.ctxOf id, s.occ id with
  | some c, some o =>
    if redSub c.sub && !c.closed && decide (c.passed = chainBytes c o) && (c.closeIn || decide (c.pos = 0)) then
      if c.pos + 1 = c.g then
        let r := chainReport c (unitSize c o)
        let s := s.putCtx { c with closed := true, rep := some r }
        let backs := (List.range c.outs.length).filter fun k => (c.outs.getD k ⟨0, 0, false, false, false, 0, [], true⟩).back
        backs.foldl (fun (s : State) k => s.post id k { s.ctxFrame c 6 0 (.closeBack r) with last := true }) s
      else
        let s := s.putCtx { c with closed := true }
        s.post id 0 { s.ctxFrame c 6 0 (.closeFwd c.sats c.nans) with last := true }
    else s
  | _, _ => s

/-! ### Moving data -/

/-- The bytes of one frame: 4,096, or 4,032 when one of their words is poisoned (R252). -/
def frameLen (left : Nat) (poisoned : Nat → Bool) : Nat :=
  let n := min 4096 left
  if poisoned n then min 4032 left else n

/-- A piece that hops and results put into frames: in two where a poisoned word leaves it no room in one (R252). -/
def splitPiece (off : Nat) (p : Piece) : List (Nat × Piece) :=
  if p.bytes.length ≤ 4032 ∨ (p.poison.any fun x => x) = false then [(off, p)]
  else [(off, ⟨p.bytes.take 4032, p.poison.take 504⟩), (off + 4032, ⟨p.bytes.drop 4032, p.poison.drop 504⟩)]

/-- Posts a piece of a chain on a stream. -/
def postPiece (s : State) (id k off : Nat) (p : Piece) : State :=
  (splitPiece off p).foldl (fun (s : State) x =>
    match s.ctxOf id with
    | some c => s.post id k (s.ctxFrame c 0 x.1 x.2.pay)
    | none => s) s

/-- Notes a hop's counts at a context, and the poisoned words of a final result. -/
def noteHop (c : Ctx) (off : Nat) (h : HopOut) : Ctx :=
  let final := decide (c.pos + 1 = c.g)
  let badWords := ((List.range h.piece.poison.length).filter fun k => h.piece.poison.getD k false).map fun k => off / 8 + k
  { c with
    sats := c.sats ++ h.sats, nans := c.nans ++ h.nans.map fun i => (i, c.pos),
    infs := if final then c.infs ++ h.infs else c.infs, bad := if final then c.bad ++ badWords else c.bad,
    poison := c.poison || h.read }

/-- Lands a piece of a reducing chain's result. -/
def landResult (s : State) (c : Ctx) (o : Occ) (off : Nat) (p : Piece) : State :=
  match o.ten 1 with
  | none => s
  | some dst =>
    let sz := unitSize c o
    let share := optCount (o.ten 1)
    let base := if c.sub = 2 then c.pos * share else 0
    -- the part of the piece that is this position's
    let lo := max off (base * sz)
    let hi := min (off + p.bytes.length) ((base + share) * sz)
    if hi ≤ lo then s
    else
      let q : Piece := ⟨(p.bytes.drop (lo - off)).take (hi - lo),
        (List.range ((hi - lo + 7) / 8)).map fun k => p.poison.getD ((lo - off) / 8 + k) false⟩
      let es := resultElems s.mem o dst base lo q
      let bytes := wElems es
      let bad := (es.any fun e => e.poison) || (q.poison.any fun x => x) || s.mem.writeMeetsPoison bytes
      -- the last position has read the scales at its hop
      let s := if dst.fmt = wireFmt o ∨ c.pos + 1 = c.g then s else s.touchScaleBytes o (lo / sz) ((hi - lo) / sz)
      let s := es.foldl (fun (s : State) e => s.stackBytes STK.STK_WR_BYTES_LO_count e.addr e.size) (s.store bytes)
      let s := s.crossFabric (es.map fun e => (e.addr, e.size))
      s.putCtx { c with landed := c.landed + (hi - lo), poison := c.poison || bad }

/-- Sends a piece of the final result on: back along the chain, or each shard's part to its position (R246). -/
def sendResult (s : State) (c : Ctx) (o : Occ) (off : Nat) (p : Piece) : State :=
  let sz := unitSize c o
  let share := optCount (o.ten 1) * sz
  (List.range c.outs.length).foldl (fun (s : State) k =>
    match c.outs[k]? with
    | none => s
    | some st =>
      if c.sub = 1 then s.postPiece c.occ k off p
      else
        let lo := max off (st.pos * share)
        let hi := min (off + p.bytes.length) ((st.pos + 1) * share)
        if hi ≤ lo then s
        else
          let q : Piece := ⟨(p.bytes.drop (lo - off)).take (hi - lo),
            (List.range ((hi - lo + 7) / 8)).map fun j => p.poison.getD ((lo - off) / 8 + j) false⟩
          s.postPiece c.occ k lo q) s

/-- One piece passes this position's adder (R249): on to the next position, or, at the last, into dst and back. -/
def hop (s : State) (id off n : Nat) (inc : Option Piece) : State :=
  match s.ctxOf id, s.occ id with
  | some c, some o =>
    let key := s.pair collP COLL.JOB_KEY_LO_key
    let h := hopPiece s.mem key c o off n inc
    let s := match o.ten 0 with
      | some src => s.touchStream src (off / unitSize c o * src.size) (n / unitSize c o * src.size)
      | none => s
    let s := s.touchScaleBytes o (off / unitSize c o) (n / unitSize c o)
    let c : Ctx := { noteHop c off h with passed := c.passed + n }
    let s := s.putCtx c
    let p := h.piece.masked
    let s :=
      if c.pos + 1 = c.g then
        let s := s.landResult c o off p
        match s.ctxOf id with
        | some c => s.sendResult c o off p
        | none => s
      else s.postPiece id 0 off p
    s.tryClose id
  | _, _ => s

/-- Local bytes that are taken one piece at a time into `own`. -/
def ownBytes (s : State) (c : Ctx) (o : Occ) : Nat :=
  if !isSource c o then 0 else (blockOf s c o c.pos).2 * unitSize c o

/-- Whether a piece of local data lands in the own dst, and at which byte. -/
def ownAt (s : State) (c : Ctx) (o : Occ) : Option Nat :=
  if c.sub = 3 ∨ c.sub = 0x10 then some (c.pos * optCount (o.ten 0) * unitSize c o)
  else if c.sub = 4 then some 0
  else if c.sub = 5 then some (recvBase s c o c.pos * unitSize c o)
  else none

/-- Whether every incoming stream was accepted. -/
def insOpen (c : Ctx) : Bool := c.ins.all fun i => i.accepted

/-- Takes the next piece of the local data that stays or goes the same way on every stream. -/
def ownPiece (s : State) (id : Nat) : State :=
  match s.ctxOf id, s.occ id with
  | some c, some o =>
    match o.ten 0 with
    | none => s
    | some src =>
      let total := ownBytes s c o
      let start := (blockOf s c o c.pos).1 * unitSize c o
      if total ≤ c.own ∨ (c.sub = 5 ∧ insOpen c = false) then s
      else
        let n := frameLen (total - c.own) fun n => (readPiece s.mem src (start + c.own) n).poison.any fun x => x
        let p := readPiece s.mem src (start + c.own) n
        let off := c.own
        let s := ((s.touchStream src (start + off) n).gatherBytes o DMA.DMA_RD_BYTES_LO_count n).putCtx { c with own := c.own + n, poison := c.poison || p.poison.any fun x => x }
        let s :=
          match ownAt s c o, o.ten 1, s.ctxOf id with
          | some base, some dst, some c =>
            ((s.landPiece dst (base + off) p).gatherBytes o DMA.DMA_WR_BYTES_LO_count n).putCtx
              { c with landed := c.landed + n, poison := c.poison || s.landBad dst (base + off) p }
          | _, _, _ => s
        if c.sub = 5 then s
        else
          (List.range c.outs.length).foldl (fun (s : State) k =>
            s.post id k { s.ctxFrame c 0 off p.pay with last := decide (off + n = total) }) s
  | _, _ => s

/-- Takes the next piece of each block that an ALLTOALL sends. -/
def blockPieces (s : State) (id : Nat) : State :=
  match s.ctxOf id, s.occ id with
  | some c, some o =>
    (List.range c.outs.length).foldl (fun (s : State) k =>
      match s.ctxOf id, o.ten 0 with
      | some c, some src =>
        match c.outs[k]? with
        | none => s
        | some st =>
          let b := blockOf s c o st.pos
          let total := b.2 * unitSize c o
          if total ≤ st.sent then s
          else
            let at' := b.1 * unitSize c o + st.sent
            let n := frameLen (total - st.sent) fun n => (readPiece s.mem src at' n).poison.any fun x => x
            let p := readPiece s.mem src at' n
            let s := (s.touchStream src at' n).putCtx
              { c with outs := c.outs.set k { st with sent := st.sent + n }, poison := c.poison || p.poison.any fun x => x }
            s.post id k { s.ctxFrame c 0 st.sent p.pay with last := decide (st.sent + n = total) }
      | _, _ => s) s
  | _, _ => s

/-- The next piece of a reducing chain's first position. -/
def chainPiece (s : State) (id : Nat) : State :=
  match s.ctxOf id, s.occ id with
  | some c, some o =>
    let total := chainBytes c o
    if c.pos ≠ 0 ∨ total ≤ c.own then s
    else
      let key := s.pair collP COLL.JOB_KEY_LO_key
      let n := frameLen (total - c.own) fun n => (hopPiece s.mem key c o c.own n none).piece.poison.any fun x => x
      (s.putCtx { c with own := c.own + n }).hop id c.own n none
  | _, _ => s

/-- Takes an occurrence's next local piece: what a COLL or GATHER_AHEAD command does. -/
def collPiece (s : State) (id : Nat) : State :=
  match s.ctxOf id with
  | none => s
  | some c =>
    let s := s.putCtx { c with started := true }
    if redSub c.sub then s.chainPiece id
    else if c.sub = 5 then (s.blockPieces id).ownPiece id
    else s.ownPiece id

/-! ### NORM EXCHANGE (08 R223) -/

/-- The record of a 96-byte payload. -/
def recOf (bs : List Nat) : NormRec := NormRec.ofBits (bs.foldr (fun b acc => b + 256 * acc) 0)

/-- Ends an EXCHANGE: the full sum goes into acc on this participant. -/
def exchangeEnd (s : State) (c : Ctx) (o : Occ) (r : NormRec) (poison : Bool) : State :=
  match o.ten 1 with
  | none => s
  | some acc =>
    let s := s.store (wbytes (acc.addrs.headD 0).toNat r.bits poison 96)
    let f : State × Bool := match o.ten 2 with
      | some out => normFinal s out r (o.aux.getD 7 0) poison
      | none => (s, false)
    f.1.putCtx { c with done := true, poison := c.poison || poison || f.2 }

/-- Takes the records an EXCHANGE holds, once the vector engine has started it. -/
def exchangeStep (s : State) (id : Nat) : State :=
  match s.ctxOf id, s.occ id with
  | some c, some o =>
    if !c.started || c.done then s
    else
      let a := match o.ten 1 with | some acc => (acc.addrs.headD 0).toNat | none => 0
      let own := NormRec.ofBits (s.mem.readN a 96)
      let ownBad := s.mem.poisonedN a 96
      let piece (r : NormRec) (b : Bool) : Payload := .data (if b then List.replicate 96 0 else bytesOf r.bits 96) (List.replicate 12 b)
      let back (k : Nat) (r : NormRec) (b : Bool) (s : State) : State := s.post id k (s.ctxFrame c 0 96 (piece r b))
      -- the stream back to the predecessor is the last one
      let backK := c.outs.length - 1
      let forward (s : State) (r : NormRec) (b : Bool) : State :=
        if c.pos + 1 = c.g then
          let s := s.exchangeEnd c o r b
          if 0 < c.pos then back backK r b s else s
        else s.post id 0 (s.ctxFrame c 0 0 (piece r b))
      if c.own = 0 ∧ c.pos = 0 then
        (forward ((s.touchReads [(a, 96)]).putCtx { c with own := 96, poison := c.poison || ownBad }) own ownBad)
      else
        match c.inbox with
        | [] => s
        | f :: rest =>
          match f.pay with
          | .data bs pz =>
            let bad := pz.any fun x => x
            let s := s.putCtx { c with inbox := rest, own := 96 }
            if f.offset = 96 then
              -- the full sum on its way back
              let s := s.exchangeEnd { c with inbox := rest, own := 96 } o (recOf bs) bad
              if 0 < c.pos then back backK (recOf bs) bad s else s
            else
              let s := s.touchReads [(a, 96)]
              let s := s.putCtx { c with inbox := rest, own := 96, poison := c.poison || bad || ownBad }
              let r := (recOf bs).merge own
              forward (s.eventIf (r.ovf && !(recOf bs).ovf && !own.ovf) .norm 0 NORM.PAGE_EVT_ovf) r (bad || ownBad)
          | _ => s
  | _, _ => s

end State

end Sys2Proof.Machine
end

