-- ==== Sys2Proof/Machine/CollCmd.lean ====
section
/-!
DEFINITION. Grants of contexts, answers to opens, what received collective frames do, completion of occurrences, and the
commands of the collective engine (06 R155; 10 R239 to R269).
-/
namespace Sys2Proof.Machine

namespace State

/-! ### Granting a context (R256, R257, R259) -/

def vcOf (o : Occ) : Nat := o.aux.getD 1 0
def seqOf (o : Occ) : Nat := o.aux.getD 2 0
def bucketOf (o : Occ) : Nat := o.aux.getD 3 0

/-- The streams an occurrence sends: (position, return chain) (R246). -/
def outsOf (sub g pos peer : Nat) (fan sends : Bool) : List (Nat × Bool) :=
  let others := (List.range g).filter fun k => decide (k ≠ pos)
  match sub with
  | 1 | 0x11 => (if pos + 1 < g then [(pos + 1, false)] else []) ++ (if 0 < pos then [(pos - 1, true)] else [])
  | 2 => if pos + 1 < g then [(pos + 1, false)] else others.map fun k => (k, true)
  | 3 | 0x10 => if fan then others.map fun k => (k, false) else if g = 1 then [] else [((pos + 1) % g, false)]
  | 4 =>
    if fan then (if pos = peer then others.map fun k => (k, false) else [])
    else if g = 1 ∨ (pos + 1) % g = peer then [] else [((pos + 1) % g, false)]
  | 5 => others.map fun k => (k, false)
  | 6 => [(peer, false)]
  | 8 => if sends then [(pos + 1, false)] else []
  | _ => []

/-- The streams an occurrence receives. -/
def insOf (sub g pos peer : Nat) (fan sends : Bool) : List (Nat × Bool) :=
  let others := (List.range g).filter fun k => decide (k ≠ pos)
  match sub with
  | 1 | 0x11 => (if 0 < pos then [(pos - 1, false)] else []) ++ (if pos + 1 < g then [(pos + 1, true)] else [])
  | 2 => (if 0 < pos then [(pos - 1, false)] else []) ++ (if pos + 1 < g then [(g - 1, true)] else [])
  | 3 | 0x10 => if fan then others.map fun k => (k, false) else if g = 1 then [] else [((pos + g - 1) % g, false)]
  | 4 => if pos = peer then [] else if fan then [(peer, false)] else [((pos + g - 1) % g, false)]
  | 5 => others.map fun k => (k, false)
  | 7 => [(peer, false)]
  | 8 => if sends then [] else [(pos - 1, false)]
  | _ => []

/-- Whether the plan's fan-out sets reach every other rank of a group (09 R231). -/
def fanCovers (s : State) (ranks : List Nat) : Bool :=
  ranks.all fun r => decide (r = s.rank) || !(s.fanChans r).isEmpty

/-- What opening an occurrence reads of its group: the table entry and the list of ranks (R241). -/
def groupReads (s : State) (g : Nat) : List (Nat × Nat) :=
  [(s.groupEntry g, 16), (s.groupBits g 0 48, 2 * s.groupSize g)]

/-- Whether the stacks that hold a group's entry and list accept accesses (05 R136). -/
def groupOpen (s : State) (i : Nat) : Bool := (s.groupReads i).all fun r => s.memOpen r.1

/-- Whether the memory that opening an occurrence reads accepts accesses. -/
def opensOn (s : State) (o : Occ) : Bool := s.tensOpen o && s.groupOpen (o.aux.getD 4 0)

/-- The context an occurrence opens with. -/
def newCtx (s : State) (o : Occ) : Ctx :=
  let sub := o.aux.getD 0 0
  let gi := o.aux.getD 4 0
  let g := o.aux.getD 5 1
  let pos := o.aux.getD 6 0
  let peer := o.f 280 16
  let fan := fanBit o
  let sends := (o.ten 0).isSome
  let ranks := s.groupRanks gi
  let uni := !(fan && s.fanCovers ranks)
  let rankAt (k : Nat) : Nat := ranks.getD k 0
  { occ := o.id, tile := o.tile, vc := vcOf o, seq := seqOf o, bucket := bucketOf o, sub := sub, g := g, pos := pos,
    ranks := ranks, started := false, lent := 0,
    outs := (outsOf sub g pos peer fan sends).map fun x => ⟨x.1, rankAt x.1, x.2, false, false, 0, [], uni⟩,
    ins := (insOf sub g pos peer fan sends).map fun x => ⟨x.1, rankAt x.1, x.2, false, false, 0⟩,
    seen := [], inbox := [], own := 0, passed := 0, landed := 0, closeIn := false, closed := false, sats := [],
    nans := [], bad := [], infs := [], rep := none,
    poison := o.poison || (s.groupReads gi).any fun r => s.mem.poisonedN r.1 r.2, done := false }

/-- The NAK code of an open that disagrees; 0 when every field agrees (Negative acknowledgements). Where several fields
disagree, sub-operation, format and G come first, then the length, the digest, the rank, and last a position from which
this sub-operation receives nothing (DESIGN CHOICE, notes/assumptions/112.md). -/
def nakOf (s : State) (c : Ctx) (o : Occ) (r : OpenRec) : Nat :=
  if r.sub ≠ wantSub c.sub ∨ r.fmt ≠ openFmt c o ∨ r.g ≠ c.g then 2
  else if (match wantCount c o with | some n => decide (r.e ≠ n) | none => false) then 1
  else if r.digest ≠ digest s o then 2
  else if c.ranks.getD r.pos 0x10000 ≠ r.rank then 3
  else if (c.ins.any fun i => decide (i.pos = r.pos)) = false then 2
  else 0

/-- The stream of an open arrives. -/
def arrive (c : Ctx) (r : OpenRec) (accepted : Bool) : Ctx :=
  { c with ins := c.ins.map fun i => if i.pos = r.pos then { i with arrived := true, accepted := accepted, n := r.e } else i }

def sendAccept (s : State) (c : Ctx) (rank : Nat) : State := s.sendTo { s.ctxFrame c 2 0 .none with dst := rank }

/-- The staging pool's units beyond the reservations, which contexts of a VC have been lent (R260). -/
def lentOf (s : State) (vc : Nat) : Nat :=
  ((s.coll.ctxs.filter fun c => decide (c.vc = vc)).map fun c => c.lent).foldl (· + ·) 0

/-- Lends a context what its accepted streams need beyond its own 64 KiB, in units of 64 KiB: at most 1 MiB, and no more
than the 64 units of the VC's pool allow (R260; notes/assumptions/109.md). -/
def lend (s : State) (id : Nat) : State :=
  match s.ctxOf id, s.occ id with
  | some c, some o =>
    let bytes := ((c.ins.filter fun i => i.accepted).map fun i => i.n * unitSize c o).foldl (· + ·) 0
    let need := min 16 ((bytes + 65535) / 65536 - 1)
    s.putCtx { c with lent := max c.lent (min need (c.lent + (64 - s.lentOf c.vc))) }
  | _, _ => s

/-- A counted ALLTOALL whose opens have all arrived: the receive counts are written, and the streams are accepted, or
every sender is answered NAK(BAD_LEN) when they exceed dst (R245). The peer that DST_SHORT names is then the first
position that sends (DESIGN CHOICE, notes/assumptions/112.md). -/
def countsArrived (s : State) (id : Nat) : State :=
  match s.ctxOf id, s.occ id with
  | some c, some o =>
    match o.ten 3, o.ten 1 with
    | some ct, some dst =>
      let counts := (List.range c.g).map (recvCount s c o)
      let bytes := ((List.range c.g).zip counts).flatMap fun x => wbytes (ct.addr [c.g + x.1]) x.2 false 4
      let c : Ctx := { c with poison := c.poison || s.mem.writeMeetsPoison bytes }
      let s := bytes.foldl (fun (s : State) b => s.stackBytes STK.STK_WR_BYTES_LO_count b.addr 1) ((s.store bytes).putCtx c)
      if dst.count < counts.foldl (· + ·) 0 then
        let s := c.ins.foldl (fun (s : State) i => s.sendNak i.rank c.vc c.seq c.bucket 1) s
        s.endCtx id stDstShort 1 (c.ins.headD ⟨0, 0, false, false, false, 0⟩).pos
      else
        let s := s.putCtx { c with ins := c.ins.map fun i => { i with accepted := true } }
        let s := (s.lend id).topUpVc c.vc
        c.ins.foldl (fun (s : State) i => s.sendAccept c i.rank) s
    | _, _ => s
  | _, _ => s

/-- Settles the counts of an ALLTOALL once its opens have all arrived and its memory accepts accesses (R245; 05 R136). -/
def settleCounts (s : State) (id : Nat) : State :=
  match s.ctxOf id, s.occ id with
  | some c, some o =>
    if c.sub = 5 ∧ (o.ten 3).isSome = true ∧ c.ins ≠ [] ∧ (c.ins.all fun i => i.arrived && !i.accepted) = true ∧
        s.running c = true ∧ s.tensOpen o = true then s.countsArrived id
    else s
  | _, _ => s

/-- Answers an open for an occurrence that holds its context (R259). -/
def answerOpen (s : State) (id src : Nat) (r : OpenRec) : State :=
  match s.ctxOf id, s.occ id with
  | some c, some o =>
    let code := s.nakOf c o r
    if code ≠ 0 then (s.sendNak src c.vc c.seq c.bucket code).endCtx id stPeerProtocol code (min r.pos (c.g - 1))
    else if c.sub = 5 ∧ (o.ten 3).isSome then
      let c := arrive c r false
      (s.putCtx c).settleCounts id
    else (((s.putCtx (arrive c r true)).lend id).topUpVc c.vc).sendAccept c src
  | _, _ => s

/-- Answers the pending opens of an identity. -/
def answerPending (s : State) (c : Ctx) : State :=
  let mine (p : PendOpen) : Bool := decide (p.vc = c.vc) && decide (p.seq = c.seq) && decide (p.bucket = c.bucket)
  let ps := s.coll.pend.filter mine
  let s := { s with coll := { s.coll with pend := s.coll.pend.filter fun p => !mine p } }
  ps.foldl (fun (s : State) p => match s.ctxOf c.occ with
    | some x => if s.running x then s.answerOpen c.occ p.src p.r else s.sendNak p.src c.vc c.seq c.bucket 4
    | none => s) s

/-- The pending opens of an identity that ended at its open go; one whose sender is no participant, which no ABORT told,
is answered CLOSED. -/
def dropPending (s : State) (c : Ctx) : State :=
  let mine (p : PendOpen) : Bool := decide (p.vc = c.vc) && decide (p.seq = c.seq) && decide (p.bucket = c.bucket)
  let others := (s.coll.pend.filter mine).filter fun p => !(c.ins.any fun i => decide (i.rank = p.src))
  others.foldl (fun (s : State) p => s.sendNak p.src c.vc c.seq c.bucket 4)
    { s with coll := { s.coll with pend := s.coll.pend.filter fun p => !mine p } }

/-- Whether one sequence number lies before another in wrapping order (06 R151). -/
def seqBefore (a b : Nat) : Bool := decide (a ≠ b) && decide ((b + 2 ^ 32 - a) % 2 ^ 32 < 2 ^ 31)

/-- The heads that wait at step 4. -/
def heads (s : State) : List Occ :=
  ((List.range (Member.tiles s.member)).flatMap fun t => (List.range 8).filterMap fun q => s.headOcc t q).filter fun o =>
    decide (o.place = .checked)

/-- Collective occurrences in flight from a tile (R257). -/
def inFlight (s : State) (t : Nat) : Nat := (s.coll.ctxs.filter fun c => decide (c.tile = t)).length

/-- The heads that wait for a context of a VC and may take one (R257, R267). -/
def ctxHeads (s : State) (vc : Nat) : List Occ :=
  s.heads.filter fun o =>
    decide (o.unit ≠ .tseq) && needsContext o.desc && decide (vcOf o = vc) &&
      decide (s.inFlight o.tile < 16) && s.hasRoom o && !s.unitQuiesced o && s.opensOn o &&
      !(decide (o.opcode = 0x18) && s.flag (pageNum .norm 0) NORM.PAGE_CTRL_quiesce)

/-- The head served first: lowest sequence number, then lowest tile. -/
def firstHead : List Occ → Option Occ
  | [] => none
  | o :: r =>
    match firstHead r with
    | some x => if seqBefore (seqOf x) (seqOf o) then some x else some o
    | none => some o

/-- Contexts that collectives may hold on a VC: the snapshot unit keeps 16 of VC7's (R257). -/
def ctxLimit (vc : Nat) : Nat := if vc = 7 then 48 else 64

/-- Opens an occurrence with its context. -/
def openCtx (s : State) (o : Occ) : State :=
  let c := s.newCtx o
  let quiet : Ctx := { c with outs := [], ins := [], done := true }
  let mine (p : PendOpen) : Bool := decide (p.vc = c.vc) && decide (p.seq = c.seq) && decide (p.bucket = c.bucket)
  let s := s.serveQueue o.tile o.queue o
  let s := (s.groupReads (o.aux.getD 4 0)).foldl (fun (s : State) r => s.hubTouch r.1 r.2) s
  if (s.ctxAt c.vc c.seq c.bucket).isSome then
    let s : State := { s with coll := { s.coll with ctxs := s.coll.ctxs ++ [quiet] } }
    s.putOcc { o with place := .ended, code := stDupBucket }
  else
    let ended := s.coll.ended.filter fun x => decide (x ≠ (c.vc, c.seq, c.bucket))
    let s : State := { s with coll := { s.coll with ctxs := s.coll.ctxs ++ [c], ended := ended } }
    let lost := c.ranks.findIdx fun r => s.snap.lost.contains r
    let needed := dedup (c.outs.map (fun x => x.pos) ++ c.ins.map fun x => x.pos)
    let noWay := needed.filter fun k => !s.coordValid || (s.routeOf (c.ranks.getD k 0) c.vc).isNone
    -- an occurrence that ends here tells those whose opens it holds (R264)
    let held := (s.coll.pend.filter mine).map fun p => p.src
    let told : Ctx := { quiet with ins := (c.ins.filter fun i => held.contains i.rank).map fun i => { i with arrived := true } }
    if lost < c.ranks.length then ((s.putCtx told).endCtx o.id stPeerLost 0 lost).dropPending c
    else
      match noWay with
      | k :: _ => (((s.count routeP ROUTE.NO_ROUTE_CNT_count).putCtx told).endCtx o.id stNoRoute 0 k).dropPending c
      | [] =>
        -- the digest reads the scale bytes, and an ALLTOALL its send counts
        let s := s.touchScaleBytes o 0 (optCount (o.ten 0))
        let s := match o.ten 3 with | some ct => s.touchStream ct 0 (4 * c.g) | none => s
        let s := c.outs.foldl (fun (s : State) st => s.sendOpen c o st) s
        let short := fanBit o && decide (1 < c.g) && c.outs.any fun x => x.uni
        let s := if short then
            (s.addFree collP COLL.FALLBACK_CNT_count c.outs.length).event .coll 0 COLL.PAGE_EVT_fallback
          else s
        let s := (s.topUpVc c.vc).answerPending c
        -- with no other participant, the counts are all there (00 R5, R245)
        if c.sub = 5 ∧ (o.ten 3).isSome ∧ c.ins = [] then s.countsArrived o.id else s

/-- Whether the engine grants contexts of a VC now (R257, R267; 14 R366; 15 R372). -/
def grantsOn (s : State) (vc : Nat) : Bool :=
  decide (vc ≤ 7) && decide (s.ctxCount vc < ctxLimit vc) && !s.flag collP COLL.PAGE_CTRL_quiesce && !s.fireClosed &&
    decide (s.pwrState ≤ 1)

/-- Whether a head that needs a context is the one that its VC grants one next (R257). -/
def mayOpen (s : State) (o : Occ) : Bool :=
  needsContext o.desc && s.grantsOn (vcOf o) && decide (firstHead (s.ctxHeads (vcOf o)) = some o)

/-- Whether the head of another queue of the tile is ready for the same unit and is served first (06 R146). Between heads of
one VC the order of R257 decides. -/
def yields (s : State) (t q : Nat) (o : Occ) : Bool :=
  (List.range 8).any fun p =>
    match s.headOcc t p with
    | some x => decide (x.unit = o.unit) && (s.mayHand x || s.mayOpen x) && s.servedBefore t p q &&
        !(needsContext x.desc && needsContext o.desc && decide (vcOf x = vcOf o))
    | none => false

/-- Grants a free context of a VC. -/
def grant (s : State) (vc : Nat) : State :=
  match firstHead (s.ctxHeads vc) with
  | none => s
  | some o =>
    if s.grantsOn vc = false ∨ s.yields o.tile o.queue o = true then s
    else if s.pwrState = 1 ∧ needsTclk o = true then s.wakeForWork
    else s.openCtx o

/-! ### Completion (R253, R254, R261, R262) -/

/-- The addresses of the dst elements that an occurrence has written: all of them, but for an ALLTOALL whose counts bring
fewer (R245, R254). -/
def landedAddrs (c : Ctx) (o : Occ) (t : Tensor) : List Nat :=
  (if c.sub = 5 then t.addrs.take (c.landed / unitSize c o) else t.addrs).map Int.toNat

/-- The poisoned words among the dst elements written. -/
def poisonWords (m : MemSt) (c : Ctx) (o : Occ) : Nat :=
  match o.ten 1 with
  | some t => ((elemWords t.size (landedAddrs c o t)).filter m.wordPoison).length
  | none => 0

/-- The counts of an occurrence's report. -/
def reportOf (s : State) (o : Occ) (c : Ctx) : Report :=
  if o.code ≠ stOk then reportEmpty
  else match c.rep with
    | some r => r
    | none => { reportEmpty with poison := poisonWords s.mem c o }

/-- Bytes of dst that must have landed. -/
def wantLanded (s : State) (c : Ctx) (o : Occ) : Nat :=
  match o.ten 1 with
  | none => 0
  | some dst =>
    if c.sub = 0x11 then 0
    else if c.sub = 3 ∨ c.sub = 0x10 then c.g * optCount (o.ten 0) * unitSize c o
    else if c.sub = 5 then recvBase s c o c.g * unitSize c o
    else dst.count * unitSize c o

/-- Whether every frame sent for an identity was accepted by its receiver. -/
def allAcked (s : State) (c : Ctx) : Bool :=
  let mine (f : Frame) : Bool :=
    decide (f.vc = c.vc) && decide (f.coll = c.seq) && decide (f.bucket = c.bucket) && decide (f.typ ≤ 6)
  s.net.ports.all fun x => !(x.2.waiting.any mine) && !(x.2.replay.any fun r => mine r.frame)

/-- Whether an open occurrence may complete (R261). -/
def ctxReady (s : State) (c : Ctx) (o : Occ) : Bool :=
  decide (o.place = .done) || decide (o.place = .ended) ||
  (c.started && (c.outs.all fun x => x.accepted && x.held.isEmpty) && insOpen c &&
    decide (c.landed = wantLanded s c o) && s.allAcked c &&
    (if redSub c.sub then c.rep.isSome && decide (c.passed = chainBytes c o)
     else if c.sub = 0x11 then c.done
     else if c.sub = 5 then decide (c.own = ownBytes s c o) &&
       c.outs.all fun x => decide (x.sent = (blockOf s c o x.pos).2 * unitSize c o)
     else decide (c.own = ownBytes s c o)))

/-- The report's 32 bytes. -/
def reportBits (o : Occ) (r : Report) : Nat :=
  seqOf o % 2 ^ 32 + bucketOf o * 2 ^ 32 + o.code * 2 ^ 48 + o.subop * 2 ^ 56 + r.nan * 2 ^ 64 + r.firstNan * 2 ^ 96 +
    r.firstPos * 2 ^ 128 + r.sat * 2 ^ 160 + r.inf * 2 ^ 192 + r.poison * 2 ^ 224

/-- The classes that a collective's dst counts into its watcher slot (02 R57). -/
def dstClasses (m : MemSt) (c : Ctx) (o : Occ) (t : Tensor) : List Nat :=
  ((landedAddrs c o t).filter fun a => !m.poisonedN a t.size).map fun a =>
    watchClass t.fmt ⟨m.code t.fmt a, false, false, false, false⟩ false

/-- Completes a collective occurrence: report, flags and page events, and the context closes. The occurrence comes back
ready for its status record. -/
def collFinal (s : State) (o : Occ) (c : Ctx) : State × Occ :=
  let r := s.reportOf o c
  let ok := decide (o.code = stOk)
  let s := s.hubStore (s.reportSlot (bucketOf o)) (reportBits o r) 32 false
  let s := if ok then (match o.ten 1 with
      | some t => if t.slotEn && decide (o.opcode ≠ 0x18) then s.watchAdd o.tile t.slot (dstClasses s.mem c o t) else s
      | none => s) else s
  let s := (s.eventIf (decide (0 < r.nan) || decide (0 < r.inf)) .coll 0 COLL.PAGE_EVT_nan).eventIf
    (decide (0 < r.sat)) .coll 0 COLL.PAGE_EVT_sat
  let s := s.eventIf (decide (0x20 ≤ o.code) && decide (o.code ≤ 0x26)) .coll 0 COLL.PAGE_EVT_peer_err
  let s := (s.addWrap collP COLL.DONE_CNT_count 1).event .coll 0 COLL.PAGE_EVT_done
  let flags :=
    if !ok then o.uflags
    else if o.opcode = 0x10 then
      bitIf (decide (0 < r.nan)) 1 + bitIf (decide (0 < r.sat)) 2 + bitIf (decide (0 < r.inf)) 4 +
        bitIf (decide (0 < r.poison)) 8 + bitIf (fanBit o && c.outs.any fun x => x.uni) 16
    else if o.opcode = 0x18 then bitIf c.poison flagPoison
    else 0
  let poison := o.poison || c.poison
  let keep := s.coll.ctxs.filter fun x => decide (x.occ ≠ o.id)
  let ended := if o.code = stDupBucket then s.coll.ended else s.coll.ended ++ [(c.vc, c.seq, c.bucket)]
  ({ s with coll := { s.coll with ctxs := keep, ended := ended } }, { o with uflags := flags, poison := poison })

/-! ### Received frames (R259 to R266) -/

/-- OPEN; a repeat is dropped and counted (12 R314). -/
def gotOpen (s : State) (rx : Rx) (f : Frame) (r : OpenRec) : State :=
  match s.ctxAt f.vc f.coll f.bucket with
  | some c =>
    if !s.running c then s.lateFrame.sendNak f.src f.vc f.coll f.bucket 4
    else if c.ins.any fun i => decide (i.rank = f.src) && i.arrived then s.count (linkP rx.link) LINK.DUP_CNT_count
    else s.answerOpen c.occ f.src r
  | none =>
    if s.coll.ended.contains (f.vc, f.coll, f.bucket) then s.lateFrame.sendNak f.src f.vc f.coll f.bucket 4
    else if s.snap.lost.contains f.src then s
    else if s.coll.pend.any fun p => decide (p.vc = f.vc) && decide (p.seq = f.coll) && decide (p.bucket = f.bucket) &&
        decide (p.src = f.src) then s.count (linkP rx.link) LINK.DUP_CNT_count
    else if (s.coll.pend.filter fun p => decide (p.vc = f.vc)).length < 256 then
      { s with coll := { s.coll with pend := s.coll.pend ++ [⟨f.vc, f.coll, f.bucket, f.src, r⟩] } }
    else (s.sendTo (s.frame f.src f.vc 4 f.coll f.bucket 0 .none)).count collP COLL.RETRY_CNT_count

/-- ACCEPT: the stream's held frames go out. An ACCEPT, RETRY or CLOSE for an identity that is not open is dropped and
counted in LATE_FRAME_CNT, with no answer (DESIGN CHOICE, notes/assumptions/112.md). -/
def gotAccept (s : State) (f : Frame) : State :=
  match s.ctxAt f.vc f.coll f.bucket with
  | some c =>
    if !s.running c then s
    else
      let held := (c.outs.filter fun x => decide (x.rank = f.src)).flatMap fun x => x.held
      let outs := c.outs.map fun x => if x.rank = f.src then { x with accepted := true, retry := false, held := [] } else x
      held.foldl (fun (s : State) f => s.sendTo f) (s.putCtx { c with outs := outs })
  | none => s.lateFrame

/-- NAK. -/
def gotNak (s : State) (f : Frame) (code : Nat) : State :=
  let s := (s.count collP COLL.NAK_CNT_count).errEvent .coll 0 0xA8 code f.src
  match s.ctxAt f.vc f.coll f.bucket with
  | some c =>
    if s.running c then
      s.endCtx c.occ (if code = 4 then stPeerAbort else stPeerProtocol) code (c.ranks.findIdx fun r => decide (r = f.src))
    else s
  | none => s

/-- RETRY. -/
def gotRetry (s : State) (f : Frame) : State :=
  match s.ctxAt f.vc f.coll f.bucket with
  | some c => s.putCtx { c with outs := c.outs.map fun x => if x.rank = f.src then { x with retry := true } else x }
  | none => s.lateFrame

/-- ABORT (R264, R266). -/
def gotAbort (s : State) (f : Frame) : State :=
  let pos (c : Ctx) : Nat := c.ranks.findIdx fun r => decide (r = f.src)
  match s.ctxAt f.vc f.coll f.bucket with
  | some c => if s.running c then s.endCtx c.occ stPeerAbort 0 (pos c) else s.lateFrame
  | none =>
    let other (p : PendOpen) : Bool :=
      !(decide (p.vc = f.vc) && decide (p.seq = f.coll) && decide (p.bucket = f.bucket) && decide (p.src = f.src))
    { s.lateFrame with coll := { s.lateFrame.coll with pend := s.lateFrame.coll.pend.filter other } }

/-- Forwards a stored payload unchanged (R246). -/
def storeForward (s : State) (id k : Nat) (f : Frame) : State :=
  match s.ctxOf id with
  | some c => s.post id k { s.ctxFrame c 0 f.offset f.pay with src := f.src, last := f.last }
  | none => s

/-- Lands a payload in dst at a byte of its data. -/
def land (s : State) (id base : Nat) (f : Frame) (p : Piece) : State :=
  match s.ctxOf id, s.occ id with
  | some c, some o =>
    match o.ten 1 with
    | some dst =>
      ((s.landPiece dst (base + f.offset) p).gatherBytes o DMA.DMA_WR_BYTES_LO_count p.bytes.length).putCtx
        { c with landed := c.landed + p.bytes.length, poison := c.poison || s.landBad dst (base + f.offset) p }
    | none => s
  | _, _ => s

/-- The bytes of the stream that data of rank position `k` belongs to. -/
def streamBytes (s : State) (c : Ctx) (o : Occ) (k : Nat) : Nat :=
  match c.sub with
  | 1 | 2 => chainBytes c o
  | 3 | 0x10 => optCount (o.ten 0) * unitSize c o
  | 5 => recvCount s c o k * unitSize c o
  | 0x11 => 192
  | _ => optCount (o.ten 1) * unitSize c o

/-- Whether a payload lies within its stream: what lies beyond names no place of a receiving buffer (01 R20). -/
def dataFits (s : State) (c : Ctx) (o : Occ) (f : Frame) (n : Nat) : Bool :=
  decide (f.offset + n ≤ s.streamBytes c o (c.ranks.findIdx fun r => decide (r = f.src)))

/-- A data payload for an open occurrence, accepted for the first time: added, stored and forwarded (R246, R249). -/
def takeData (s : State) (c : Ctx) (o : Occ) (f : Frame) (p : Piece) : State :=
  let id := c.occ
  let from' := c.ranks.findIdx fun r => decide (r = f.src)
  let n := p.bytes.length
  let chain := !fanBit o
  match c.sub with
  | 1 =>
    if from' + 1 = c.pos then s.hop id f.offset n (some p)
    else
      let s := s.landResult c o f.offset p
      if 0 < c.pos then s.storeForward id (c.outs.length - 1) f else s
  | 2 => if from' + 1 = c.pos then s.hop id f.offset n (some p) else s.landResult c o f.offset p
  | 3 | 0x10 =>
    let s := s.land id (from' * optCount (o.ten 0) * unitSize c o) f p
    if chain && decide ((c.pos + 1) % c.g ≠ from') then s.storeForward id 0 f else s
  | 4 =>
    let s := s.land id 0 f p
    if chain then s.storeForward id 0 f else s
  | 5 => s.land id (recvBase s c o from' * unitSize c o) f p
  | 0x11 => (s.putCtx { c with inbox := c.inbox ++ [f] }).exchangeStep id
  | _ => s.land id 0 f p

/-- Takes what an occurrence's staging holds; its credit returns (12 R320). -/
def takeInbox (s : State) (id : Nat) : State :=
  match s.ctxOf id, s.occ id with
  | some c, some o =>
    if c.sub = 0x11 then s
    else
      let s := s.settleCounts id
      if c.inbox.isEmpty then s
      else
        (c.inbox.foldl (fun (s : State) f =>
          match s.ctxOf id, f.pay with
          | some c, .data b p => s.takeData c o f ⟨b, p⟩
          | _, _ => s) (match s.ctxOf id with | some c => s.putCtx { c with inbox := [] } | none => s)).topUpVc c.vc
  | _, _ => s

/-- DATA of a collective (R251, R266; 12 R314); it stays in staging while a stack that it needs is quiesced (05 R136). A
payload that passes the end of its stream is dropped (DESIGN CHOICE, notes/assumptions/112.md). -/
def gotData (s : State) (rx : Rx) (f : Frame) (p : Piece) : State :=
  match s.ctxAt f.vc f.coll f.bucket with
  | some c =>
    match s.occ c.occ with
    | some o =>
      if !s.running c then s.lateFrame.sendNak f.src f.vc f.coll f.bucket 4
      else if c.seen.contains (f.src, f.typ, f.offset) then s.count (linkP rx.link) LINK.DUP_CNT_count
      else if !insOpen { c with ins := c.ins.filter fun i => decide (i.rank = f.hopSrc) } || !c.ranks.contains f.src ||
          !s.dataFits c o f p.bytes.length then s
      else
        let c : Ctx := { c with seen := c.seen ++ [(f.src, f.typ, f.offset)] }
        if s.tensOpen o then (s.putCtx c).takeData c o f p else s.putCtx { c with inbox := c.inbox ++ [f] }
    | none => s
  | none => s.lateFrame.sendNak f.src f.vc f.coll f.bucket 4

/-- CLOSE (R253, R261). -/
def gotClose (s : State) (rx : Rx) (f : Frame) : State :=
  match s.ctxAt f.vc f.coll f.bucket with
  | some c =>
    if !s.running c then s.lateFrame
    else if c.seen.contains (f.src, f.typ, f.offset) then s.count (linkP rx.link) LINK.DUP_CNT_count
    else
      let c : Ctx := { c with seen := c.seen ++ [(f.src, f.typ, f.offset)] }
      match f.pay with
      | .closeFwd sats nans =>
        (s.putCtx { c with sats := sats ++ c.sats, nans := nans ++ c.nans, closeIn := true }).tryClose c.occ
      | .closeBack r =>
        let s := s.putCtx { c with rep := some r }
        if c.sub = 1 ∧ 0 < c.pos then s.post c.occ (c.outs.length - 1) { s.ctxFrame c 6 0 f.pay with src := f.src, last := true }
        else s
      | _ => s
  | none => s.lateFrame

/-! ### Remote SIGNALs (06 R155) -/

/-- SIGNALs that wait for an acknowledgement. -/
def sigWaiting (s : State) : List Occ := s.seq.occs.filter fun o => decide (o.opcode = 0x29) && decide (o.place = .waiting)

/-- Whether a head waits for a context of a VC: none is free, its tile has 16 occurrences in flight, or none is granted
now; on VC1 a remote SIGNAL for which 64 others wait (R257, R267). -/
def ctxWaits (s : State) (vc : Nat) : Bool :=
  s.heads.any fun o =>
    if o.opcode = 0x29 then
      decide (vc = 1) && decide (o.f 223 1 = 1) && decide (o.f 192 16 ≠ s.rank) && decide (64 ≤ s.sigWaiting.length)
    else
      decide (o.unit ≠ .tseq) && needsContext o.desc && decide (vcOf o = vc) &&
        (decide (ctxLimit vc ≤ s.ctxCount vc) || decide (16 ≤ s.inFlight o.tile) ||
          s.flag collP COLL.PAGE_CTRL_quiesce || decide (s.fget 0 MODULE.FIREBREAK_state ≠ 0))

/-- Contexts of a VC in use; on VC1 each SIGNAL that waits for its acknowledgement holds one (R257). -/
def ctxUsed (s : State) (vc : Nat) : Nat := s.ctxCount vc + (if vc = 1 then s.sigWaiting.length else 0)

/-- Runs the SIGNAL at a queue's head. -/
def signal (s : State) (o : Occ) : State :=
  let rank := o.f 192 16
  let sem := o.f 208 12
  let tile := o.f 220 3
  let set := o.f 224 1 == 1
  let value := o.f 256 32
  if o.f 223 1 = 0 then s.completeOcc o
  else if rank = s.rank then
    if tile < Member.tiles s.member then (s.signalSem tile sem set value).completeOcc o
    else s.completeOcc { o with code := stPeerProtocol }
  else if s.member = .xsc1 then s.completeOcc { o with code := stNoPeer }
  else if s.snap.lost.contains rank ∨ s.coordValid = false ∨ (s.routeOf rank 1).isNone then
    let s := if (s.routeOf rank 1).isNone then s.count routeP ROUTE.NO_ROUTE_CNT_count else s
    s.completeOcc { o with code := stPeerLost }
  else if s.sigWaiting.length < 64 then
    ((s.freeHead o).putOcc { o with place := .waiting }).sendTo
      (s.frame rank 1 7 o.id 0 0 (.signal o.id tile sem set value))
  else s

/-- A SIGNAL frame from another rank, applied once (12 R314). -/
def gotSignal (s : State) (rx : Rx) (f : Frame) (id tile sem : Nat) (set : Bool) (value : Nat) : State :=
  if s.coll.signals.contains (f.src, id) then s.count (linkP rx.link) LINK.DUP_CNT_count
  else
  let ok := decide (tile < Member.tiles s.member)
  let s : State := { s with coll := { s.coll with signals := s.coll.signals ++ [(f.src, id)] } }
  let s := if ok then s.signalSem tile sem set value else s
  s.sendTo (s.frame f.src 1 8 f.coll 0 0 (.signalAck id ok))

/-- Its acknowledgement: the SIGNAL completes, at DESC_COMPLETE where its status ring accepts nothing now. -/
def gotSignalAck (s : State) (f : Frame) (id : Nat) (ok : Bool) : State :=
  match s.occ id with
  | some o =>
    if o.opcode = 0x29 ∧ o.place = .waiting ∧ o.f 192 16 = f.src then
      let o : Occ := if ok then o else { o with code := stPeerProtocol }
      if s.mayEnd o then s.completeOcc o else s.putOcc { o with place := .done }
    else s
  | none => s

/-! ### Groups (R239 to R241) -/

/-- The first check of R240 that an entry fails, with the first list position concerned. An index beyond the table's
GROUP_COUNT entries is no entry (R239; notes/assumptions/107.md). -/
def groupFault (s : State) (i : Nat) : Nat × Nat :=
  let a := s.groupEntry i
  let g := s.groupSize i
  let list := s.groupBits i 0 48
  let ranks := s.groupRanks i
  let space := if s.member = .xsm4 then 32768 else 65536
  let find (p : Nat → Bool) : Option Nat := (List.range g).find? p
  if s.fget collP COLL.GROUP_COUNT_entries ≤ i || !memRange s.member a 16 || s.mem.poisonedN a 16 || decide (space < g) then
    (1, 0)
  else
    match find fun k => !memRange s.member (list + 2 * k) 2 || s.mem.poisonedN (list + 2 * k) 2 || decide (list % 2 ≠ 0) with
    | some k => (2, k)
    | none =>
      match find fun k => decide (space ≤ ranks.getD k 0) with
      | some k => (3, k)
      | none =>
        match find fun k => (ranks.take k).contains (ranks.getD k 0) with
        | some k => (4, k)
        | none =>
          if g ≤ s.groupPos i ∨ ranks.getD (s.groupPos i) 0x10000 ≠ s.rank then (5, s.groupPos i)
          else if s.coordValid then (0, 0) else (6, 0)

/-- Reads and judges a group (R240). -/
def validateGroup (s : State) (i : Nat) : State :=
  let s := (s.groupReads i).foldl (fun (s : State) r => s.hubTouch r.1 r.2) s
  let r := s.groupFault i
  let valid := (s.coll.valid.filter fun j => decide (j ≠ i)) ++ (if r.1 = 0 then [i] else [])
  let s := { s with coll := { s.coll with valid := valid, loading := none } }
  let s := ((s.fset collP COLL.GROUP_STAT_valid (if r.1 = 0 then 1 else 0)).fset collP COLL.GROUP_STAT_err r.1).fset
    collP COLL.GROUP_STAT_at r.2
  s.event .coll 0 COLL.PAGE_EVT_group_done

end State

/-! ### The commands -/

/-- HAND_OVER (06 R145 to R147): a checked head passes into its unit's input once there is room, those of other queues that
are served first having gone. In IDLE a head that needs the engine clock stays and requests RUN, where PWR_CFG.auto_idle
enables that source (15 R375, R378). -/
def execHandOver (t q : Nat) (s : State) : Host.Outcome State Fault Refusal :=
  match s.headOcc t q with
  | some o =>
    .next (if s.mayHand o = true ∧ s.yields t q o = false then
        if s.pwrState = 1 ∧ State.needsTclk o = true then s.start.wakeForWork else s.start.serveQueue t q o
      else s.start)
  | none => .next s.start

/-- CONTEXT_GRANT (R257). -/
def execContextGrant (vc : Nat) (s : State) : Host.Outcome State Fault Refusal := .next (s.start.grant vc)

/-- The next local piece of the open COLL of an identity, when it is of this sub-operation. -/
def State.collRun (s : State) (sub vc seq bucket : Nat) : State :=
  match s.ctxAt vc seq bucket with
  | some c =>
    let isOpen := match s.occ c.occ with | some o => s.tensOpen o | none => false
    if c.sub = sub ∧ s.running c = true ∧ s.domainOn .coll 0 = true ∧ isOpen = true then (s.takeInbox c.occ).collPiece c.occ else s
  | none => s

/-- COLL_ALLREDUCE (R246, R249). -/
def execCollAllreduce (vc seq bucket : Nat) (s : State) : Host.Outcome State Fault Refusal :=
  .next (s.start.collRun 1 vc seq bucket)
/-- COLL_REDUCE_SCATTER (R246, R249). -/
def execCollReduceScatter (vc seq bucket : Nat) (s : State) : Host.Outcome State Fault Refusal :=
  .next (s.start.collRun 2 vc seq bucket)
/-- COLL_ALLGATHER (R246). -/
def execCollAllgather (vc seq bucket : Nat) (s : State) : Host.Outcome State Fault Refusal :=
  .next (s.start.collRun 3 vc seq bucket)
/-- COLL_BROADCAST (R246). -/
def execCollBroadcast (vc seq bucket : Nat) (s : State) : Host.Outcome State Fault Refusal :=
  .next (s.start.collRun 4 vc seq bucket)
/-- COLL_ALLTOALL (R245). -/
def execCollAlltoall (vc seq bucket : Nat) (s : State) : Host.Outcome State Fault Refusal :=
  .next (s.start.collRun 5 vc seq bucket)
/-- COLL_SEND (R242). -/
def execCollSend (vc seq bucket : Nat) (s : State) : Host.Outcome State Fault Refusal :=
  .next (s.start.collRun 6 vc seq bucket)
/-- COLL_RECV (R242). -/
def execCollRecv (vc seq bucket : Nat) (s : State) : Host.Outcome State Fault Refusal :=
  .next (s.start.collRun 7 vc seq bucket)
/-- CHAIN_PASS (03 R79, 10 R242). -/
def execChainPass (vc seq bucket : Nat) (s : State) : Host.Outcome State Fault Refusal :=
  .next (s.start.collRun 8 vc seq bucket)

/-- GATHER_AHEAD (09 R226, R227): the DMA starts the occurrence, then moves the next piece of the local shard. -/
def execGatherAhead (t seq : Nat) (s : State) : Host.Outcome State Fault Refusal :=
  match s.ctxAt 3 seq (gaBucket t) with
  | some c =>
    match s.occ c.occ with
    | some o =>
      if s.domainOn .dma t = true ∧ s.tensOpen o = true ∧ (o.place = .running ∨ (o.place = .input ∧ s.dmaFront t = some o)) then
        .next (((s.start.putOcc { o with place := .running }).takeInbox c.occ).collPiece c.occ)
      else .next s.start
    | none => .next s.start
  | none => .next s.start

/-- NORM_EXCHANGE (08 R223): the vector engine starts the EXCHANGE at its front. -/
def execNormExchange (t : Nat) (s : State) : Host.Outcome State Fault Refusal :=
  match s.unitFront t .ve with
  | some o =>
    match s.ctxOf o.id with
    | some c =>
      if o.place = .input ∧ c.sub = 0x11 ∧ s.domainOn .ve t = true then
        .next ((((s.start.putOcc { o with place := .running }).putCtx { c with started := true }).exchangeStep o.id).topUpVc c.vc)
      else .next s.start
    | none => .next s.start
  | none => .next s.start

/-- SIGNAL (06 R155). -/
def execSignal (t q : Nat) (s : State) : Host.Outcome State Fault Refusal :=
  match s.headOcc t q with
  | some o => .next (if o.opcode = 0x29 ∧ o.place = .checked ∧ s.mayEnd o = true then s.start.signal o else s.start)
  | none => .next s.start

/-- GROUP_VALIDATE_DONE (R240). -/
def execGroupValidateDone (s : State) : Host.Outcome State Fault Refusal :=
  match s.coll.loading with
  | none => .next s.start
  | some i => .next (if s.domainOn .coll 0 = true ∧ s.groupOpen i = true then s.start.validateGroup i else s.start)

/-- OPEN_RETRY_TIMEOUT (R259): the open is sent again to a position. -/
def execOpenRetryTimeout (vc seq bucket pos : Nat) (s : State) : Host.Outcome State Fault Refusal :=
  match s.ctxAt vc seq bucket with
  | some c =>
    match s.occ c.occ, c.outs.find? (fun x => decide (x.pos = pos) && x.retry && !x.accepted) with
    | some o, some st =>
      .next (if s.running c = true ∧ s.domainOn .coll 0 = true then
          let outs := c.outs.map fun x => if x.pos = pos then { x with retry := false } else x
          (s.start.putCtx { c with outs := outs }).sendOpen c o st
        else s.start)
    | _, _ => .next s.start
  | none => .next s.start

/-- COLL_WAIT_LIMIT_EXPIRE (R269): an open or a context wait has lasted beyond WAIT_LIMIT. -/
def execCollWaitLimitExpire (s : State) : Host.Outcome State Fault Refusal :=
  let waits := (s.coll.ctxs.any fun c => s.running c && (c.outs.any fun x => !x.accepted)) ||
    ((List.range 8).any fun vc => s.ctxWaits vc)
  .next (s.start.eventIf (waits && decide (s.fget State.collP COLL.WAIT_LIMIT_ms ≠ 0) && s.domainOn .coll 0) .coll 0
    COLL.PAGE_EVT_wait_long)

end Sys2Proof.Machine
end

