-- ==== Sys2Proof/Machine/Optics.lean ====
section
/-!
DEFINITION. The photonic engines: combs, rings and their states, retiring, the interferometer mesh, monitors, shutters
and probing (11 R270 to R299), with the commands COMB_FAILOVER to PROBE_RESPONSE_END that no register write is.
-/
namespace Sys2Proof.Machine

/-- The state field of a ring. -/
def ringFd : Ring → Fd
  | .sel => PECH.CH_STAT_sel
  | .mod => PECH.CH_STAT_mod
  | .drop => PECH.CH_STAT_drop
/-- A ring's number. -/
def ringNum : Ring → Nat | .sel => 0 | .mod => 1 | .drop => 2
/-- Whether a ring serves the receive side. -/
def ringRx : Ring → Bool | .drop => true | _ => false

def dark : Nat := 0
def scanning : Nat := 1
def acquire : Nat := 2
def verify : Nat := 3
def locked : Nat := 4
def hold : Nat := 5

namespace State

/-! ### Rings (R274 to R279) -/

def ring (s : State) (l k : Nat) (r : Ring) : Nat := s.chGet l k (ringFd r)
/-- A side's target line as written, the line its ring is to be on (line 0 for the selector that a probing link holds, R294),
whether it has a target, and whether it is retired. -/
def targetLine (s : State) (l k : Nat) (rx : Bool) : Nat :=
  s.chGet l k (if rx then PECH.CH_CTRL_rx_line else PECH.CH_CTRL_tx_line)
def probeSide (s : State) (l k : Nat) (rx : Bool) : Bool :=
  !rx && decide (k = 0) && s.flag (pechP l) PECH.PAGE_STAT_probing
def sideLine (s : State) (l k : Nat) (rx : Bool) : Nat := if s.probeSide l k rx then 0 else s.targetLine l k rx
def sideEn (s : State) (l k : Nat) (rx : Bool) : Bool := if rx then s.rxEn l k else s.txEn l k
def sideRetired (s : State) (l k : Nat) (rx : Bool) : Bool :=
  natBits (s.fget (pechP l) (if rx then PECH.RETIRED_rx else PECH.RETIRED_tx)) k 1 == 1

/-- Whether a link's rings serve their targets: in service or in test (R299), outside probing for the transmit side. -/
def linkServes (s : State) (l : Nat) : Bool :=
  Member.link s.member l && s.flag (peP (l / 8)) PE.PAGE_CTRL_enable &&
    (s.flag (pechP l) PECH.PAGE_CTRL_enable || s.flag (pechP l) PECH.LINK_OPT_CTRL_test)

/-- Whether a side's rings have a target to serve. A probing link parks every selector but channel 0's (R294), and probes out
of service too (17 R442). -/
def sideServes (s : State) (l k : Nat) (rx : Bool) : Bool :=
  (s.probeSide l k rx && Member.link s.member l && s.flag (peP (l / 8)) PE.PAGE_CTRL_enable) ||
    (s.linkServes l && s.sideEn l k rx && !s.sideRetired l k rx &&
      (rx || (!s.flag (pechP l) PECH.LINK_OPT_CTRL_park && !s.flag (pechP l) PECH.PAGE_STAT_probing)))

/-- The links of an engine. -/
def linksOf (p : Nat) : List Nat := (List.range 8).map fun j => 8 * p + j

/-- Whether every side of an engine that serves a target is locked. -/
def allLocked (s : State) (p : Nat) : Bool :=
  (linksOf p).all fun l => (List.range 16).all fun k =>
    (!s.sideServes l k false || s.txLocked l k) && (!s.sideServes l k true || s.rxLocked l k)

/-- The number of a ring among the module's. -/
def ringKey (l k : Nat) (r : Ring) : Nat := 64 * l + 4 * k + ringNum r

/-- A soft reset of an engine ends once every ring is LOCKED or its side retired (R299). -/
def endReset (s : State) (p : Nat) : State :=
  if s.optics.resetting.contains p ∧ s.allLocked p = true then
    { s with optics := { s.optics with resetting := s.optics.resetting.filter fun q => decide (q ≠ p) } }
  else s

/-- A ring enters a state: its ACQUIRE failures begin again. One that locks, or goes dark, is no longer waited for after a
failover; one that has to pass VERIFY again needs no other window for the hold to end (R284). -/
def setRing (s : State) (l k : Nat) (r : Ring) (v : Nat) : State :=
  let key := ringKey l k r
  let s := s.chSet l k (ringFd r) v
  let failing := if v = locked ∨ v = dark then s.optics.failing.filter fun x => decide (x ≠ key) else s.optics.failing
  let s : State := { s with optics := { s.optics with
    fails := sparsePut (fun _ => 0) key 0 s.optics.fails, failing := failing,
    unproved := s.optics.unproved.filter fun x => decide (x ≠ key) } }
  s.endReset (l / 8)

/-- A side's rings go to DARK. -/
def sideDark (s : State) (l k : Nat) (rx : Bool) : State :=
  if rx then s.setRing l k .drop dark else (s.setRing l k .sel dark).setRing l k .mod dark

/-- Whether an engine's light is there for rings to acquire: its comb lases (R276, R296). -/
def lightBack (s : State) (l : Nat) : Bool := s.flag (peP (l / 8)) PE.PAGE_STAT_lit
/-- A ring seeks its line: in ACQUIRE, or in HOLD until the engine's light is there. -/
def seek (s : State) (l k : Nat) (r : Ring) : State := s.setRing l k r (if s.lightBack l then acquire else hold)

/-- A side's rings take up a target: selector or drop selector seeks it; the modulator waits for its selector. -/
def sideAcquire (s : State) (l k : Nat) (rx : Bool) : State :=
  if rx then s.seek l k .drop else (s.seek l k .sel).setRing l k .mod dark

/-- Brings a side's rings in line with whether they serve a target. A ring that serves one already keeps its state. -/
def serveSide (s : State) (l k : Nat) (rx : Bool) : State :=
  let r := s.ring l k (if rx then .drop else .sel)
  if s.sideServes l k rx then (if r = dark then s.sideAcquire l k rx else s)
  else s.sideDark l k rx

def serveLink (s : State) (l : Nat) : State :=
  (List.range 16).foldl (fun (s : State) k => (s.serveSide l k false).serveSide l k true) s

def serveEngine (s : State) (p : Nat) : State := (linksOf p).foldl (fun (s : State) l => s.serveLink l) s

/-- Every ring of a link to DARK, then to its target (R299, soft_reset of a link). -/
def restartLink (s : State) (l : Nat) : State :=
  ((List.range 16).foldl (fun (s : State) k => (s.sideDark l k false).sideDark l k true) s).serveLink l

/-- Every ring of an engine to DARK, then to its target; the bit stays until each is LOCKED or retired (R299). -/
def restartEngine (s : State) (p : Nat) : State :=
  let s := (linksOf p).foldl (fun (s : State) l => s.restartLink l) s
  let s : State := { s with optics := { s.optics with
    resetting := p :: s.optics.resetting.filter fun q => decide (q ≠ p) } }
  s.endReset p

/-- A channel side retires with a cause (R278). -/
def retire (s : State) (l k : Nat) (rx : Bool) (cause : Nat) : State :=
  if s.sideRetired l k rx then s
  else
    let f := if rx then PECH.RETIRED_rx else PECH.RETIRED_tx
    let s := s.fset (pechP l) f (s.fget (pechP l) f + 2 ^ k)
    let s := (s.sideDark l k rx).chSet l k (if rx then PECH.CH_STAT_rx_cause else PECH.CH_STAT_tx_cause) cause
    let s := (s.count (peP (l / 8)) PE.RETIRE_CNT_count).errEvent .pech l 0x87 (k + (if rx then 16 else 0) + cause * 256) 0
    (s.event .pe (l / 8) PE.PAGE_EVT_retired).event .pech l PECH.PAGE_EVT_retired

/-- Retired sides of a channel come back (R278, R307). -/
def revive (s : State) (l k : Nat) : State :=
  let one (s : State) (rx : Bool) : State :=
    if s.sideRetired l k rx then
      let f := if rx then PECH.RETIRED_rx else PECH.RETIRED_tx
      ((s.fset (pechP l) f (s.fget (pechP l) f - 2 ^ k)).chSet l k
        (if rx then PECH.CH_STAT_rx_cause else PECH.CH_STAT_tx_cause) 0).serveSide l k rx
    else s
  one (one s false) true

/-- Writes a channel's targets; a side whose line changed goes to ACQUIRE, one whose line stays keeps its state
(R279). -/
def target (s : State) (l k txLine txEn rxLine rxEn : Nat) : State :=
  let sameTx := decide (s.targetLine l k false = txLine) && decide ((s.txEn l k).toNat = txEn)
  let sameRx := decide (s.targetLine l k true = rxLine) && decide ((s.rxEn l k).toNat = rxEn)
  let s := (((s.chSet l k PECH.CH_CTRL_tx_line txLine).chSet l k PECH.CH_CTRL_tx_en txEn).chSet l k
    PECH.CH_CTRL_rx_line rxLine).chSet l k PECH.CH_CTRL_rx_en rxEn
  let s := if sameTx || s.probeSide l k false then s.serveSide l k false else (s.sideDark l k false).serveSide l k false
  if sameRx then s.serveSide l k true else (s.sideDark l k true).serveSide l k true

/-- A ring is on a line other than its target (R281). -/
def wrongLine (s : State) (l k : Nat) (r : Ring) (line : Nat) : State :=
  let s := (s.setRing l k r acquire).count (peP (l / 8)) PE.WRONG_LINE_CNT_count
  let s := s.errEvent .pech l 0x88 (k + line * 256) 0
  (s.event .pe (l / 8) PE.PAGE_EVT_wrong_line).event .pech l PECH.PAGE_EVT_wrong_line

/-- The modulator of a selector that locks goes to ACQUIRE (R276). -/
def startModulator (s : State) (l k : Nat) : State :=
  if s.ring l k .mod = dark ∨ s.ring l k .mod = hold then s.setRing l k .mod acquire else s

/-! ### Combs (R272) -/

def combOk (s : State) (p comb : Nat) : Bool := s.flag (peP p) (if comb = 0 then PE.COMB_STAT_a_ok else PE.COMB_STAT_b_ok)
def setCombOk (s : State) (p comb v : Nat) : State :=
  s.fset (peP p) (if comb = 0 then PE.COMB_STAT_a_ok else PE.COMB_STAT_b_ok) v
def combSel (s : State) (p : Nat) : Nat := s.fget (peP p) PE.PAGE_STAT_comb_sel

/-- Every ring of an engine that is not dark goes to HOLD. -/
def holdEngine (s : State) (p : Nat) : State :=
  (linksOf p).foldl (fun (s : State) l => (List.range 16).foldl (fun (s : State) k =>
    [Ring.sel, .mod, .drop].foldl (fun (s : State) r => if s.ring l k r = dark then s else s.setRing l k r hold) s) s) s

/-- Every ring in HOLD goes to ACQUIRE; a modulator waits for its selector. -/
def releaseEngine (s : State) (p : Nat) : State :=
  (linksOf p).foldl (fun (s : State) l => (List.range 16).foldl (fun (s : State) k =>
    let s := if s.ring l k .sel = hold then s.sideAcquire l k false else s
    if s.ring l k .drop = hold then s.sideAcquire l k true else s) s) s

/-- The selectors and drop selectors of an engine that are not dark, by their keys. -/
def litRings (s : State) (p : Nat) : List Nat :=
  (linksOf p).flatMap fun l => (List.range 16).flatMap fun k =>
    ([Ring.sel, .drop].filter fun r => decide (s.ring l k r ≠ dark)).map fun r => ringKey l k r

/-- The switch to the other comb: every ring goes to HOLD, and passes VERIFY on the new one (R272). -/
def switchComb (s : State) (p : Nat) : State :=
  let now := 1 - s.combSel p
  let s := (s.holdEngine p).fset (peP p) PE.PAGE_STAT_comb_sel now
  let others := s.optics.failing.filter fun x => decide (x / 512 ≠ p)
  let s : State := { s with optics := { s.optics with failing := others ++ s.litRings p } }
  let s := (s.count (peP p) PE.FAILOVER_CNT_count).errEvent .pe p 0x85 now 0
  s.event .pe p PE.PAGE_EVT_comb_failover

/-- No healthy comb remains: every channel dark, every channel side retired. -/
def combLost (s : State) (p : Nat) : State :=
  let s := (s.fset (peP p) PE.PAGE_STAT_lit 0).errEvent .pe p 0x92 0 0
  let s := s.event .pe p PE.PAGE_EVT_comb_lost
  (linksOf p).foldl (fun (s : State) l => (List.range 16).foldl (fun (s : State) k =>
    [false, true].foldl (fun (s : State) rx => s.retire l k rx 3) s) s) s

/-- The active comb fails. -/
def combFail (s : State) (p : Nat) : State :=
  let a := s.combSel p
  if s.combOk p (1 - a) then
    if s.flag (peP p) PE.COMB_CTRL_auto then (s.setCombOk p a 0).switchComb p else s
  else (s.setCombOk p a 0).combLost p

/-- A line of an engine fails (R273). -/
def lineFail (s : State) (p line : Nat) : State :=
  let f : Fd := ⟨if line < 32 then PE.LINE_FAIL_LO_lines.off else PE.LINE_FAIL_HI_lines.off, line % 32, 1⟩
  if s.flag (peP p) f then s
  else
    let s := ((s.fset (peP p) f 1).errEvent .pe p 0x86 line 0).event .pe p PE.PAGE_EVT_line_fail
    (linksOf p).foldl (fun (s : State) l => (List.range 16).foldl (fun (s : State) k =>
      [false, true].foldl (fun (s : State) rx =>
        if s.sideEn l k rx && decide (s.targetLine l k rx = line) then s.retire l k rx 2 else s) s) s) s

/-! ### Shutters and probing (R292 to R294) -/

/-- The shutter causes that keep a fibre dark to probe light too: a forced shutter, an engine out of service, a power state,
a park, an open latch. -/
def darkCause (s : State) (l : Nat) : Bool :=
  natBits (s.fget (peP (l / 8)) PE.SHUTTER_force) (l % 8) 1 == 1 || !s.flag (peP (l / 8)) PE.PAGE_CTRL_enable ||
    decide (2 ≤ s.pwrState) || decide (s.fget 0 MODULE.SVC_STAT_park_state = 3) || !s.flag 0 MODULE.SVC_STAT_latch
/-- Whether a fibre's shutter is closed. -/
def shut (s : State) (l : Nat) : Bool :=
  !s.flag (pechP l) PECH.PAGE_STAT_mated || !s.flag (peP (l / 8)) PE.SHUTTER_plug || !s.linkServes l || s.darkCause l
/-- Whether a link may send probe light. -/
def mayProbe (s : State) (l : Nat) : Bool :=
  Member.link s.member l && s.flag (pechP l) PECH.PAGE_STAT_probing && s.lightBack l && !s.darkCause l
/-- PE.PAGE_STAT.shut. -/
def shutBits (s : State) (p : Nat) : Nat :=
  (List.range 8).foldl (fun n j => n + (if s.shut (8 * p + j) then 2 ^ j else 0)) 0

/-- The engines of a member. -/
def engines (s : State) : List Nat := (List.range 5).filter fun p => Member.pe s.member p

/-- Raises the shutter event of every engine on which a shutter has closed between two states. -/
def noteShutters (s s' : State) : State :=
  s.engines.foldl (fun (x : State) p =>
    x.eventIf ((List.range 8).any fun j => !s.shut (8 * p + j) && s'.shut (8 * p + j)) .pe p PE.PAGE_EVT_shutter) s'

/-- The channels of a link. -/
def linkChans (l : Nat) : List (Nat × Nat) := (List.range 16).map fun k => (l, k)
/-- Whether the light of a probing link has shown it mated. -/
def setSeen (s : State) (l : Nat) (v : Bool) : State :=
  let seen := s.optics.seen.filter fun x => decide (x ≠ l)
  { s with optics := { s.optics with seen := if v then l :: seen else seen } }

/-- A link enters probing: every selector parked but channel 0's, which is held on line 0. -/
def probing (s : State) (l : Nat) : State :=
  let s := s.setSeen l false
  let s := (s.fset (pechP l) PECH.PAGE_STAT_mated 0).fset (pechP l) PECH.PAGE_STAT_probing 1
  let s := (List.range 16).foldl (fun (s : State) k => s.sideDark l k false) s
  s.serveSide l 0 false

/-- A link is mated: the shutter opens, the rings return to their targets, and the channels train anew (R294; 12 R304). -/
def mate (s : State) (l : Nat) : State :=
  let p := pechP l
  let s := (((s.setSeen l false).fset p PECH.PAGE_STAT_probing 0).fset p PECH.PAGE_STAT_mated 1).fset p PECH.PAGE_STAT_los 0
  let s := s.fset (peP (l / 8)) ⟨PE.SHUTTER_los.off, PE.SHUTTER_los.lo + l % 8, 1⟩ 0
  let s := (s.event .pech l PECH.PAGE_EVT_mated).event .pe (l / 8) PE.PAGE_EVT_mated
  ((s.sideDark l 0 false).serveLink l).untrain (linkChans l)

/-- A plug shows mated: the links whose light has shown so already are mated. -/
def mateSeen (s : State) (p : Nat) : State :=
  (linksOf p).foldl (fun (s : State) l => if s.optics.seen.contains l then s.mate l else s) s

/-! ### Thermal holds (R284) -/

/-- The tiles next to an engine (01, Thermal neighbours). -/
def neighbours : Nat → List Nat
  | 0 => [0, 1] | 1 => [1, 2] | 2 => [2, 3, 4, 5] | 3 => [5, 6] | 4 => [6, 7] | _ => []

/-- THERMAL_STEP for a tile. A hold that begins asks a pilot window of every ring that is locked. -/
def thermalStep (s : State) (t : Nat) : State :=
  (s.engines.filter fun p => (neighbours p).contains t).foldl (fun (s : State) p =>
    let proofs := s.optics.unproved.filter fun x => decide (x / 512 ≠ p)
    let asked := (linksOf p).flatMap fun l => (List.range 16).flatMap fun k =>
      ([Ring.sel, .drop].filter fun r => decide (s.ring l k r = locked)).map fun r => ringKey l k r
    let s : State := if s.flag (peP p) PE.PAGE_STAT_hold then s
      else { s with optics := { s.optics with unproved := proofs ++ asked } }
    (((s.fset (peP p) PE.PAGE_STAT_hold 1).count (peP p) PE.THERMAL_CNT_count).errEvent .pe p 0x89 t 0).event .pe p
      PE.PAGE_EVT_thermal_step) s

/-- Whether a failover of an engine is under way: a ring has yet to pass VERIFY on the new comb. A drop selector whose line
is absent at the receive tap waits for its peer, not for the comb (R278). -/
def failingOver (s : State) (p : Nat) : Bool :=
  s.optics.failing.any fun x => decide (x / 512 = p) &&
    !(decide (x % 4 = 2) && decide (s.chGet (x / 64) (x % 64 / 4) PECH.CH_STAT_rx_nolight = 1))

/-! ### The mesh (R285 to R288) -/

/-- The reset code of an element (R285). -/
def meshReset (key : Nat) : Nat := if key % 64 < 28 then 0x80008000 else if key % 64 < 36 then 0 else 0x8000
def meshCode (s : State) (p i : Nat) : Nat := sparseGet meshReset s.optics.codes (64 * p + i)

/-- The map of a source word: which bus feeds fibre f. -/
def srcOf (w f : Nat) : Nat := natBits w (3 * f) 3
def identityMap : Nat := 0x00FAC688
/-- Whether the src fields form a permutation. -/
def isPerm (w : Nat) : Bool := (List.range 8).all fun b => (List.range 8).any fun f => decide (srcOf w f = b)

/-- The permutation a map realises: the transposition of a loop or a monitor, else the src fields. -/
def mapSrc (w f : Nat) : Nat :=
  let swap (a b : Nat) : Nat := if f = a then b else if f = b then a else f
  if natBits w 24 1 = 1 ∧ natBits w 28 1 = 1 then
    -- both transpositions, of disjoint modes
    let g := swap 0 (natBits w 25 3)
    if g = 7 then natBits w 29 3 else if g = natBits w 29 3 then 7 else g
  else if natBits w 24 1 = 1 then swap 0 (natBits w 25 3)
  else if natBits w 28 1 = 1 then swap 7 (natBits w 29 3)
  else srcOf w f

/-- Whether a map may be applied (R286). -/
def mapOk (w : Nat) : Bool :=
  isPerm w && ((natBits w 24 1 == 0 && natBits w 28 1 == 0) ||
    (decide (natBits w 0 24 = identityMap) && (natBits w 24 1 == 0 || natBits w 28 1 == 0 ||
      decide (natBits w 25 3 ≠ natBits w 29 3))))

/-- One column of the odd-even transposition sort over the fibres that the modes go to; answers the cells that cross. -/
def column (odd : Nat) : List Nat → List Nat × List Bool
  | a :: b :: r =>
    if odd = 1 then
      let y := column 0 (b :: r)
      (a :: y.1, y.2)
    else
      let x := decide (b < a)
      let y := column 0 r
      ((if x then b :: a :: y.1 else a :: b :: y.1), x :: y.2)
  | l => (l, [])

def columns : Nat → Nat → List Nat → List Bool
  | 0, _, _ => []
  | n + 1, c, l =>
    let y := column (c % 2) l
    y.2 ++ columns n (c + 1) y.1

/-- The cells that cross under a map, cell 0 first. -/
def crossings (w : Nat) : List Bool :=
  columns 8 0 ((List.range 8).map fun b => (List.range 8).findIdx fun f => decide (mapSrc w f = b))

/-- The code of an element under a map (R285, R286). -/
def mapCode (w i : Nat) : Nat :=
  if i < 28 then (if (crossings w).getD i false then 0x80000000 else 0x80008000)
  else if i < 36 then 0
  else if i = 36 then (if natBits w 24 1 = 1 then 0 else 0x8000)
  else (if natBits w 28 1 = 1 then 0 else 0x8000)

/-- The map in force on an engine. -/
def meshMap (s : State) (p : Nat) : Option Nat := sparseGet (fun _ => some identityMap) s.optics.maps p

/-- The links a commit affects (R287). -/
def commitLinks (s : State) (p w : Nat) (raw : Bool) : List Nat :=
  if raw then linksOf p
  else match s.meshMap p with
    | none => linksOf p
    | some old =>
      (linksOf p).filter fun l =>
        let j := l % 8
        let moved := decide (mapSrc old j ≠ mapSrc w j) ||
          ((List.range 8).any fun f => decide (mapSrc old f = j) && decide (mapSrc w f ≠ j))
        let loop := natBits w 24 1 == 1 && (decide (j = 0) || decide (j = natBits w 25 3))
        let mon := natBits w 28 1 == 1 && (decide (j = 7) || decide (j = natBits w 29 3))
        moved || loop || mon

/-- Accepts or ignores a commit. -/
def meshCommit (s : State) (p : Nat) : State :=
  let w := (s.reg (peP p) PE.MESH_MAP_src.off).toNat
  let raw := s.flag (peP p) PE.MESH_CTRL_raw
  let free := (s.commitLinks p w raw).all fun l => !s.flag (pechP l) PECH.PAGE_CTRL_enable
  if s.flag (peP p) PE.MESH_CTRL_busy ∨ free = false ∨ (raw = false ∧ mapOk w = false) then
    s.ctrlIgnored .pe p PE.MESH_CTRL_commit.off
  else
    let codes := (List.range 38).map fun i =>
      (64 * p + i, if raw then sparseGet (fun k => s.meshCode p (k % 64)) s.optics.raws (64 * p + i) else mapCode w i)
    let keep := s.optics.next.filter fun x => decide (x.1 / 64 ≠ p)
    let maps := s.optics.newMaps.filter fun x => decide (x.1 ≠ p)
    let o : OptSt := { s.optics with next := keep ++ codes, newMaps := maps ++ [(p, if raw then none else some w)] }
    { s.fset (peP p) PE.MESH_CTRL_busy 1 with optics := o }

/-- The bus whose rings a link's lanes drive, under a map; raw codes leave the crossbar as it was, the model's identity
(R286). -/
def busOf (m : Option Nat) (j : Nat) : Nat := match m with | some w => srcOf w j | none => j

/-- The rings of another bus take a link's transmit targets when a map moves the link to it (R286). -/
def moveRings (s : State) (p : Nat) (old : Option Nat) : State :=
  (linksOf p).foldl (fun (s : State) l =>
    if s.meshMap p = none ∨ busOf old (l % 8) = busOf (s.meshMap p) (l % 8) then s
    else (List.range 16).foldl (fun (s : State) k => (s.sideDark l k false).serveSide l k false) s) s

/-- The codes of a commit take force. -/
def meshDone (s : State) (p : Nat) : State :=
  let codes := (s.optics.next.filter fun x => decide (x.1 / 64 = p)).foldl (fun cs x =>
    sparsePut meshReset x.1 x.2 cs) s.optics.codes
  let maps := (s.optics.newMaps.filter fun x => decide (x.1 = p)).foldl (fun ms x =>
    sparsePut (fun _ => some identityMap) x.1 x.2 ms) s.optics.maps
  let o : OptSt := { s.optics with
    codes := codes, maps := maps, next := s.optics.next.filter fun x => decide (x.1 / 64 ≠ p),
    newMaps := s.optics.newMaps.filter fun x => decide (x.1 ≠ p) }
  let old := s.meshMap p
  ({ s.fset (peP p) PE.MESH_CTRL_busy 0 with optics := o } : State).moveRings p old

/-- A calibration of an engine's mesh ends (R288): it is stored and counted, or it has failed. -/
def calibrated (s : State) (p : Nat) (ok : Bool) : State :=
  let s := s.fset (peP p) PE.MESH_CTRL_cal_err (if ok then 0 else 1)
  if ok then
    let n := sparseGet (fun _ => 0) s.optics.cals p + 1
    ({ s with optics := { s.optics with cals := sparsePut (fun _ => 0) p n s.optics.cals } } : State).event .pe p
      PE.PAGE_EVT_cal_done
  else s

/-- A write of MESH_CTRL.cal (R288). -/
def meshCal (s : State) (p : Nat) : State :=
  let out := (linksOf p).all fun l =>
    !s.flag (pechP l) PECH.PAGE_CTRL_enable && !s.flag (pechP l) PECH.LINK_OPT_CTRL_test
  if out ∧ s.flag (peP p) PE.MESH_CTRL_busy = false then
    (s.fset (peP p) PE.MESH_CTRL_busy 1).fset (peP p) PE.PAGE_STAT_cal_busy 1
  else s.ctrlIgnored .pe p PE.MESH_CTRL_cal.off

/-! ### Monitors (R289, R290) -/

/-- Notes a reported level. -/
def setMon (s : State) (p idx v : Nat) : State :=
  let k := 2 ^ 20 * p + idx
  { s with optics := { s.optics with mon := sparseInsert k v (sparseErase k s.optics.mon) } }
/-- A channel none of whose stages is low any more: its reports stand no longer. -/
def clearMon (s : State) (l k : Nat) : State :=
  let mine (x : Nat) : Bool := decide (x / 2 ^ 20 = l / 8) && decide (x % 2 ^ 20 / 16 = l % 8 + 16 * k)
  { s with optics := { s.optics with mon := s.optics.mon.filter fun x => !mine x.1 } }

/-- The level recorded for a monitor at the engine's last calibration; below −40 dBm before there was one (R289, R299). -/
def calLevel (s : State) (p idx : Nat) : Nat :=
  let n := sparseGet (fun _ => 0) s.optics.cals p
  if n = 0 then 0x8000 else (Config.calLevel p n idx).toNat

/-- The cells that a bus's light passes through, with whether it leaves each on the other mode. -/
def pathCells (s : State) (p : Nat) : Nat → Nat → Nat → List Nat
  | 0, _, _ => []
  | n + 1, c, m =>
    let top := if c % 2 = 0 then m / 2 * 2 else (m - 1) / 2 * 2 + 1
    if c % 2 = 1 ∧ (m = 0 ∨ m = 7) then s.pathCells p n (c + 1) m
    else
      let i := 7 * (c / 2) + (if c % 2 = 0 then m / 2 else 4 + (m - 1) / 2)
      let crosses := decide (s.meshCode p i % 65536 < 0x4000) || decide (0xC000 ≤ s.meshCode p i % 65536)
      i :: s.pathCells p n (c + 1) (if crosses then 2 * top + 1 - m else m)

/-- A trim of the passing cells among those listed: their θ is what the engine then measures, a free value, and they stay
passing, since a trim never changes the permutation (R288). -/
def trimCells (s : State) (p : Nat) (cells : List Nat) : State :=
  cells.foldl (fun (s : State) i =>
    let old := s.meshCode p i
    if 0x4000 ≤ old % 65536 ∧ old % 65536 < 0xC000 then
      let v := old / 65536 * 65536 + 0x4000 + s.freeVal % 0x8000
      { s.useFree with optics := { s.optics with codes := sparsePut meshReset (64 * p + i) v s.optics.codes } }
    else s) s

/-- The action of a low stage (Loss localisation). `many` is the further evidence of the rows that ask for some: every line
low at the comb, the same line low on two or more links at the selector. A drop photodiode that is the first low stage has
its receive tap normal. -/
def lossAction (s : State) (l k stage : Nat) (many : Bool) : State :=
  match stage with
  | 0 => if many then s.combFail (l / 8) else s
  | 1 => if many then s.lineFail (l / 8) (s.sideLine l k false)
    else if s.sideServes l k false then s.seek l k .sel else s
  | 2 => if s.ring l k .sel = locked then s.setRing l k .mod acquire else s
  | 4 => s.trimCells (l / 8) (s.pathCells (l / 8) 8 0 (busOf (s.meshMap (l / 8)) (l % 8)))
  | 7 => if s.sideServes l k true then s.seek l k .drop else s
  | _ => s

/-- Whether a channel carries or is in test (R290). -/
def monitored (s : State) (l k : Nat) : Bool :=
  s.txCarry l k || s.rxCarry l k || s.flag (pechP l) PECH.LINK_OPT_CTRL_test

/-- Whether a link, channel pair exists on the member. -/
def chanOk (s : State) (l k : Nat) : Bool := Member.link s.member l && decide (k < 16)

end State

/-! ### The commands -/

/-- COMB_FAILOVER (R272): the active comb's output or locker has failed for 100 µs. -/
def execCombFailover (engine : Nat) (s : State) : Host.Outcome State Fault Refusal :=
  .next (if Member.pe s.member engine ∧ s.flag (State.peP engine) PE.PAGE_STAT_lit = true then s.start.combFail engine
    else s.start)

/-- LINE_FAILED (R273). -/
def execLineFailed (engine line : Nat) (s : State) : Host.Outcome State Fault Refusal :=
  .next (if Member.pe s.member engine ∧ line < 64 then s.start.lineFail engine line else s.start)

/-- LOCK_LOST (R275, R276). A modulator whose selector is not LOCKED has no light: it waits in HOLD for that. -/
def execLockLost (link chan : Nat) (r : Ring) (s : State) : Host.Outcome State Fault Refusal :=
  .next (if s.chanOk link chan ∧ s.ring link chan r = locked then
      let to' := if r = .mod ∧ s.ring link chan .sel ≠ locked then hold else acquire
      let s := (s.start.setRing link chan r to').count (State.peP (link / 8)) PE.LOCK_LOST_CNT_count
      (s.event .pe (link / 8) PE.PAGE_EVT_lock_lost).event .pech link PECH.PAGE_EVT_lock_lost
    else s.start)

/-- Whether a drop selector waits in ACQUIRE for its line to appear at the receive tap (R278). -/
def State.awaitsLight (s : State) (l k : Nat) (r : Ring) : Bool :=
  decide (r = .drop) && decide (s.chGet l k PECH.CH_STAT_rx_nolight = 1)

/-- RING_ACQUIRE_DONE (R276): to VERIFY, or, for a modulator, to LOCKED. -/
def execRingAcquireDone (link chan : Nat) (r : Ring) (s : State) : Host.Outcome State Fault Refusal :=
  .next (if s.chanOk link chan ∧ s.ring link chan r = acquire ∧ s.awaitsLight link chan r = false then
      match r with
      | .mod => if s.ring link chan .sel = locked then s.start.setRing link chan .mod locked else s.start
      | r => s.start.setRing link chan r verify
    else s.start)

/-- RING_ACQUIRE_FAIL (R276): the second failure in succession enters SCAN. -/
def execRingAcquireFail (link chan : Nat) (r : Ring) (s : State) : Host.Outcome State Fault Refusal :=
  .next (if s.chanOk link chan ∧ s.ring link chan r = acquire ∧ s.awaitsLight link chan r = false then
      let key := State.ringKey link chan r
      if sparseGet (fun _ => 0) s.optics.fails key + 1 < 2 then
        { s.start with optics := { s.optics with fails := sparsePut (fun _ => 0) key 1 s.optics.fails } }
      else s.start.setRing link chan r scanning
    else s.start)

/-- RING_SCAN_DONE (R276): the ring has found light, a modulator only while its selector is LOCKED. -/
def execRingScanDone (link chan : Nat) (r : Ring) (s : State) : Host.Outcome State Fault Refusal :=
  .next (if s.chanOk link chan ∧ s.ring link chan r = scanning ∧ (r = .mod → s.ring link chan .sel = locked) then
      s.start.setRing link chan r acquire
    else s.start)

/-- The pilot identifier names a ring's line. -/
def State.identify (s : State) (l k : Nat) (r : Ring) (line : Nat) : State :=
  s.chSet l k (if ringRx r then PECH.CH_STAT_rx_id else PECH.CH_STAT_tx_id) line

/-- RING_VERIFY_DONE (R276, R281): the first complete window names the line. -/
def execRingVerifyDone (link chan : Nat) (r : Ring) (line : Nat) (s : State) : Host.Outcome State Fault Refusal :=
  .next (if s.chanOk link chan ∧ s.ring link chan r = verify ∧ line < 64 then
      let s := s.start.identify link chan r line
      if line = s.sideLine link chan (ringRx r) then
        let s := s.setRing link chan r locked
        match r with
        | .sel => s.startModulator link chan
        | _ => s
      else s.wrongLine link chan r line
    else s.start)

/-- RING_LIGHT_LOST (R276, R278): the engine's light is absent on a transmit ring's path, or the target line at the
receive tap, for which a drop selector waits in ACQUIRE; one in HOLD stays there. -/
def execRingLightLost (link chan : Nat) (r : Ring) (s : State) : Host.Outcome State Fault Refusal :=
  .next (if s.chanOk link chan ∧ s.ring link chan r ≠ dark then
      match r with
      | .drop =>
        let s' := s.start.chSet link chan PECH.CH_STAT_rx_nolight 1
        if s.ring link chan .drop = hold then s' else s'.setRing link chan .drop acquire
      | r => s.start.setRing link chan r hold
    else s.start)

/-- RING_LIGHT_RESTORED (R276). -/
def execRingLightRestored (link chan : Nat) (r : Ring) (s : State) : Host.Outcome State Fault Refusal :=
  .next (if s.chanOk link chan then
      let s' := if r = .drop then s.start.chSet link chan PECH.CH_STAT_rx_nolight 0 else s.start
      if s.ring link chan r = hold ∧ s.lightBack link = true ∧ (r = .mod → s.ring link chan .sel = locked) then
        s'.setRing link chan r acquire
      else s'
    else s.start)

/-- CH_RETIRED (R278): a side has not been LOCKED for 10 ms, HOLD and shuttered time apart. A modulator that only waits for its
selector does not hold its side. -/
def execChRetired (link chan : Nat) (rx : Bool) (s : State) : Host.Outcome State Fault Refusal :=
  let up := if rx then s.rxLocked link chan else s.txLocked link chan
  let held := if rx then decide (s.ring link chan .drop = hold) || decide (s.chGet link chan PECH.CH_STAT_rx_nolight = 1)
    else decide (s.ring link chan .sel = hold) ||
      (decide (s.ring link chan .mod = hold) && decide (s.ring link chan .sel = locked))
  .next (if s.chanOk link chan && s.sideServes link chan rx && !up && !held && !s.shut link then
      s.start.retire link chan rx 1
    else s.start)

/-- PILOT_WINDOW (R281, R284): a window names the line of a ring. -/
def execPilotWindow (link chan : Nat) (r : Ring) (line : Nat) (s : State) : Host.Outcome State Fault Refusal :=
  .next (if s.chanOk link chan ∧ line < 64 ∧ r ≠ .mod then
      let s := s.start.identify link chan r line
      if line = s.sideLine link chan (ringRx r) then
        { s with optics := { s.optics with
          unproved := s.optics.unproved.filter fun x => decide (x ≠ State.ringKey link chan r) } }
      else if s.ring link chan r = locked then s.wrongLine link chan r line
      else s
    else s.start)

/-- THERMAL_HOLD_END (R284, R297): never during a failover, nor before every ring has passed VERIFY on the new comb. -/
def execThermalHoldEnd (engine : Nat) (s : State) : Host.Outcome State Fault Refusal :=
  .next (if Member.pe s.member engine ∧ s.failingOver engine = false then
      s.start.fset (State.peP engine) PE.PAGE_STAT_hold 0
    else s.start)

/-- MESH_COMMIT_DONE (R287). -/
def execMeshCommitDone (engine : Nat) (s : State) : Host.Outcome State Fault Refusal :=
  .next (if Member.pe s.member engine ∧ (s.optics.newMaps.any fun x => decide (x.1 = engine)) = true then
      s.start.meshDone engine
    else s.start)

/-- MESH_CAL_DONE (R288). -/
def execMeshCalDone (engine : Nat) (ok : Bool) (s : State) : Host.Outcome State Fault Refusal :=
  .next (if Member.pe s.member engine ∧ s.flag (State.peP engine) PE.PAGE_STAT_cal_busy = true then
      let s := (s.start.fset (State.peP engine) PE.MESH_CTRL_busy 0).fset (State.peP engine) PE.PAGE_STAT_cal_busy 0
      s.calibrated engine ok
    else s.start)

/-- MESH_TRIM (R288): the θ of passing cells, as (cell, θ). -/
def execMeshTrim (engine : Nat) (trims : List (Nat × Nat)) (s : State) : Host.Outcome State Fault Refusal :=
  let one (codes : List (Nat × Nat)) (x : Nat × Nat) : List (Nat × Nat) :=
    let key := 64 * engine + x.1
    let old := sparseGet State.meshReset codes key
    if x.1 < 28 ∧ 0x4000 ≤ old % 65536 ∧ old % 65536 < 0xC000 ∧ 0x4000 ≤ x.2 ∧ x.2 < 0xC000 then
      sparsePut State.meshReset key (old / 65536 * 65536 + x.2) codes
    else codes
  .next (if Member.pe s.member engine then
      { s.start with optics := { s.optics with codes := trims.foldl one s.optics.codes } }
    else s.start)

/-- MONITOR_LOW (R290): the first low stage of a channel that carries or is in test, with its level, and, for the comb and
selector stages, whether every line is low, or the same line on two or more links; stage 15 reports that none is low any
more. -/
def execMonitorLow (link chan stage level : Nat) (many : Bool) (s : State) : Host.Outcome State Fault Refusal :=
  .next (if s.chanOk link chan ∧ (stage ≤ 8 ∨ stage = 15) ∧ s.monitored link chan = true then
      let old := s.chGet link chan PECH.CH_STAT_loss_at
      let idx := stage + link % 8 * 16 + chan * 256
      let s := if stage = 15 then s.start.clearMon link chan else s.start.setMon (link / 8) idx (level % 65536)
      let s := (s.chSet link chan PECH.CH_STAT_loss_at stage).eventIf (decide (old ≠ stage)) .pe (link / 8) PE.PAGE_EVT_loss
      s.lossAction link chan stage many
    else s.start)

/-- PLUG_SENSOR_CHANGE (R292, R294). A plug that leaves a parked module raises no event (17 R444). -/
def execPlugSensorChange (engine : Nat) (mated : Bool) (s : State) : Host.Outcome State Fault Refusal :=
  .next (if Member.pe s.member engine then
      let s' := s.start.fset (State.peP engine) PE.SHUTTER_plug mated.toNat
      let s' := s'.fset 0 ⟨MODULE.SVC_STAT_plug.off, MODULE.SVC_STAT_plug.lo + engine, 1⟩ mated.toNat
      let s' := if mated then s'.mateSeen engine else (State.linksOf engine).foldl (fun (s : State) l => s.probing l) s'
      let s' := State.noteShutters s s'
      if mated = false ∧ s.fget 0 MODULE.SVC_STAT_park_state = 3 then s' else s'.svcEvent MODULE.SVC_EVT_plug_change
    else s.start)

/-- LOSS_OF_SIGNAL (R293). -/
def execLossOfSignal (link : Nat) (s : State) : Host.Outcome State Fault Refusal :=
  .next (if Member.link s.member link then
      let s' := (s.start.fset (State.pechP link) PECH.PAGE_STAT_los 1).count (State.pechP link) PECH.LOS_CNT_count
      let s' := s'.fset (State.peP (link / 8)) ⟨PE.SHUTTER_los.off, PE.SHUTTER_los.lo + link % 8, 1⟩ 1
      State.noteShutters s ((s'.probing link).event .pech link PECH.PAGE_EVT_los)
    else s.start)

/-- PROBE_PULSE (R294). -/
def execProbePulse (link : Nat) (s : State) : Host.Outcome State Fault Refusal :=
  .next (if s.mayProbe link then s.start.emit (.probe link false) else s.start)

/-- A global link that receives a peer's probe answers with its own (R294). -/
def State.answerProbe (s : State) (l : Nat) : State :=
  let s := s.emit (.probe l true)
  { s with optics := { s.optics with answering := l :: s.optics.answering.filter fun x => decide (x ≠ l) } }

/-- PROBE_LIGHT_DETECT (R294): the own line-0 pilot returns, on a grove link, or a peer's pilot is seen. The link is mated once
the plug sensor shows mated too. -/
def execProbeLightDetect (link : Nat) (own : Bool) (s : State) : Host.Outcome State Fault Refusal :=
  .next (if Member.link s.member link ∧ s.flag (State.pechP link) PECH.PAGE_STAT_probing = true ∧
      (own = true → link < 24 ∧ s.mayProbe link = true) then
      let s := if own = false ∧ 24 ≤ link ∧ s.mayProbe link = true then s.start.answerProbe link else s.start
      if s.flag (State.peP (link / 8)) PE.SHUTTER_plug then s.mate link else s.setSeen link true
    else s.start)

/-- PROBE_RESPONSE_END (R294). -/
def execProbeResponseEnd (link : Nat) (s : State) : Host.Outcome State Fault Refusal :=
  .next { s.start with optics := { s.optics with answering := s.optics.answering.filter fun l => decide (l ≠ link) } }

end Sys2Proof.Machine
end

