-- ==== Sys2Proof/Machine/Plan.lean ====
section
/-!
DEFINITION. Loading a channel plan (12 R307 to R310), with the commands PLAN_DRAIN_DONE, PLAN_DRAIN_TIMEOUT, PLAN_READY
and HEARTBEAT_GRACE_END; PLAN_LOAD is a register write.
-/
namespace Sys2Proof.Machine

/-- A plan image as read from memory: its header and tables. -/
structure PlanImage where
  base   : Nat
  magic  : Nat
  epoch  : Nat
  rank   : Nat
  routes : Nat
  crc    : Nat
  tab    : PlanTab
  deriving DecidableEq, Repr

/-- The first index at which a predicate holds. -/
def firstIdx (n : Nat) (p : Nat → Bool) : Option Nat := (List.range n).find? p

/-- Set bits of a number below `n`. -/
def bitsOf (w n : Nat) : List Nat := (List.range n).filter fun i => natBits w i 1 == 1

namespace State

/-- Reads an image (Plan image). -/
def readPlan (s : State) (base : Nat) : PlanImage :=
  let rd (off n : Nat) : Nat := s.mem.readN (base + off) n
  let routes := natBits (rd 8 4) 16 13
  { base := base, magic := rd 0 4, epoch := rd 4 4, rank := natBits (rd 8 4) 0 16, routes := routes, crc := rd 60 4,
    tab := {
      chans := (List.range 640).map fun i => rd (0x40 + 4 * i) 4,
      ports := (List.range 256).map fun i => rd (0xA40 + 8 * i) 8,
      fans := (List.range 48).map fun i => rd (0x1240 + 4 * i) 4,
      routes := (List.range routes).map fun i => rd (0x1340 + 8 * i) 8,
      weight := rd 16 4 } }

def planBytes (im : PlanImage) : Nat := 0x1340 + 8 * im.routes

/-- The CRC-32C of an image with its crc field taken as zero. -/
def planCrc (s : State) (im : PlanImage) : Nat :=
  crc32c ((List.range (planBytes im)).map fun i => if 60 ≤ i ∧ i < 64 then 0 else s.mem.readByte (im.base + i))

/-! ### Channel entry fields -/

def chTxLine (w : Nat) : Nat := natBits w 0 6
def chTxEn (w : Nat) : Bool := natBits w 6 1 == 1
def chRxLine (w : Nat) : Nat := natBits w 8 6
def chRxEn (w : Nat) : Bool := natBits w 14 1 == 1
def chTxPort (w : Nat) : Nat := natBits w 16 8
def chRxPort (w : Nat) : Nat := natBits w 24 8

/-- The peer of a port that a plan defines. -/
def planPeer (t : PlanTab) (p : Nat) : Option Nat := if p < 255 ∧ (t.port p).valid then some (t.port p).peer else none

/-- Whether a grove side breaks the cyclic rule for its port's peer (check 5). -/
def groveSideBad (s : State) (t : PlanTab) (line port : Nat) (rx : Bool) : Bool :=
  decide (line = 0) ||
    (match planPeer t port with
      | some d =>
        decide (d / 64 ≠ s.rank / 64) ||
          (if rx then decide ((s.rank % 64 + 64 - d % 64) % 64 ≠ line) else decide ((d % 64 + 64 - s.rank % 64) % 64 ≠ line))
      | none => false)

/-- The offending entry of each check of Plan checks from 3 on; none where the check passes (R308). -/
def planFault (s : State) (im : PlanImage) : Nat → Option Nat
  | 3 => firstIdx 640 fun i =>
      let w := im.tab.chans.getD i 0
      !Member.link s.member (i / 16) && (chTxEn w || chRxEn w)
  | 4 => firstIdx 640 fun i =>
      let w := im.tab.chans.getD i 0
      (List.range (i % 16)).any fun j =>
        let v := im.tab.chans.getD (i / 16 * 16 + j) 0
        (chTxEn w && chTxEn v && decide (chTxLine w = chTxLine v)) || (chRxEn w && chRxEn v && decide (chRxLine w = chRxLine v))
  | 5 => firstIdx 384 fun i =>
      let w := im.tab.chans.getD i 0
      (chTxEn w && s.groveSideBad im.tab (chTxLine w) (chTxPort w) false) ||
        (chRxEn w && s.groveSideBad im.tab (chRxLine w) (chRxPort w) true)
  | 6 => (firstIdx 256 fun j =>
      let l := 24 + j / 16
      let peersOf (w : Nat) : List Nat :=
        [chTxPort w, chRxPort w].filterMap (planPeer im.tab)
      let before := (List.range (j % 16 + 1)).flatMap fun k => peersOf (im.tab.chans.getD (16 * l + k) 0xFFFF0000)
      (peersOf (im.tab.chans.getD (16 * l + j % 16) 0xFFFF0000)).any fun a => before.any fun b => decide (a ≠ b)).map (· + 384)
  | 7 => firstIdx 640 fun i =>
      let w := im.tab.chans.getD i 0
      let p := i / 128
      let failed (line : Nat) : Bool :=
        s.flag (peP p) ⟨if line < 32 then PE.LINE_FAIL_LO_lines.off else PE.LINE_FAIL_HI_lines.off, line % 32, 1⟩
      (chTxEn w && failed (chTxLine w)) || (chRxEn w && failed (chRxLine w))
  | 8 => firstIdx 255 fun p =>
      let e := im.tab.port p
      let tx := (im.tab.chans.filter fun w => decide (chTxPort w = p)).length
      let rx := (im.tab.chans.filter fun w => decide (chRxPort w = p)).length
      e.valid && (decide (64 < tx) || decide (64 < rx) || decide (e.peer = s.rank) ||
        (List.range p).any fun q =>
          let f := im.tab.port q
          f.valid && decide (f.peer = e.peer) && !(bitsOf (Nat.land e.mask f.mask) 8).isEmpty)
  | 9 =>
      match firstIdx 640 fun i =>
        let w := im.tab.chans.getD i 0xFFFF0000
        [chTxPort w, chRxPort w].any fun p => decide (p ≠ 0xFF) && !(decide (p < 255) && (im.tab.port p).valid) with
      | some i => some i
      | none => firstIdx 255 fun p =>
        (im.tab.port p).valid && !(im.tab.chans.any fun w => decide (chTxPort w = p) || decide (chRxPort w = p))
  | 10 => firstIdx 48 fun i =>
      let w := im.tab.fans.getD i 0
      let ks := bitsOf (natBits w 16 16) 16
      let ch (k : Nat) : Nat := im.tab.chans.getD (i / 2 * 16 + k) 0
      natBits w 0 1 == 1 && (decide (ks.length < 2) || decide (8 < ks.length) ||
        ks.any (fun k => !chTxEn (ch k) || decide (chTxPort (ch k) ≠ 0xFF)) ||
        ks.any fun k => ks.any fun j => decide (j < k) && decide (chTxLine (ch j) = chTxLine (ch k)))
  | 11 => firstIdx im.routes fun i =>
      let w := im.tab.routes.getD i 0
      let key (w : Nat) : Nat := natBits w 0 16 * 256 + natBits w 16 8
      let portBad (p : Nat) : Bool := decide (p ≠ 0xFF) && !(decide (p < 255) && (im.tab.port p).valid)
      decide (natBits w 24 8 = 0xFF) || portBad (natBits w 24 8) || portBad (natBits w 32 8) || portBad (natBits w 40 8) ||
        (decide (0 < i) && decide (key w ≤ key (im.tab.routes.getD (i - 1) 0))) ||
        (List.range i).any fun j =>
          let v := im.tab.routes.getD j 0
          decide (natBits v 0 16 = natBits w 0 16) && !(bitsOf (Nat.land (natBits v 16 8) (natBits w 16 8)) 8).isEmpty
  | 12 => if (List.range 8).any fun v => natBits im.tab.weight (4 * v) 4 == 0 then some 0 else none
  | _ => none

/-- The first failing check of an image, with its entry; (0, 0) when it passes. -/
def planCheck (s : State) (base : Nat) : Nat × Nat :=
  let len := s.fget planP PLAN.PLAN_LEN_bytes
  if base % 64 ≠ 0 ∨ memRange s.member base 64 = false then (1, 0)
  else
    let im := s.readPlan base
    if memRange s.member base (planBytes im) = false ∨ len < planBytes im then (1, 0)
    else if im.magic ≠ 0x504C4E31 ∨ im.epoch = 0 ∨ im.rank ≠ s.rank ∨ 4096 < im.routes ∨ im.crc ≠ s.planCrc im then (2, 0)
    else
      match [3, 4, 5, 6, 7, 8, 9, 10, 11, 12].find? fun c => (s.planFault im c).isSome with
      | some c => (c, (s.planFault im c).getD 0)
      | none => (0, 0)

/-- A load ends without effect: the plan before it is in force. -/
def planFail (s : State) (code idx : Nat) : State :=
  let s := (s.fset planP PLAN.PLAN_STAT_err code).fset planP PLAN.PLAN_STAT_index idx
  let s := (s.fset planP PLAN.PAGE_STAT_loading 0).event .plan 0 PLAN.PAGE_EVT_load_fail
  { s with net := { s.net with stage := 0, next := none } }

/-- Writes a plan's targets into every channel (R279). -/
def writeTargets (s : State) (t : PlanTab) : State :=
  (allChans.filter fun x => Member.link s.member x.1).foldl (fun (s : State) x =>
    let w := t.chans.getD (16 * x.1 + x.2) 0xFFFF0000
    (s.target x.1 x.2 (chTxLine w) (chTxEn w).toNat (chRxLine w) (chRxEn w).toNat).revive x.1 x.2) s

/-- Puts a plan in force: epoch, tables and targets; ports begin again from sequence number 0, every channel trains again, and
frames that waited wait on the new tables' ports. No frame of before comes again, so the SIGNALs applied need not be known. -/
def install (s : State) (epoch : Nat) (t : Option PlanTab) : State :=
  let held := s.net.ports.flatMap fun x => x.2.waiting
  let s := s.setReg planP PLAN.PLAN_EPOCH_epoch.off (BitVec.ofNat 32 epoch)
  let s : State := { s with net := { s.net with
    plan := t, ports := [], moved := [] }, coll := { s.coll with signals := [] } }
  let s := (s.untrain allChans).writeTargets (t.getD ⟨[], [], [], [], 0⟩)
  held.foldl (fun (s : State) f => s.sendTo (s.unrouted f)) s

/-- Whether the collective engine is quiesced (10 R267). -/
def collQuiesced (s : State) : Bool := s.flag collP COLL.PAGE_CTRL_quiesce && s.coll.ctxs.isEmpty

/-- Whether the snapshot unit has a transfer open. -/
def snapTransfer (s : State) : Bool :=
  s.flag (pageNum .snap 0) SNAP.PAGE_STAT_busy && decide (s.fget (pageNum .snap 0) SNAP.PAGE_STAT_phase ≤ 6)

/-- PLAN_LOAD.go (R309). -/
def planGo (s : State) : State :=
  if !s.collQuiesced || s.snapTransfer || s.flag planP PLAN.PAGE_STAT_loading || decide (s.fget 0 MODULE.FIREBREAK_state ≠ 0) then
    s.ctrlIgnored .plan 0 PLAN.PLAN_LOAD_go.off
  else
    let base := s.pair planP PLAN.PLAN_BASE_LO_addr
    let c := s.planCheck base
    let im := s.readPlan base
    let s := s.hubTouch base (min (planBytes im) (s.fget planP PLAN.PLAN_LEN_bytes))
    if c.1 ≠ 0 then s.planFail c.1 c.2
    else
      let s := ((s.fset planP PLAN.PAGE_STAT_loading 1).fset planP PLAN.PLAN_STAT_err 0).fset planP PLAN.PLAN_STAT_index 0
      { s with net := { s.net with stage := 2, next := some (im.epoch, im.tab), began := s.now, grace := true } }

end State

/-! ### The commands -/

/-- PLAN_DRAIN_DONE (R309, steps 3 to 5): every replay buffer is empty; the plan it replaces is kept until step 6. -/
def execPlanDrainDone (s : State) : Host.Outcome State Fault Refusal :=
  match s.net.next with
  | some x =>
    .next (if s.net.stage = 2 ∧ (s.net.ports.all fun p => p.2.replay.isEmpty) = true then
        let ports := s.net.ports
        let old : Nat × PlanTab := (s.epoch, s.net.plan.getD ⟨[], [], [], [], 0⟩)
        let s := (s.start.fset State.planP PLAN.PAGE_STAT_ready 0).install x.1 (some x.2)
        { s with net := { s.net with stage := 4, next := some old, before := ports } }
      else s.start)
  | none => .next s.start

/-- PLAN_DRAIN_TIMEOUT (R309). -/
def execPlanDrainTimeout (s : State) : Host.Outcome State Fault Refusal :=
  .next (if s.net.stage = 2 ∧ (s.net.ports.any fun p => !p.2.replay.isEmpty) = true then s.start.planFail 13 0 else s.start)

/-- PLAN_READY (R309, step 6). -/
def execPlanReady (s : State) : Host.Outcome State Fault Refusal :=
  .next (if s.net.stage = 4 then
      let s := { s.start with net := { s.net with stage := 0, next := none, before := [] } }
      let s := (s.fset State.planP PLAN.PAGE_STAT_ready 1).fset State.planP PLAN.PAGE_STAT_loading 0
      let s := (s.fset State.planP PLAN.PLAN_TIME_us (min 0xFFFF ((s.now - s.net.began) / 10))).addWrap State.planP
        PLAN.LOAD_CNT_count 1
      let s := s.event .plan 0 PLAN.PAGE_EVT_load_done
      (List.range 8).foldl (fun (s : State) vc => s.topUpVc vc) s
    else s.start)

/-- HEARTBEAT_GRACE_END (R310). -/
def execHeartbeatGraceEnd (s : State) : Host.Outcome State Fault Refusal :=
  .next (if s.net.stage = 0 then { s.start with net := { s.net with grace := false } } else s.start)

/-- The plan before a load comes back into force, with its ports as they stood and the frames that wait now (R309). -/
def State.planBack (s : State) (epoch : Nat) (old : PlanTab) : State :=
  let before := s.net.before
  let s := s.install epoch (if epoch = 0 then none else some old)
  let back (s : State) (x : Nat × PortSt) : State := s.setPort x.1 { x.2 with waiting := (s.portOf x.1).waiting }
  let s := before.foldl back s
  let s : State := { s with net := { s.net with before := [] } }
  s.fset State.planP PLAN.PAGE_STAT_ready (if epoch = 0 then 0 else 1)

/-- A load that COORD_VALID's clearing meets fails with code 14; after step 4 the plan before it comes back (Link-layer
events that meet). -/
def State.planCoordLost (s : State) : State :=
  match s.net.next with
  | some x =>
    if s.net.stage = 4 then (s.planBack x.1 x.2).planFail 14 0
    else if s.net.stage = 2 then s.planFail 14 0
    else s
  | none => s

end Sys2Proof.Machine
end

