-- ==== Sys2Proof/Machine/Tensor.lean ====
section
/-!
DEFINITION. The tensor engines: MATMUL by groups, runs and blocks, the drain path, DRAIN sampling and reading
(03 R60 to R94), with the commands MATMUL, DRAIN and BLOCK_DRAIN.
-/
namespace Sys2Proof.Machine

/-! ### The drain path (03 R84 to R89) -/

/-- What a drain works with: the output, bias and attention tensors, DRN, CVT, the scale exponent of R85 step 2, and the
key and step of stochastic rounding. -/
structure DrainJob where
  tile : Nat
  out  : Option Tensor
  bias : Option Tensor
  am   : Option Tensor
  ap   : Option Tensor
  drn  : Nat
  cvt  : Cvt
  scale : Int
  key  : Nat
  step : Nat
  deriving DecidableEq, Repr

/-- One element on its way through the drain path: row, column, value after step 4, whether step 4 saturated, poison. -/
structure DrainElem where
  m : Nat
  n : Nat
  val : Val
  sat : Bool
  poison : Bool
  deriving DecidableEq, Repr

/-- An element of an optional vector tensor; +0 when the descriptor names none. -/
def vecElem (mem : MemSt) (t : Option Tensor) (i : Nat) : Elem :=
  match t with
  | some t => mem.elem t.fmt (t.addr [i])
  | none => ⟨.zero false, false⟩

/-- Steps 2 to 4 of R85 for one total, but the attention exp2. -/
def drainElem (mem : MemSt) (j : DrainJob) (m n total : Nat) (poison : Bool) : DrainElem :=
  let v := (bin64Fmt.decode total).scale2 j.scale
  let b := vecElem mem j.bias n
  let v := if drnBias j.drn then (add64f v b.val).val else v
  let poison := poison || (drnBias j.drn && b.poison)
  if drnAct j.drn = 0 then ⟨m, n, v, false, poison⟩
  else
    let r := round32f j.cvt.ieee v
    let x : LaneVal := match drnAct j.drn with
      | 1 => .pure (relu r.val)
      | 2 => activation j.cvt.ieee 0x14 r.val
      | 3 => activation j.cvt.ieee 0x15 r.val
      | _ => .pure r.val
    ⟨m, n, x.val, r.sat || x.sat, poison⟩

/-- The larger of two, NaN left out; NaN only when both are (03 R87). -/
def attnMax (a b : Val) : Val := if a.isNan then b else if b.isNan then a else valMax a b

/-- One row of the attention step: the outputs, and the writes of p and m (03 R87, R93). Every output of a row reads the
row's maximum: one poisoned candidate poisons the row (DEDUCED, notes/assumptions/100.md). -/
def attentionRow (mem : MemSt) (j : DrainJob) (m : Nat) (row : List DrainElem) : List DrainElem × List WElem :=
  match j.am, j.ap with
  | some am, some ap =>
    let old := mem.elem 2 (am.addr [m])
    let new := row.foldl (fun x e => attnMax x e.val) old.val
    let poison := old.poison || row.any (fun e => e.poison)
    (row.map fun e => let x := exp2sub j.cvt.ieee e.val new; { e with val := x.val, sat := e.sat || x.sat, poison := poison },
      [⟨ap.addr [m], 4, mem.code 2 (am.addr [m]), old.poison⟩, ⟨am.addr [m], 4, fp32Fmt.ofVal new, poison⟩])
  | _, _ => (row, [])

/-- A drained block: its elements after step 4, and the writes of the attention vectors. -/
def drainRows (mem : MemSt) (j : DrainJob) : List (List DrainElem) → List DrainElem × List WElem
  | [] => ([], [])
  | row :: rest =>
    let a := if drnAct j.drn = 4 then attentionRow mem j ((row.map fun e => e.m).headD 0) row else (row, [])
    let b := drainRows mem j rest
    (a.1 ++ b.1, a.2 ++ b.2)

/-- Drains a block of totals, `w` columns wide, whose first element is row `r0`, column `c0` (03 R85); the Bool says that
the descriptor consumed poison. Poisoned elements are counted by no watcher (R57) and take no part in amax capture either
(DESIGN CHOICE, notes/assumptions/100.md). -/
def drainBlock (s : State) (j : DrainJob) (r0 c0 w : Nat) (vals : List (Nat × Bool)) : State × Bool :=
  match j.out with
  | none => (s, false)
  | some out =>
    let mem := s.mem
    let idx := (List.range vals.length).zip vals
    let elems := idx.map fun x => drainElem mem j (r0 + x.1 / w) (c0 + x.1 % w) x.2.1 x.2.2
    let rows := chunks w (elems.length + 1) elems
    let d := drainRows mem j rows
    let convs := d.1.map fun e =>
      (e, convertFmt out.fmt 0 (j.cvt.mode j.key j.step (out.pos [e.n, e.m])) j.cvt.ieee e.val)
    let bytes := wElems ((convs.map fun x => WElem.mk (out.addr [x.1.n, x.1.m]) out.size x.2.code x.1.poison) ++ d.2)
    let reads := (match j.bias with
        | some b => d.1.map fun e => (b.addr [e.n], b.size)
        | none => []) ++
      (match j.am with
        | some a => if drnAct j.drn = 4 then d.1.map fun e => (a.addr [e.m], 4) else []
        | none => [])
    let s := s.touchReads reads
    let meets := s.mem.writeMeetsPoison bytes
    let s := s.store bytes
    let good := convs.filter fun x => !x.1.poison
    let s := if drnWatch j.drn && out.slotEn then
        s.watchAdd j.tile out.slot (good.map fun x => watchClass out.fmt x.2 x.1.sat) else s
    let s := if drnAmax j.drn && out.slotEn then
        s.mergeAmax j.tile out.slot (good.foldl (fun n x => max n (amaxOf x.1.val)) 0) else s
    (s, meets || d.1.any (fun e => e.poison))

/-! ### The multipliers (03 R65 to R79) -/

/-- A MATMUL's tensors and shape. -/
structure MulJob where
  a : Tensor
  b : Tensor
  tot : Tensor
  bs : Nat
  deriving DecidableEq, Repr

namespace MulJob

def k (j : MulJob) : Nat := j.a.lengths.getD 0 0
def m (j : MulJob) : Nat := j.tot.lengths.getD 1 0
def n (j : MulJob) : Nat := j.tot.lengths.getD 0 0
/-- Groups of the K range. -/
def groups (j : MulJob) : Nat := (j.k + 31) / 32
def pair16 (j : MulJob) : Bool := decide (j.a.fmt = 1) && decide (j.b.fmt = 1)
def blockRows (j : MulJob) : Nat := (j.m + j.bs - 1) / j.bs
def blockCols (j : MulJob) : Nat := (j.n + j.bs - 1) / j.bs
/-- Live rows and columns of a block. -/
def height (j : MulJob) (row : Nat) : Nat := min j.bs (j.m - row * j.bs)
def width (j : MulJob) (col : Nat) : Nat := min j.bs (j.n - col * j.bs)
/-- The live elements of a block, row by row. -/
def cells (j : MulJob) (row col : Nat) : List (Nat × Nat) :=
  (List.range (j.height row)).flatMap fun r => (List.range (j.width col)).map fun c => (row * j.bs + r, col * j.bs + c)
/-- K indices of a stretch of groups. -/
def ks (j : MulJob) (g0 g1 : Nat) : List Nat :=
  (List.range (min j.k (32 * g1) - 32 * g0)).map fun i => 32 * g0 + i

end MulJob

/-- Fields of a MATMUL (06 R168). -/
def mulRunLen (o : Occ) : Nat := 4 * 2 ^ o.f 304 2
def mulChain (o : Occ) : Nat := o.f 306 2
def mulDrained (o : Occ) : Bool := decide (2 ≤ mulChain o)

def mulJob (o : Occ) : Option MulJob :=
  match o.ten 0, o.ten 1, o.ten 2 with
  | some a, some b, some tot => some ⟨a, b, tot, if o.f 308 1 = 1 then 256 else 128⟩
  | _, _, _ => none

def mulDrainJob (s : State) (o : Occ) : DrainJob :=
  ⟨o.tile, o.ten 3, o.ten 4, o.ten 5, o.ten 6, o.f 320 32, Cvt.ofWord (o.f 352 32), o.exps.getD 0 0, s.jobKey o.tile,
    o.step⟩

def drainDrainJob (s : State) (o : Occ) : DrainJob :=
  ⟨o.tile, o.ten 1, o.ten 2, o.ten 3, o.ten 4, o.f 288 32, Cvt.ofWord (o.f 320 32), o.exps.getD 0 0, s.jobKey o.tile,
    o.step⟩

/-- An operand row or column over a stretch of K. -/
structure Stretch where
  vals : List Val
  poison : Bool
  deriving DecidableEq, Repr

def stretch (mem : MemSt) (fmt : Nat) (as : List Nat) : Stretch :=
  let es := as.map fun a => mem.elem fmt a
  ⟨es.map fun e => e.val, es.any fun e => e.poison⟩

/-- The run over groups g0 to g1 − 1 for each element of a block, with its poison (03 R69 to R72, R93). -/
def blockRuns (mem : MemSt) (j : MulJob) (row col g0 g1 : Nat) : List (Acc32 × Bool) :=
  let ks := j.ks g0 g1
  let as := (List.range (j.height row)).map fun r =>
    stretch mem j.a.fmt (ks.map fun k => j.a.addr [k, row * j.bs + r])
  let bs := (List.range (j.width col)).map fun c =>
    stretch mem j.b.fmt (ks.map fun k => j.b.addr [col * j.bs + c, k])
  as.flatMap fun (x : Stretch) => bs.map fun (y : Stretch) =>
    (runValue (groupValues j.pair16 (x.vals.zip y.vals)), x.poison || y.poison)

/-- Whether a run of a block overflowed (ACC_INF). -/
def runsInf (runs : List (Acc32 × Bool)) : Bool := runs.any fun r => r.1.inf

/-- Adds each element's run, promoted exactly, to its total (03 R73). -/
def addRuns (totals : List (Nat × Bool)) (runs : List (Nat × Bool)) : List (Nat × Bool) :=
  (totals.zip runs).map fun x => (addRun x.1.1 ⟨x.2.1, false⟩, x.1.2 || x.2.2)

/-- The bits of the runs, as the promotion buffer holds them. -/
def runBits (runs : List (Acc32 × Bool)) : List (Nat × Bool) := runs.map fun r => (r.1.bits, r.2)

/-- The operand bytes a run reads. -/
def runReads (j : MulJob) (row col g0 g1 : Nat) : List (Nat × Nat) :=
  let ks := j.ks g0 g1
  ((List.range (j.height row)).flatMap fun r => ks.map fun k => (j.a.addr [k, row * j.bs + r], j.a.size)) ++
    ((List.range (j.width col)).flatMap fun c => ks.map fun k => (j.b.addr [col * j.bs + c, k], j.b.size))

/-- The bytes of a block's totals. -/
def totalWrites (j : MulJob) (row col : Nat) (totals : List (Nat × Bool)) : List WByte :=
  wElems (((j.cells row col).zip totals).map fun x => ⟨j.tot.addr [x.1.2, x.1.1], 8, x.2.1, x.2.2⟩)

/-- An engine that has run nothing. -/
def teIdle : TeSt := ⟨none, false, 0, 0, 0, 0, false, []⟩

namespace State

def teOf (s : State) (i : Nat) : TeSt := sparseGet (fun _ => teIdle) s.te i
def setTe (s : State) (i : Nat) (x : TeSt) : State := { s with te := sparsePut (fun _ => teIdle) i x s.te }

/-- The engines a MATMUL runs on, and the one that holds its state. -/
def mulEngines (o : Occ) : List Nat :=
  match o.unit with
  | .quad => [4 * o.tile, 4 * o.tile + 1, 4 * o.tile + 2, 4 * o.tile + 3]
  | .te e => [4 * o.tile + e]
  | _ => []

def onMul (t e : Nat) (o : Occ) : Bool :=
  decide (o.tile = t) && (decide (o.unit = .te e) || (decide (o.unit = .quad) && decide (e = 0)))

/-- The MATMUL that the engine's multipliers work on, or will start next. -/
def mulFront (s : State) (t e : Nat) : Option Occ :=
  s.seq.occs.find? fun o => onMul t e o && (decide (o.place = .input) || decide (o.place = .running))

/-- Whether a MATMUL's blocks start from +0, not read from the total tensor (03 R74). -/
def startsFresh (o : Occ) : Bool := decide (mulChain o = 0) || decide (mulChain o = 2)

/-- The totals that the next run of a block is added to: +0 while fresh, else the scratchpad's, with their poison
(03 R73, R74, R83). -/
def blockTotals (s : State) (j : MulJob) (row col : Nat) (fresh : Bool) : State × List (Nat × Bool) :=
  let cs := j.cells row col
  if fresh then (s, cs.map fun _ => (0, false))
  else
    let as := cs.map fun c => j.tot.addr [c.2, c.1]
    (s.touchReads (as.map fun a => (a, 8)), as.map fun a => (s.mem.code 4 a, s.mem.poisonedN a 8))

/-- Whether an earlier MATMUL of the engine has yet to promote its last run of a total where a range lies (03 R77, R90). A
DRAIN that samples the MATMUL in progress does not wait for it (R91). -/
def totalPending (s : State) (t e : Nat) (o : Occ) (r : ByteRange) : Bool :=
  (s.seq.occs.takeWhile fun x => decide (x.id ≠ o.id)).any fun x =>
    decide (x.tile = t) && (decide (x.unit = .te e) || decide (x.unit = .quad)) &&
      (match mulJob x with | some j => j.tot.range.meets r | none => false) &&
      (decide (x.place = .input) || decide (x.place = .running) || decide (x.place = .waiting))

/-- Starts the engine's next MATMUL. -/
def beginMul (s : State) (i : Nat) (o : Occ) : State :=
  let x := s.teOf i
  let s := (mulEngines o).foldl (fun (s : State) k =>
    s.setPair (pageNum .te k) TE.TE_CUR_DESC_LO_addr
      (s.qBase o.tile o.queue + 64 * s.slotOfCount o.tile o.queue o.count)) s
  (s.setTe i { x with
    occ := some o.id, quad := decide (o.unit = .quad), row := 0, col := 0, kpos := 0, runStart := 0,
    fresh := startsFresh o }).putOcc { o with place := .running }

/-- Leaves an engine's last position standing on the pages of the engines that it served (03 R94, R95;
notes/assumptions/100.md). -/
def parkTe (s : State) (ks : List Nat) (x : TeSt) : State :=
  ks.foldl (fun (s : State) k =>
    s.setTe k { s.teOf k with row := x.row, col := x.col, kpos := x.kpos, runStart := x.runStart }) s

/-- The DRAINs in the drain paths of a MATMUL's engines. -/
def drainsAhead (s : State) (o : Occ) : List Nat :=
  (s.seq.occs.filter fun d => decide (d.tile = o.tile) && decide (d.place = .input) &&
    (match d.unit with | .drain e => decide (4 * o.tile + e ∈ mulEngines o) | _ => false)).map fun d => d.id

/-- Ends a block of a MATMUL whose last run has been promoted or passed to the drain path: the walk moves on, or the
MATMUL leaves the multipliers. A START or CONTINUE whose last run holds fewer than run_len full groups reports RUN_SPLIT
(03 R65, R74, R75, R76). -/
def endBlock (s : State) (i : Nat) (o : Occ) (j : MulJob) : State :=
  let x := s.teOf i
  let nextCol := if x.col + 1 < j.blockCols then x.col + 1 else 0
  let nextRow := if x.col + 1 < j.blockCols then x.row else x.row + 1
  if nextRow < j.blockRows then
    (s.putOcc o).setTe i { x with row := nextRow, col := nextCol, kpos := 0, runStart := 0, fresh := startsFresh o }
  else
    let o : Occ := if mulDrained o then { o with place := .waiting }
      else { o with place := .done, runSplit := o.runSplit || decide (j.k % (32 * mulRunLen o) ≠ 0) }
    ((s.putOcc o).setTe i { x with occ := none }).parkTe (mulEngines o) x

/-- Ends a run: the last run of a SINGLE or FINISH block passes to the drain path; any other is promoted, its totals read
from the scratchpad and written back (03 R73, R74). -/
def endRun (s : State) (i : Nat) (o : Occ) (j : MulJob) (g : Nat) : State :=
  let x := s.teOf i
  let runs := blockRuns s.mem j x.row x.col x.runStart g
  let s := s.touchReads (runReads j x.row x.col x.runStart g)
  let o : Occ := { o with accInf := o.accInf || runsInf runs }
  if g = j.groups ∧ mulDrained o = true then
    let blk : DrainBlk := ⟨o.id, x.row, x.col, runBits runs, x.fresh, s.drainsAhead o⟩
    (s.setTe i { x with kpos := g, runStart := g, drains := x.drains ++ [blk] }).endBlock i o j
  else
    let b := s.blockTotals j x.row x.col x.fresh
    let totals := addRuns b.2 (runBits runs)
    let o : Occ := { o with poison := o.poison || totals.any fun v => v.2 }
    let s := ((b.1.store (totalWrites j x.row x.col totals)).putOcc o).setTe i
      { x with kpos := g, runStart := g, fresh := false }
    if g = j.groups then s.endBlock i o j else s

/-- Issues one group of the MATMUL in progress. The group that ends a run stalls while the promotion buffer is occupied
(03 R73), so a total is first read only after the earlier blocks' totals are written (R77). -/
def mulGroup (s : State) (i : Nat) (o : Occ) (j : MulJob) : State :=
  let x := s.teOf i
  let g := x.kpos + 1
  let ends := decide (g = x.runStart + mulRunLen o) || decide (g = j.groups)
  if ends && !x.drains.isEmpty then s
  else
    let s := (mulEngines o).foldl (fun (s : State) k =>
      s.addPair (pageNum .te k) TE.TE_BEAT_CNT_LO_count (if j.pair16 then 1 else 2)) s
    if ends then s.endRun i o j g else s.setTe i { x with kpos := g }

/-- One group on an engine: begins the next MATMUL when none is in progress. -/
def mulStep (s : State) (t e : Nat) : State :=
  match s.mulFront t e with
  | none => s
  | some o =>
    match mulJob o with
    | none => s
    | some j =>
      let i := 4 * t + e
      if o.place = .input then (s.beginMul i o).mulGroup i { o with place := .running } j
      else s.mulGroup i o j

def mulSteps (t e : Nat) : Nat → State → State
  | 0, s => s
  | n + 1, s => mulSteps t e n (s.mulStep t e)

/-! ### Draining -/

/-- Whether the tile's engines work as a quad: a quad MATMUL is in progress, or its last blocks wait to be drained. -/
def quadOn (s : State) (t : Nat) : Bool :=
  s.seq.occs.any fun o => decide (o.tile = t) && decide (o.unit = .quad) &&
    (decide (o.place = .running) || decide (o.place = .waiting))

/-- The engine number that holds the drain path of an engine: engine 0 while the engines work as a quad (03 R91). -/
def drainKey (s : State) (t e : Nat) : Nat := if s.quadOn t then 4 * t else 4 * t + e

/-- The engines whose drain paths run together with one engine's (03 R83, R91). -/
def drainEngines (s : State) (t e : Nat) : List Nat :=
  if s.quadOn t then [4 * t, 4 * t + 1, 4 * t + 2, 4 * t + 3] else [4 * t + e]

/-- Counts drained blocks on pages. -/
def countDrains (s : State) (is : List Nat) (n : Nat) : State :=
  is.foldl (fun (s : State) i => s.addWrap (pageNum .te i) TE.TE_DRAIN_CNT_count n) s

/-- The MATMUL in progress on an engine whose total is a tensor: the one that a DRAIN of it samples (03 R91). -/
def sampled (s : State) (t e : Nat) (tot : Tensor) : Option (Occ × MulJob) :=
  match (s.teOf (s.drainKey t e)).occ with
  | some id =>
    match s.occ id with
    | some mo =>
      match mulJob mo with
      | some j => if j.tot.addrs = tot.addrs ∧ j.tot.lengths = tot.lengths then some (mo, j) else none
      | none => none
    | none => none
  | none => none

/-- Whether a DRAIN waits for the last total of a MATMUL before it (03 R77, R90). One that samples the MATMUL in progress
waits only for those before that one. -/
def drainWaits (s : State) (t e : Nat) (o : Occ) (tot : Tensor) : Bool :=
  match s.sampled t e tot with
  | some x => s.totalPending t e x.1 tot.range
  | none => s.totalPending t e o tot.range

/-- The DRAIN that a drain path takes next, in arrival order (R92), unless it waits for a total under R77. -/
def drainFront (s : State) (t e : Nat) : Option Occ :=
  match (s.unitOccs t (.drain e)).find? fun d => decide (d.place = .input) with
  | some d =>
    match d.ten 0 with
    | some tot => if s.drainWaits t e d tot then none else some d
    | none => none
  | none => none

/-- Drains the oldest finished block of an engine: its totals are read from the scratchpad unless it starts from +0, and
its last run is added (03 R83, R85). DRAINs that arrived before it go first (R92). -/
def drainNext (s : State) (t e : Nat) : State :=
  let i := 4 * t + e
  let x := s.teOf i
  match x.drains with
  | [] => s
  | b :: rest =>
    if (s.drainEngines t e).any (fun k => match s.drainFront t (k % 4) with | some d => b.ahead.contains d.id | none => false)
    then s
    else
      match s.occ b.occ with
      | none => s.setTe i { x with drains := rest }
      | some o =>
        match mulJob o with
        | none => s
        | some j =>
          let tot := s.blockTotals j b.row b.col b.fresh
          let vals := addRuns tot.2 b.runs
          let r := drainBlock tot.1 (mulDrainJob s o) (b.row * j.bs) (b.col * j.bs) (j.width b.col) vals
          let s := if drnKeep (o.f 320 32) then r.1.store (totalWrites j b.row b.col vals) else r.1
          let s := (s.countDrains (mulEngines o) 1).setTe i { x with drains := rest }
          let last := decide (o.place = .waiting) && !(rest.any fun c => decide (c.occ = o.id))
          s.putOcc { o with poison := o.poison || r.2, place := if last then .done else o.place }

/-- The blocks of `n` × `n` in which a whole total is drained (03 R92). -/
def readingBlocks (n : Nat) (tot : Tensor) : List (Nat × Nat) :=
  (List.range ((tot.lengths.getD 1 0 + n - 1) / n)).flatMap fun r =>
    (List.range ((tot.lengths.getD 0 0 + n - 1) / n)).map fun c => (r, c)

def readingBlock (n : Nat) (s : State) (d : DrainJob) (tot : Tensor) (bp : State × Bool) (rc : Nat × Nat) : State × Bool :=
  let j : MulJob := ⟨tot, tot, tot, n⟩
  let vals := (j.cells rc.1 rc.2).map fun c =>
    let a := tot.addr [c.2, c.1]
    (s.mem.code 4 a, s.mem.poisonedN a 8)
  let r := drainBlock bp.1 d (rc.1 * n) (rc.2 * n) (j.width rc.2) vals
  (r.1, bp.2 || r.2)

/-- A DRAIN of the MATMUL in progress: the open run is promoted as it stands, the block's totals are written, and the
block is drained (03 R91). ACC_INF of the promoted run is reported on the MATMUL and on the DRAIN (DESIGN CHOICE,
notes/assumptions/100.md). -/
def drainSample (s : State) (t e : Nat) (o mo : Occ) (j : MulJob) : State :=
  let i := s.drainKey t e
  let x := s.teOf i
  let opened := decide (x.runStart < x.kpos)
  let runs := if opened then blockRuns s.mem j x.row x.col x.runStart x.kpos else []
  let s := if opened then s.touchReads (runReads j x.row x.col x.runStart x.kpos) else s
  let b := s.blockTotals j x.row x.col x.fresh
  let totals := if opened then addRuns b.2 (runBits runs) else b.2
  let s := (b.1.store (totalWrites j x.row x.col totals)).setTe i { x with runStart := x.kpos, fresh := false }
  let s := s.putOcc { mo with
    runSplit := mo.runSplit || opened, accInf := mo.accInf || runsInf runs, poison := mo.poison || totals.any fun v => v.2 }
  let r := drainBlock s (drainDrainJob s o) (x.row * j.bs) (x.col * j.bs) (j.width x.col) totals
  (r.1.countDrains (mulEngines mo) 1).putOcc
    { o with place := .done, runSplit := opened, accInf := runsInf runs, poison := o.poison || r.2 }

/-- A DRAIN of a total that no MATMUL in progress has: the whole tensor, in blocks of the quad's size while the engines work
as a quad (03 R91, R92). -/
def drainRead (s : State) (t e : Nat) (o : Occ) (tot : Tensor) : State :=
  let n := if s.quadOn t then 256 else 128
  let blocks := readingBlocks n tot
  let r := blocks.foldl (s.readingBlock n (drainDrainJob s o) tot) (s.touchReads (tot.addrs.map fun a => (a.toNat, 8)), false)
  (r.1.countDrains (s.drainEngines t e) blocks.length).putOcc { o with place := .done, poison := o.poison || r.2 }

/-- DRAIN on the tensor engine `e` (03 R91, R92). -/
def drainRun (s : State) (t e : Nat) (o : Occ) (tot : Tensor) : State :=
  match s.sampled t e tot with
  | some x => s.drainSample t e o x.1 x.2
  | none => s.drainRead t e o tot

end State

/-! ### The commands -/

/-- MATMUL (03 R65 to R75): the engine issues `n` groups of its MATMUL, fewer where it stalls. -/
def execMatmul (t e n : Nat) (s : State) : Host.Outcome State Fault Refusal :=
  .next (if s.domainOn .te (4 * t + e) then State.mulSteps t e n s.start else s.start)

/-- DRAIN (03 R77, R91, R92): the drain path of an engine takes its next DRAIN. -/
def execDrain (t e : Nat) (s : State) : Host.Outcome State Fault Refusal :=
  match s.drainFront t e with
  | some o =>
    let behind := (s.teOf (s.drainKey t e)).drains.any fun b => !b.ahead.contains o.id
    match o.ten 0 with
    | some tot => .next (if s.domainOn .te (4 * t + e) ∧ behind = false then s.start.drainRun t e o tot else s.start)
    | none => .next s.start
  | none => .next s.start

/-- BLOCK_DRAIN (03 R85): the drain path of an engine drains its oldest finished block. -/
def execBlockDrain (t e : Nat) (s : State) : Host.Outcome State Fault Refusal :=
  .next (if s.domainOn .te (4 * t + e) then s.start.drainNext t e else s.start)

end Sys2Proof.Machine
end

