-- ==== Sys2Proof/Machine/Abort.lean ====
section
/-!
DEFINITION. How work in progress is ended: the soft resets of the units that execute descriptors, and the abort of all of
them (03 R94, 07 R200, 10 R267, 13 R345, 18 R451, R463).
-/
namespace Sys2Proof.Machine

/-- First addresses and sizes of what an occurrence's work writes, or whose totals it leaves undefined, but for a VEC's
windows (03 R94; 07 R200; 08 R210, R215; 18 R463). -/
def targets (o : Occ) : List (Int × Nat) :=
  let els (is : List Nat) : List (Int × Nat) := is.flatMap fun i => elemBytes (o.ten i)
  match o.opcode with
  | 0x01 => els [2, 3, 5, 6]
  | 0x02 => els [0, 1, 3, 4]
  | 0x08 | 0x09 | 0x0A | 0x0B | 0x10 => els [1]
  | 0x18 => if o.subop = 4 then els [2] else normBytes (o.ten 1)
  | 0x19 =>
    match o.subop, o.ten 0 with
    | 1, _ => els [0]
    | 4, some t => [((t.base : Int), 80 * o.f 208 13)]
    | 6, some t => [((t.base : Int), 48 * o.f 208 13)]
    | _, _ => []
  | 0x1A =>
    match o.f 8 4, o.ten 0 with
    | 4, some t => [((t.maskFirst : Int), t.count / 8)]
    | _, _ => els [0]
  | _ => []

/-- First addresses and sizes of what a VEC writes. -/
def winTargets (o : Occ) : List (Int × Nat) :=
  if o.opcode = 0x03 then
    let fmtAt (i : Nat) : Bool := match o.win i with | some w => fmtWire w.fmt | none => false
    ((vecRoles o.desc (fmtAt 1) (fmtAt 0)).filter fun r => r.2.wr).flatMap fun r =>
      match o.win r.1 with
      | some w => wkindWrites w (vecCount o.desc) r.2.kind
      | none => []
  else []

namespace State

/-- Ends an occurrence with ABORTED: what it writes is undefined, and it waits for its completion (R345). A collective
occurrence ends as R264 states. -/
def abortOcc (s : State) (o : Occ) : State :=
  match s.ctxOf o.id with
  | some c => if !s.running c then s else s.endCtx o.id stAborted 0 0
  | none =>
    (s.undefine (targets o ++ winTargets o)).putOcc
      { o with place := if o.place = .input then .ended else .done, code := stAborted }

/-- The occurrence that a unit has in progress: the first that it has started and that has not completed. One that waits
in its input is not among them (06 R144). -/
def current (s : State) (p : Occ → Bool) : Option Occ :=
  s.seq.occs.find? fun o => p o && (decide (o.place = .running) || decide (o.place = .waiting) || decide (o.place = .done))

def abortCurrent (s : State) (p : Occ → Bool) : State :=
  match s.current p with
  | some o => s.abortOcc o
  | none => s

/-- Ends every occurrence that a condition names, from its hand-over to its completion, but for one that its unit never
began. -/
def abortEvery (s : State) (p : Occ → Bool) : State :=
  (s.seq.occs.filter fun o => p o && decide (o.place ≠ .checked) && decide (o.place ≠ .ended)).foldl
    (fun (s : State) o => s.abortOcc o) s

/-- Soft reset of a tensor engine: its MATMUL, finished blocks and DRAIN in progress; the tree, carry stack, promotion
buffer and drain path are discarded; the position registers keep their values (03 R94). A quad MATMUL ends with any of its
engines. -/
def resetTe (s : State) (i : Nat) : State :=
  let t := i / 4
  let e := i % 4
  let mine (o : Occ) : Bool := decide (o.tile = t) &&
    (decide (o.unit = .te e) || decide (o.unit = .drain e) || decide (o.unit = .quad))
  let held := s.seq.occs.filter fun o => mine o && (decide (o.place = .running) || decide (o.place = .waiting))
  let quad := s.seq.occs.any fun o => decide (o.tile = t) && decide (o.unit = .quad) && decide (o.place ≠ .checked)
  let s := if held.isEmpty then s.abortCurrent mine else held.foldl (fun (s : State) o => s.abortOcc o) s
  let was := s.teOf (if quad then 4 * t else i)
  let ks := if quad then [4 * t, 4 * t + 1, 4 * t + 2, 4 * t + 3] else [i]
  let s := ks.foldl (fun (s : State) k => s.setTe k { s.teOf k with occ := none, drains := [] }) s
  if was.occ.isSome then s.parkTe ks was else s

def onTile (t : Nat) (u : UnitId) (o : Occ) : Bool := decide (o.tile = t) && decide (o.unit = u)

/-- Soft reset of a vector engine, RNG unit or scale unit (07 R200; 08, RNG and SCALE pages). -/
def resetVe (s : State) (t : Nat) : State := s.abortCurrent (onTile t .ve)
def resetRng (s : State) (t : Nat) : State := s.abortCurrent (onTile t .rng)
/-- A SCALE that has acted on its slots ends as it was; the one in front of the unit, which has not, ends with no slot
changed. -/
def resetScale (s : State) (t : Nat) : State :=
  match s.scaleFront t with
  | some o => s.abortOcc o
  | none => s
/-- Soft reset of a DMA: what is in progress and in its input (18 R463). -/
def resetDma (s : State) (t : Nat) : State := s.abortEvery (onTile t .dma)
/-- Soft reset of the trail unit: the MARK in progress (13 R353). -/
def resetTrail (s : State) : State := s.abortCurrent fun o => decide (o.unit = .trail)
/-- Soft reset of the collective engine (10 R267). -/
def resetColl (s : State) : State :=
  let s := s.endCtxs (fun _ => true) stAborted 0 (fun _ => 0)
  { s with coll := { s.coll with pend := [], ended := [] } }

/-- Aborts every descriptor in progress on every unit (13 R345). -/
def abortAll (s : State) : State :=
  let ts := List.range (Member.tiles s.member)
  let s := (List.range (4 * Member.tiles s.member)).foldl (fun (s : State) i => s.resetTe i) s
  let s := ts.foldl (fun (s : State) t => (((s.resetVe t).resetDma t).resetRng t).resetScale t) s
  s.resetTrail.endCtxs (fun _ => true) stAborted 0 (fun _ => 0)

end State

end Sys2Proof.Machine
end

