-- ==== Sys2Proof/Machine/Rng.lean ====
section
/-!
DEFINITION. RNG_FILL: the kinds, positional and sequential drawing (08 R207 to R210).
-/
namespace Sys2Proof.Machine

/-- RNG_FILL's body (06 R168, 08 R207). -/
def rngKind (o : Occ) : Nat := o.f 8 4
def rngSeq (o : Occ) : Bool := o.f 12 1 == 1
def rngCounter (o : Occ) : Nat := o.f 13 3
def rngStream (o : Occ) : Nat := o.f 208 16
def rngStep (o : Occ) : Nat := o.f 224 32
def rngParam (o : Occ) : Nat := o.f 256 32

namespace State

/-- DRAW[n] of a tile (08 R210). -/
def draw (s : State) (t n : Nat) : Nat := s.pair (pageNum .rng t) (RNG.DRAW_LO_count.plus (16 * n))
def setDraw (s : State) (t n v : Nat) : State := s.setPair (pageNum .rng t) (RNG.DRAW_LO_count.plus (16 * n)) (v % 2 ^ 64)
/-- The value a configured counter should have at the tile's present step (08 R211). -/
def drawExpected (s : State) (t n : Nat) : Nat :=
  let p := pageNum .rng t
  codeOf 64 (((s.fget p RNG.STEP_value : Nat) - (s.fget p (RNG.SEQ_BASE_step.plus (16 * n)) : Nat) : Int) *
    (s.fget p (RNG.SEQ_CFG_per_step.plus (16 * n)) : Nat))

/-- The block of each target element, in element order (08 R209, R210). -/
def rngBlocks (s : State) (o : Occ) (t : Tensor) : List PhiloxBlock :=
  let key := s.jobKey o.tile
  if rngSeq o then
    let base := s.draw o.tile (rngCounter o)
    (offsets t.posDims).map fun d => philox key (philoxCtr (rngStream o) (rngStep o) (codeOf 64 (base + d)))
  else t.positions.map fun p => philox key (philoxCtr (rngStream o) (rngStep o) p)

end State

/-- The FP32 value of UNIFORM and NORMAL (08 R207, R208). -/
def rngValue (kind param : Nat) (b : PhiloxBlock) : LaneVal :=
  if kind = 2 then .pure (.fin false (b.x0 / 256) (-24))
  else fnResult false 4 (Approx.normal (b.x0 / 256) (b.x1 / 256) (fp32Fmt.decode param))
    (Config.fnClass 0x40 32 (b.x0 / 256 + 2 ^ 24 * (b.x1 / 256)) param) []

/-- A kind that writes elements: BITS, UNIFORM or NORMAL. -/
def rngElements (s : State) (o : Occ) (t : Tensor) : State :=
  let kind := rngKind o
  let xs := (t.addrs.zip (s.rngBlocks o t)).map fun x =>
    if kind = 1 then (WElem.mk x.1.toNat 4 x.2.x0 false, none)
    else
      let v := rngValue kind (rngParam o) x.2
      let c := convertFmt t.fmt 0 .rne false v.val
      (WElem.mk x.1.toNat t.size c.code false, some (watchClass t.fmt c v.sat))
  let bytes := wElems (xs.map fun x => x.1)
  let meets := s.mem.writeMeetsPoison bytes
  let s := s.store bytes
  let s := if t.slotEn && decide (kind ≠ 1) then s.watchAdd o.tile t.slot (xs.filterMap fun x => x.2) else s
  let s := s.addPair (pageNum .rng o.tile) RNG.BLOCK_CNT_LO_count xs.length
  s.putOcc { o with place := .done, poison := o.poison || meets, aux := [((maxOffset t.posDims) + 1).toNat] }

/-- BERNOULLI: bits of a mask, whole 64-bit words (08 R208). -/
def rngBernoulli (s : State) (o : Occ) (t : Tensor) : State :=
  let bits := (s.rngBlocks o t).map fun b => decide (b.x0 < rngParam o)
  let words := (chunks 64 (bits.length + 1) bits).map fun w => w.foldr (fun b n => (if b then 1 else 0) + 2 * n) 0
  let first := t.maskFirst
  let bytes := wElems (((List.range words.length).zip words).map fun x => ⟨first + 8 * x.1, 8, x.2, false⟩)
  let s := (s.store bytes).addPair (pageNum .rng o.tile) RNG.BLOCK_CNT_LO_count bits.length
  s.putOcc { o with place := .done, aux := [bits.length] }

/-- Runs the RNG_FILL in front when it is of this kind. -/
def State.runRng (s : State) (t kind : Nat) : State :=
  match s.unitFront t .rng with
  | some o =>
    if o.place = .input ∧ rngKind o = kind ∧ s.domainOn .rng t = true then
      match o.ten 0 with
      | some x => if kind = 4 then rngBernoulli s o x else rngElements s o x
      | none => s.putOcc { o with place := .done, aux := [0] }
    else s
  | none => s

/-- What an RNG_FILL does at completion with OK: SET_STEP writes STEP, a sequential fill advances its counter (08 R207,
R210). -/
def State.rngComplete (s : State) (o : Occ) : State :=
  if o.opcode = 0x1A ∧ o.code = stOk then
    if rngKind o = 0xF then s.fset (pageNum .rng o.tile) RNG.STEP_value (rngStep o)
    else if rngSeq o then s.setDraw o.tile (rngCounter o) (s.draw o.tile (rngCounter o) + o.aux.getD 0 0)
    else s
  else s

/-- RNG_BITS (08 R207). -/
def execRngBits (t : Nat) (s : State) : Host.Outcome State Fault Refusal := .next (s.start.runRng t 1)
/-- RNG_UNIFORM (08 R208). -/
def execRngUniform (t : Nat) (s : State) : Host.Outcome State Fault Refusal := .next (s.start.runRng t 2)
/-- RNG_NORMAL (08 R208). -/
def execRngNormal (t : Nat) (s : State) : Host.Outcome State Fault Refusal := .next (s.start.runRng t 3)
/-- RNG_BERNOULLI (08 R208). -/
def execRngBernoulli (t : Nat) (s : State) : Host.Outcome State Fault Refusal := .next (s.start.runRng t 4)
/-- RNG_SET_STEP (08 R207): STEP is written when it completes. -/
def execRngSetStep (t : Nat) (s : State) : Host.Outcome State Fault Refusal := .next (s.start.runRng t 0xF)

end Sys2Proof.Machine
end

