-- ==== Sys2Proof/Machine/Complete.lean ====
section
/-!
DEFINITION. Completion of a descriptor in its unit's order (06 R147, R148), with the command DESC_COMPLETE.
-/
namespace Sys2Proof.Machine
namespace State

/-- Whether an occurrence is ready for its status record: its unit is done with it, its collective may complete, or it
ended before its unit began it. -/
def finished (s : State) (o : Occ) : Bool :=
  decide (o.place = .done) || decide (o.place = .ended) ||
    (match s.ctxOf o.id with
    | some c => (decide (o.place = .input) || decide (o.place = .running)) && s.ctxReady c o
    | none => false)

/-- Whether an earlier occurrence of the same unit has yet to complete. The snapshot and trail units are the module's. -/
def behind (s : State) (o : Occ) : Bool :=
  let same (x : Occ) : Bool := decide (x.unit = o.unit) && decide (x.place ≠ .checked) &&
    (decide (x.tile = o.tile) || decide (o.unit = .snap) || decide (o.unit = .trail))
  inOrder o.unit && decide (o.unit ≠ .tseq) &&
    (match s.seq.occs.find? same with | some x => decide (x.id ≠ o.id) | none => false)

/-- The occurrences of a tile that may complete now, in the order of hand-over: the unit's order, and for GATHER_AHEAD
the queue's order, allow it (06 R147; 09 R229). -/
def completable (s : State) (t : Nat) : List Occ :=
  s.seq.occs.filter fun o => decide (o.tile = t) && s.finished o && !s.behind o &&
    !(decide (o.opcode = 0x09) && s.earlierGather o)

/-- Completes an occurrence with what its unit does at completion. -/
def finishOcc (s : State) (o : Occ) : State :=
  let s := s.rngComplete o
  match s.ctxOf o.id with
  | some c =>
    let r := s.collFinal o c
    r.1.completeOcc r.2
  | none => s.completeOcc o

/-- Whether what a completion writes accepts accesses: the status ring, and a collective's report slot (05 R136). -/
def endOpen (s : State) (o : Occ) : Bool :=
  s.mayEnd o && (!needsContext o.desc || s.memOpen (s.reportSlot (bucketOf o)))

end State

/-- DESC_COMPLETE (06 R148): the `n`-th occurrence of a tile that may complete does. -/
def execDescComplete (t n : Nat) (s : State) : Host.Outcome State Fault Refusal :=
  .next (match (s.completable t)[n]? with
    | some o => if s.endOpen o then s.start.finishOcc o else s.start
    | none => s.start)

end Sys2Proof.Machine
end

