-- ==== Sys2Proof/Machine/Queue.lean ====
section
/-!
DEFINITION. What writes of the queue, semaphore and TSEQ control registers do (06 R137 to R142, R150, R170).
-/
namespace Sys2Proof.Machine
namespace State

/-- Whether both rings of a queue of this size pass R137. -/
def ringsOk (s : State) (t q : Nat) : Bool :=
  s.inStack (s.qBase t q) (64 * s.qSlots t q) && s.inStack (s.qSBase t q) (16 * s.qSlots t q)

/-- Zeroes a queue's counts, Q_STAT and REPEAT state (R139). -/
def clearQueue (s : State) (t q : Nat) : State :=
  let p := tseqP t
  let gone (o : Occ) : Bool := decide (o.tile = t) && decide (o.queue = q) && decide (o.opcode = 0x30)
  let s := { s with seq := { s.seq with occs := s.seq.occs.filter fun o => !gone o } }
  let s := s.setQueue t q ⟨[], 0, [], none, false⟩
  let s := ((s.setQReg t q 0x18 0).setQReg t q 0x20 0).fset p (qfd TSEQ.Q_STAT_halted q) 0
  ((s.fset p (qfd TSEQ.Q_STAT_cfg_err q) 0).fset p (qfd TSEQ.Q_STAT_wait_long q) 0).fset p (qfd TSEQ.Q_STAT_halt_code q) 0

/-- Sets Q_CTRL.enable: the rings are checked first (R138). The rule names no slot for the PAGE_ERR record of a failed
check, and no clearing of cfg_err but by a reset: the model records slot 0, and a check that passes clears cfg_err
(DESIGN CHOICE, notes/assumptions/98.md). -/
def enableQueue (s : State) (t q : Nat) : State :=
  let p := tseqP t
  if s.ringsOk t q then (s.fset p (qfd TSEQ.Q_CTRL_enable q) 1).fset p (qfd TSEQ.Q_STAT_cfg_err q) 0
  else (s.fset p (qfd TSEQ.Q_STAT_cfg_err q) 1).tseqFirst t stBadAddr q 0

/-- Clears Q_CTRL.enable: what is fetched and not dispatched is discarded (R139); Q_HEAD stays where it is (R161). -/
def disableQueue (s : State) (t q : Nat) : State :=
  let x := s.queueOf t q
  (s.fset (tseqP t) (qfd TSEQ.Q_CTRL_enable q) 0).setQueue t q { x with fetched := [], whole := x.whole || repsFetched x }

/-- A write of Q_CTRL: the size and the reset are judged on the state before the write (R138, R139). -/
def writeQCtrl (s : State) (t q v : Nat) : State :=
  let p := tseqP t
  let off := 0x110 + 0x40 * q
  let size := natBits v 2 5
  let on := natBits v 0 1 == 1
  let reset := natBits v 1 1 == 1
  let was := s.qEnabled t q
  let free := !was && s.qIdle t q
  if (size ≠ s.fget p (qfd TSEQ.Q_CTRL_size_log2 q) ∧ free = false) ∨ size < 4 ∨ 16 < size ∨ (reset = true ∧ free = false) then
    s.ctrlIgnored .tseq t off
  else
    let s := (s.fset p (qfd TSEQ.Q_CTRL_size_log2 q) size).fset p (qfd TSEQ.Q_CTRL_prio q) (natBits v 8 2)
    let s := if reset then s.clearQueue t q else s
    if on && !was then s.enableQueue t q else if !on && was then s.disableQueue t q else s

/-- The distance from count `b` to count `a`, modulo 2^32 (R139). -/
def countGap (a b : Nat) : Nat := (a + 2 ^ 32 - b % 2 ^ 32) % 2 ^ 32

/-- A doorbell (R140): the descriptors it releases and those not yet passed fit the ring. -/
def doorbell (s : State) (t q v : Nat) : State :=
  if countGap v (s.qTail t q) + countGap (s.qTail t q) (s.qHead t q) ≤ s.qSlots t q then s.setQReg t q 0x18 v
  else
    ((s.count (tseqP t) (qfd TSEQ.Q_DB_ERR_CNT_count q)).errEvent .tseq t 0xB1 q 0).event .tseq t TSEQ.PAGE_EVT_db_err

/-- Disables and zeroes every queue of a tile. -/
def resetQueues (s : State) (t : Nat) : State :=
  (List.range 8).foldl (fun (s : State) q => (s.disableQueue t q).clearQueue t q) s

/-- PAGE_CTRL.soft_reset of TSEQ (R170). -/
def resetTseq (s : State) (t : Nat) : State :=
  if s.tseqQuiesced t then s.resetQueues t else s.ctrlIgnored .tseq t TSEQ.PAGE_CTRL_soft_reset.off

/-- PAGE_CTRL.sem_clear (R150). -/
def clearSems (s : State) (t : Nat) : State :=
  if s.tseqQuiesced t then
    { s with seq := { s.seq with sems := s.seq.sems.filter fun x => decide (x.1 / 4096 ≠ t) } }
  else s.ctrlIgnored .tseq t TSEQ.PAGE_CTRL_sem_clear.off

/-- Ends all sequencing on a tile before a restore (13 R347 step 2): what is left is dropped and its queues are zeroed. -/
def dropTile (s : State) (t : Nat) : State :=
  let s := { s with seq := { s.seq with occs := s.seq.occs.filter fun o => decide (o.tile ≠ t) } }
  s.resetQueues t

end State
end Sys2Proof.Machine
end

