-- ==== Sys2Proof/Machine/Trail.lean ====
section
/-!
DEFINITION. The trail log (13 R337 to R341), with the commands MARK, MIRROR_ACK_RECEIVE's part, MARK_MIRROR_TIMEOUT and
TRAIL_FLUSH_DONE.
-/
namespace Sys2Proof.Machine

def stTrailFull : Nat := 0x48
def stTrailUnmirrored : Nat := 0x49
def stTrailDiverge : Nat := 0x4A
def stTrailNone : Nat := 0x4B

/-- A list brought to a multiple of 8 bytes with zeros. -/
def padWord (bs : List Nat) : List Nat := bs ++ List.replicate ((8 - bs.length % 8) % 8) 0

/-- The fields of a trail record. -/
structure RecordIn where
  typ   : Nat
  pay   : Option (List Nat)
  poison : Bool
  step  : Nat
  index : Nat
  tile  : Nat
  queue : Nat
  imm   : Nat
  deriving DecidableEq, Repr

/-- The 32 bytes before the payload with a given crc field (Trail record). -/
def recordHead (x : RecordIn) (words crc : Nat) : List Nat :=
  bytesOf (x.typ % 256 + x.pay.isSome.toNat * 2 ^ 8 + x.poison.toNat * 2 ^ 9 + words * 2 ^ 16 + x.step * 2 ^ 32 +
    x.index % 2 ^ 64 * 2 ^ 64 + x.tile * 2 ^ 128 + x.queue * 2 ^ 131 + crc * 2 ^ 160 + x.imm % 2 ^ 64 * 2 ^ 192) 32

/-- A trail record's bytes (R339). -/
def recordBytes (x : RecordIn) : List Nat :=
  let pay := padWord (x.pay.getD [])
  let words := 4 + pay.length / 8
  recordHead x words (crc32c (recordHead x words 0 ++ pay)) ++ pay

/-- A record's bytes without index and crc, for the comparison of verify mode (R341). -/
def unindexed (bs : List Nat) : List Nat := bs.take 8 ++ (bs.drop 16).take 4 ++ bs.drop 24

namespace State

def snapP : Nat := pageNum .snap 0
def trailP : Nat := pageNum .trail 0

def trailSize (s : State) : Nat := s.fget trailP TRAIL.TRAIL_SIZE_mib * 2 ^ 20
def trailHead (s : State) : Nat := s.pair trailP TRAIL.HEAD_LO_bytes
def trailKeep (s : State) : Nat := s.pair trailP TRAIL.KEEP_LO_bytes
/-- The ring address of a byte count. -/
def ringAddr (s : State) (p : Nat) : Nat :=
  s.pair trailP TRAIL.TRAIL_BASE_LO_addr + (if s.trailSize = 0 then 0 else p % s.trailSize)

/-- Bytes of memory with the poison of each 8-byte word, as a unit's read finds them. -/
def readVia (s : State) (addr : Nat → Nat) (n : Nat) : Piece :=
  ⟨(List.range n).map fun i => s.mem.readByte (addr i), (List.range ((n + 7) / 8)).map fun w => s.mem.poisoned (addr (8 * w))⟩
/-- The effects of such a read by a unit of the hub. -/
def touchVia (s : State) (addr : Nat → Nat) (n : Nat) : State :=
  ((List.range n).foldl (fun (s : State) i => s.stackBytes STK.STK_RD_BYTES_LO_count (addr i) 1)
    (s.touchReads ((List.range n).map fun i => (addr i, 1)))).crossFabric ((List.range n).map fun i => (addr i, 1))
/-- Whether the memory at a run of computed addresses that lies in at most two places accepts accesses (05 R136). -/
def viaOpen (s : State) (addr : Nat → Nat) (n : Nat) : Bool :=
  decide (n = 0) || (s.memOpen (addr 0) && s.memOpen (addr (n - 1)))
/-- Stores a piece byte by byte at computed addresses, where they are populated (01 R20). -/
def storeVia (s : State) (addr : Nat → Nat) (p : Piece) : State :=
  let ws := ((p.bytes.zip (List.range p.bytes.length)).map fun x =>
    (⟨addr x.2, x.1, p.poison.getD (x.2 / 8) false⟩ : WByte)).filter fun w => isMem s.member w.addr
  ((List.range p.bytes.length).foldl (fun (s : State) i => s.stackBytes STK.STK_WR_BYTES_LO_count (addr i) 1)
    (s.store ws)).crossFabric (ws.map fun w => (w.addr, 1))

/-- MIRROR_LAG follows HEAD and what the partner has acknowledged. -/
def showLag (s : State) : State :=
  s.setReg trailP TRAIL.MIRROR_LAG_bytes.off (BitVec.ofNat 32 (s.trailHead - s.snap.acked))

/-- Appends a record to the ring. -/
def appendTrail (s : State) (bs : List Nat) : State :=
  let h := s.trailHead
  let s := s.storeVia (fun i => s.ringAddr (h + i)) ⟨bs, []⟩
  let s := s.setPair trailP TRAIL.HEAD_LO_bytes (h + bs.length)
  let s := { s with snap := { s.snap with nextRec := s.snap.nextRec + 1 } }
  (s.setReg trailP TRAIL.RECORDS_count.off (BitVec.ofNat 32 s.snap.nextRec)).showLag

/-- The partner, while the pairing is valid: the rank that the last go named (R335). -/
def partner (s : State) : Option Nat := if s.fget snapP SNAP.PAIR_STAT_state = 2 then some s.snap.pairTo else none

/-- The coll, bucket and VC that the snapshot unit's frames carry (R333). -/
def snapFrame (s : State) (dst number : Nat) (pay : Payload) : Frame := s.frame dst 7 0 (number % 2 ^ 32) 0xFFFE 0 pay

/-- The MARK the trail unit works on, and the next it may start. -/
def markRunning (s : State) : Option Occ := s.seq.occs.find? fun o => decide (o.unit = .trail) && decide (o.place = .running)
def markNext (s : State) : Option Occ :=
  if s.markRunning.isSome ∨ s.flag trailP TRAIL.PAGE_CTRL_quiesce = true ∨ s.domainOn .trail 0 = false then none
  else
    match s.seq.occs.find? fun o => decide (o.unit = .trail) && decide (o.place = .input) with
    | some o =>
      let pos := if s.flag trailP TRAIL.PAGE_STAT_verify then s.pair trailP TRAIL.REPLAY_POS_LO_bytes else s.trailHead
      if s.tensOpen o && s.memOpen (s.ringAddr pos) then some o else none
    | none => none

/-- The record of a MARK (R339). -/
def markRecord (s : State) (o : Occ) : RecordIn :=
  let p : Option Piece := (o.ten 0).map fun t => readPiece s.mem t 0 (t.count * t.size)
  ⟨o.subop, p.map fun x => x.masked.bytes, (match p with | some x => x.poison.any fun b => b | none => false), o.step,
    s.snap.nextRec, o.tile, o.queue, o.f 256 64⟩

/-- Ends a MARK. -/
def endMark (s : State) (o : Occ) (code : Nat) : State := s.putOcc { o with place := .done, code := code }

/-- Leaves verify mode (R341). -/
def endVerify (s : State) : State :=
  if s.flag trailP TRAIL.PAGE_STAT_verify then
    (s.fset trailP TRAIL.PAGE_STAT_verify 0).event .trail 0 TRAIL.PAGE_EVT_replay_end
  else s

/-- A STEP record becomes the latest (the data position of the next clearing, R331). -/
def noteStep (s : State) (o : Occ) : State :=
  if o.subop = 1 then { s with snap := { s.snap with stepImm := some (o.f 256 32) } } else s

/-- A MARK in verify mode: its record is compared with the stored one (R341). -/
def verifyMark (s : State) (o : Occ) (bs : List Nat) : State :=
  let pos := s.pair trailP TRAIL.REPLAY_POS_LO_bytes
  let stored (n : Nat) : List Nat := (s.readVia (fun i => s.ringAddr (pos + i)) n).bytes
  let s := s.touchVia (fun i => s.ringAddr (pos + i)) bs.length
  if unindexed (stored bs.length) = unindexed bs then
    let s := s.setPair trailP TRAIL.REPLAY_POS_LO_bytes (pos + bs.length)
    let s := (s.noteStep o).endMark o stOk
    if s.trailHead ≤ pos + bs.length then s.endVerify else s
  else
    let index := ((stored 16).drop 8).take 4
    let s := if s.snap.diverged then s
      else { s.setReg trailP TRAIL.DIVERGE_REC_index.off (BitVec.ofNat 32 (index.foldr (fun b n => b + 256 * n) 0)) with
        snap := { s.snap with diverged := true } }
    (s.event .trail 0 TRAIL.PAGE_EVT_diverge).endMark o stTrailDiverge

/-- Runs a MARK (R337 to R341). -/
def runMark (s : State) (o : Occ) : State :=
  if s.trailSize = 0 then s.endMark o stTrailNone
  else
    let x := s.markRecord o
    let bs := recordBytes x
    let s := match o.ten 0 with | some t => s.touchStream t 0 (t.count * t.size) | none => s
    let o : Occ := { o with poison := o.poison || x.poison }
    if s.flag trailP TRAIL.PAGE_STAT_verify then s.verifyMark o bs
    else if s.trailKeep + s.trailSize < s.trailHead + bs.length then
      (s.event .trail 0 TRAIL.PAGE_EVT_full).endMark o stTrailFull
    else
      let pos := s.trailHead
      let s := (s.appendTrail bs).noteStep o
      match s.partner with
      | some p => (s.putOcc { o with place := .running, aux := [pos + bs.length] }).sendTo (s.snapFrame p 0 (.trailRec pos bs))
      | none => s.endMark o stOk

/-- The partner has acknowledged the mirror up to a byte count (R340). -/
def mirrored (s : State) (pos : Nat) : State :=
  let s := { s with snap := { s.snap with acked := max s.snap.acked pos } }.showLag
  match s.markRunning with
  | some o => if o.aux.getD 0 0 ≤ s.snap.acked then s.endMark o stOk else s
  | none => s

/-- Writes of REPLAY_CTRL (R338, R341). -/
def replayStart (s : State) : State :=
  if s.trailSize = 0 then s.ctrlIgnored .trail 0 TRAIL.REPLAY_CTRL_start.off
  else
    let s := { s.fset trailP TRAIL.PAGE_STAT_verify 1 with snap := { s.snap with diverged := false } }
    if s.trailHead ≤ s.pair trailP TRAIL.REPLAY_POS_LO_bytes then s.endVerify else s

/-! ### Flash (16 R421) -/

/-- The first byte of the TRAIL partition, and its size; where a trail byte count stands in it is the model's choice. -/
def flashTrail (p : Nat) : Nat := 0x01040000 * 4096 + p % (63 * 2 ^ 30)

def flashByte (s : State) (a : Nat) : Nat := sparseGet (fun _ => 0) s.flash.cells a
/-- Writes bytes to flash; `bad` says which of their 8-byte words are poisoned. -/
def flashWrite (s : State) (a : Nat) (p : Piece) : State :=
  let cells := (p.bytes.zip (List.range p.bytes.length)).foldl (fun m x => sparsePut (fun _ => 0) (a + x.2) x.1 m) s.flash.cells
  let ws := (List.range ((p.bytes.length + 7) / 8)).map fun w => a / 8 + w
  let bad := (s.flash.bad.filter fun w => !ws.contains w) ++
    ((List.range ((p.bytes.length + 7) / 8)).filter fun w => p.poison.getD w false).map fun w => a / 8 + w
  { s with flash := { s.flash with cells := cells, bad := bad } }

/-- Ends a flush: FLUSHED takes the byte count it ran to (R340). -/
def flushDone (s : State) : State :=
  match s.snap.flushTo with
  | none => s
  | some e =>
    let b := s.pair trailP TRAIL.FLUSHED_LO_bytes
    let x := s
    let s := ({ s with snap := { s.snap with flushTo := none } }).touchVia (fun i => x.ringAddr (b + i)) (e - b)
    let s := if b < e then s.wearFlash else s
    let s := (List.range (e - b)).foldl (fun (s : State) i =>
      s.flashWrite (flashTrail (b + i)) ⟨[x.mem.readByte (x.ringAddr (b + i))], []⟩) s
    s.setPair trailP TRAIL.FLUSHED_LO_bytes e

end State

/-- MARK (R339): the trail unit takes the next MARK of its input. -/
def execMark (s : State) : Host.Outcome State Fault Refusal :=
  match s.markNext with
  | some o => .next (s.start.runMark o)
  | none => .next s.start

/-- MARK_MIRROR_TIMEOUT (R340). -/
def execMarkMirrorTimeout (s : State) : Host.Outcome State Fault Refusal :=
  match s.markRunning with
  | some o =>
    .next (if s.domainOn .trail 0 = false then s.start else
      ((s.start.count State.trailP TRAIL.UNMIRRORED_CNT_count).event .trail 0 TRAIL.PAGE_EVT_unmirrored).endMark o
      stTrailUnmirrored)
  | none => .next s.start

/-- TRAIL_FLUSH_DONE (R340). -/
def execTrailFlushDone (s : State) : Host.Outcome State Fault Refusal :=
  .next (if s.fget 0 MODULE.FIREBREAK_state = 0 ∧ s.memOpen (s.ringAddr 0) = true ∧ s.domainOn .trail 0 = true then
      s.start.flushDone else s.start)

end Sys2Proof.Machine
end

