-- ==== Sys2Proof/Machine/Snap.lean ====
section
/-!
DEFINITION. Clearings (13 R325 to R334), with the commands CLEARING, CLEARING_HOLD_DRAINED, CLR_HOLD_TIMEOUT,
CAPTURE_DONE and L2_WRITE_DONE.
-/
namespace Sys2Proof.Machine

def stClrMismatch : Nat := 0x41
def stClrPeerLost : Nat := 0x42
def stClrTimeout : Nat := 0x43
def stClrSpace : Nat := 0x44
def stClrPoison : Nat := 0x45
def stClrNoPartner : Nat := 0x46
def stClrFlash : Nat := 0x47

/-- Whether a level bit is set. -/
def hasLevel (levels i : Nat) : Bool := natBits levels i 1 == 1
def withLevel (levels i : Nat) : Nat := Nat.lor levels (2 ^ i)

namespace State

/-! ### Holds (R329, R344, R345, R347; 17 R436) -/

/-- Sets or clears one cause of the hold of dispatch; PAGE_STAT.hold shows whether any is left. -/
def setHold (s : State) (bit : Nat) (on : Bool) : State :=
  let h := putBits s.snap.hold bit 1 on.toNat
  { s.fset snapP SNAP.PAGE_STAT_hold (if h = 0 then 0 else 1) with snap := { s.snap with hold := h } }

/-! ### Capture set, slots and partner region (R325, R326) -/

def gib : Nat := 2 ^ 30
def capBase (s : State) : Nat := s.pair snapP SNAP.CAP_BASE_LO_addr
def capCount (s : State) : Nat := s.fget snapP SNAP.CAP_COUNT_entries
/-- A capture list entry: base and length. -/
def capEntry (s : State) (i : Nat) : Nat × Nat :=
  let e := s.mem.readN (s.capBase + 16 * i) 16
  (natBits e 0 48, natBits e 64 40)
def capEntries (s : State) : List (Nat × Nat) := (List.range s.capCount).map s.capEntry
/-- The capture list is read (05 R115, R116, R136). -/
def touchCapList (s : State) : State :=
  if memRange s.member s.capBase (16 * s.capCount) then s.touchVia (fun i => s.capBase + i) (16 * s.capCount) else s
/-- The capture size. -/
def capBytes (s : State) : Nat := s.capEntries.foldl (fun n e => n + e.2) (2 ^ 20)

/-- A byte of a range striped over the stacks in 1 MiB pieces, at offset `base` in each. -/
def stripe (s : State) (base off : Nat) : Nat :=
  let n := Member.stacks s.member
  let j := off / 2 ^ 20
  stackBase (j % n) + base + j / n * 2 ^ 20 + off % 2 ^ 20

def l0Size (s : State) : Nat := s.fget snapP SNAP.L0_CFG_size * gib
/-- Whether the stacks that hold the first bytes of such a range accept accesses (05 R136). -/
def stripeOpen (s : State) (base n : Nat) : Bool :=
  (List.range ((n + (2 ^ 20 - 1)) / 2 ^ 20)).all fun j => s.memOpen (s.stripe base (j * 2 ^ 20))

/-- The offset in each stack of the L0 slot of a clearing. -/
def l0Base (s : State) (number : Nat) : Nat := s.fget snapP SNAP.L0_CFG_off * gib + number % 2 * s.l0Size
def partOff (s : State) : Nat := s.fget snapP SNAP.PART_CFG_off * gib
/-- A partner slot's size in each stack: half of what the 32 MiB of the trail mirror leave. -/
def partSize (s : State) : Nat := (s.fget snapP SNAP.PART_CFG_size * gib - 2 ^ 25) / 2
def partBase (s : State) (number : Nat) : Nat := s.partOff + 2 ^ 25 + number % 2 * s.partSize
/-- The total sizes of one L0 slot and one partner slot, and the module's capacity. -/
def aL0 (s : State) : Nat := Member.stacks s.member * s.l0Size
def aP (s : State) : Nat := Member.stacks s.member * s.partSize
def capacity (s : State) : Nat := min s.aL0 s.aP

/-- Whether a region lies wholly in one populated understory or stack region. -/
def oneRegion (s : State) (a n : Nat) : Bool :=
  match region s.member a, region s.member (a + (n - 1)) with
  | .understory t _, .understory u _ => decide (t = u)
  | .stack j _, .stack k _ => decide (j = k)
  | _, _ => false

/-- Whether two ranges (first byte, length) share no byte; a range of no bytes shares none. -/
def capDisjoint (e f : Nat × Nat) : Bool :=
  decide (e.2 = 0) || decide (f.2 = 0) || decide (e.1 + e.2 ≤ f.1) || decide (f.1 + f.2 ≤ e.1)

/-- The L0 slots, the partner region and the trail ring as address ranges. -/
def reserved (s : State) : List (Nat × Nat) :=
  ((List.range (Member.stacks s.member)).flatMap fun k =>
    [(stackBase k + s.fget snapP SNAP.L0_CFG_off * gib, 2 * s.l0Size), (stackBase k + s.partOff, s.fget snapP SNAP.PART_CFG_size * gib)]) ++
    [(s.pair trailP TRAIL.TRAIL_BASE_LO_addr, s.trailSize)]

/-- Whether the capture list and the ranges keep R325 and R326. -/
def capOk (s : State) : Bool :=
  let es := s.capEntries
  memRange s.member s.capBase (16 * s.capCount) && !s.mem.poisonedN s.capBase (16 * s.capCount) &&
  (List.range es.length).all (fun i =>
    let e := es.getD i (0, 0)
    decide (e.1 % 4096 = 0) && decide (e.2 % 4096 = 0) && decide (e.2 ≠ 0) && s.oneRegion e.1 e.2 &&
      (es.take i).all (fun f => capDisjoint e f) && s.reserved.all (fun f => capDisjoint e f)) &&
  decide (s.fget snapP SNAP.L0_CFG_off * gib + 2 * s.l0Size ≤ 72 * gib) &&
  decide (s.partOff + s.fget snapP SNAP.PART_CFG_size * gib ≤ 72 * gib)

/-- Whether a clearing has its space. -/
def spaceOk (s : State) (levels : Nat) : Bool :=
  s.capOk && decide (s.capBytes ≤ s.aL0) && (!hasLevel levels 1 || decide (s.capBytes ≤ s.aP))

/-! ### The clearings of the module -/

def parkState (s : State) : Nat := s.fget 0 MODULE.SVC_STAT_park_state

/-- Whether a clearing has something left to do. -/
def clrRuns (c : Clearing) : Bool := !c.ended || decide (c.l1 = 1) || decide (c.l2 = 1)

/-- The phase that PAGE_STAT shows. -/
def shownPhase (s : State) : Nat :=
  match s.snap.clr with
  | some c =>
    if c.phase < 6 then c.phase else if c.l1 = 1 then 6 else if c.l2 = 1 then 7 else if c.ended then 0 else 8
  | none => match s.snap.tail with
    | c :: _ => if c.l1 = 1 then 6 else if c.l2 = 1 then 7 else 0
    | [] => 0

/-- Shows busy and phase. -/
def showSnap (s : State) : State :=
  let busy := s.snap.restore.isSome || s.snap.clr.isSome || !s.snap.tail.isEmpty
  (s.fset snapP SNAP.PAGE_STAT_busy busy.toNat).fset snapP SNAP.PAGE_STAT_phase s.shownPhase

def setClr (s : State) (c : Option Clearing) : State := { s with snap := { s.snap with clr := c } }

/-- Puts a clearing back where it stands; one with nothing left to do goes. -/
def putClr (s : State) (c : Clearing) : State :=
  let keep : Option Clearing := if clrRuns c then some c else none
  let f (y : Clearing) : Option Clearing := if y.occ = c.occ then keep else some y
  { s with snap := { s.snap with clr := s.snap.clr.bind f, tail := s.snap.tail.filterMap f } }.showSnap

end State

/-- The layers that a clearing has completed (CLR_STAT.levels). -/
def clrDone (c : Clearing) : Nat :=
  if c.phase < 4 then 0
  else
    1 + bitIf (decide (c.l1 = 2)) 2 + bitIf (decide (c.l2 = 2)) 4 + bitIf (decide (c.l2 = 2) && hasLevel c.levels 3) 8

namespace State

/-- Ends the CLEARING descriptor with its code; CLR_STAT shows it. -/
def endClearing (s : State) (c : Clearing) (code : Nat) : State :=
  let s := ((s.fset snapP SNAP.CLR_STAT_code code).fset snapP SNAP.CLR_STAT_levels (clrDone c)).fset snapP
    SNAP.CLR_STAT_poison (min 0xFFFF c.poison)
  let s := s.eventIf (decide (code ≠ stOk)) .snap 0 SNAP.PAGE_EVT_clr_err
  match s.occ c.occ with
  | some o => s.putOcc { o with place := .done, code := code, poison := o.poison || decide (c.poison ≠ 0) }
  | none => s

/-- What a clearing ended in phase 3 leaves in its slot: undefined. -/
def undefineSlot (s : State) (c : Clearing) : State :=
  (List.range (c.bytes / 8)).foldl (fun (s : State) w =>
    (s.store (wbytes (s.stripe (s.l0Base c.number) (8 * w)) s.freeVal false 8)).useFree) s

/-- Whether a frame belongs to the L1 stream of a clearing. -/
def ofStream (number : Nat) (f : Frame) : Bool :=
  decide (f.coll = number % 2 ^ 32) && (match f.pay with | .slotPart .. | .trailPart .. => true | _ => false)

/-- Abandons a clearing's L1 stream: what no port has sent yet is not sent (R345; 14 R369). -/
def dropStream (s : State) (c : Clearing) : State :=
  s.net.ports.foldl (fun (s : State) x =>
    s.setPort x.1 { s.portOf x.1 with waiting := (s.portOf x.1).waiting.filter fun f => !ofStream c.number f }) s

/-- Marks the slot of a clearing invalid (R330). -/
def spoilSlot (s : State) (number : Nat) : State :=
  { s with snap := { s.snap with badSlots := (s.snap.badSlots.filter fun k => decide (k ≠ number % 2)) ++ [number % 2] } }

/-- Where the clearing of a park has failed, the park waits for the next one (17 R436). -/
def parkAgain (s : State) (c : Clearing) : State :=
  if c.park = true ∧ s.parkState = 2 then (s.fset 0 MODULE.SVC_STAT_park_state 1).setHold 4 false else s

/-- A clearing fails before it is secure: the hold is released, and the slot being written is invalid from phase 3 on
(R330). -/
def failClearing (s : State) (c : Clearing) (code : Nat) : State :=
  let s := if 3 ≤ c.phase ∧ c.secure = false then s.spoilSlot c.number else s
  let s := (if c.phase = 3 then s.undefineSlot c else s).dropStream c
  let s : State := { s with snap := { s.snap with recs := [] } }
  let s := (s.setHold 0 false).endClearing c code
  (s.parkAgain c).putClr { c with ended := true, l1 := 0, l2 := 0, code := code }

/-! ### Securing (R332 to R334) -/

/-- The clearing becomes secure. -/
def becomeSecure (s : State) (c : Clearing) : State :=
  let s := (s.setPair snapP SNAP.SECURE_LO_number c.number).event .snap 0 SNAP.PAGE_EVT_secure
  match s.snap.marks.find? fun m => decide (m.1 = c.number) with
  | some m => s.setPair trailP TRAIL.KEEP_LO_bytes m.2
  | none => s

/-- Whether a clearing is the last one that has begun. -/
def lastClr (s : State) (c : Clearing) : Bool :=
  match s.snap.clr with
  | some d => decide (d.occ = c.occ)
  | none => false

/-- Takes a captured clearing as far as its copies allow. It becomes secure as soon as either qualifies, and its CLEARING
completes then, with the code that phases 6 and 7 have raised; one that no copy is left to secure completes with its code
(R332, R334; 17 R436), and where it has failed, leaves its slot invalid (R330). A copy that ends later is still shown in
CLR_STAT.levels (notes/assumptions/78.md). A park goes on once both phases have ended; on the XSC-1-72, which has neither,
with the capture (17 R436, R437). -/
def settleClr (s : State) (c : Clearing) : State :=
  let sameFeed := s.flag snapP SNAP.PAGE_STAT_same_feed
  let ok := decide (c.poison = 0) && ((decide (c.l1 = 2) && !sameFeed) || decide (c.l2 = 2))
  let idle := decide (c.l1 ≠ 1) && decide (c.l2 ≠ 1)
  let s := if ok && !c.secure then s.becomeSecure c else s
  let c : Clearing := { c with secure := c.secure || ok }
  let s :=
    if !c.ended then (if c.secure || idle then s.endClearing c c.code else s)
    else if s.lastClr c then s.fset snapP SNAP.CLR_STAT_levels (clrDone c) else s
  let s := if idle && !c.secure && decide (c.code ≠ 0) then s.spoilSlot c.number else s
  let c : Clearing := { c with ended := c.ended || c.secure || idle }
  let s := if idle && c.park && decide (s.parkState = 2) then
      (if c.secure || (decide (s.member = .xsc1) && decide (c.code = 0)) then
        { s with snap := { s.snap with parkDone := true } }
       else s.parkAgain c)
    else s
  s.putClr c

/-- The L1 copy cannot be made: L2 is made instead (R333, R334). -/
def l1Fails (s : State) (c : Clearing) : State :=
  (s.dropStream c).settleClr
    { c with l1 := 3, l2 := if c.l2 = 0 then 1 else c.l2, code := if c.code = 0 then stClrNoPartner else c.code }

/-- The clearings whose copies may run, the earlier ones first. -/
def clrs (s : State) : List Clearing := s.snap.tail ++ s.snap.clr.toList
def copying (s : State) (p : Clearing → Bool) : Option Clearing := s.clrs.find? p

/-- The byte count from which a clearing's L1 stream sends the trail, and how much (R333, R338). -/
def l1Trail (s : State) (c : Clearing) : Nat × Nat :=
  let from' := match s.snap.marks.find? fun m => decide (m.1 + 1 = c.number) with | some m => m.2 | none => s.trailKeep
  (from', if s.trailSize = 0 then 0 else c.trailPos - from')

/-- What the L1 stream of a clearing reads. -/
def touchL1 (s : State) (c : Clearing) : State :=
  let x := s.l1Trail c
  (s.touchVia (s.stripe (s.l0Base c.number)) c.bytes).touchVia (fun i => s.ringAddr (x.1 + i)) x.2

/-- The frames of an L1 stream: the slot, then the trail since the previous clearing (R333). -/
def l1Frames (s : State) (dst : Nat) (c : Clearing) : List Frame :=
  let n := c.bytes
  let base := s.l0Base c.number
  let slot := (List.range ((n + 4095) / 4096)).map fun i =>
    let p := s.readVia (fun k => s.stripe base (4096 * i + k)) (min 4096 (n - 4096 * i))
    s.snapFrame dst c.number (.slotPart c.number (4096 * i) p.masked.bytes p.poison)
  let from' := (s.l1Trail c).1
  let len := (s.l1Trail c).2
  let trail := (List.range ((len + 4095) / 4096)).map fun i =>
    let p := s.readVia (fun k => s.ringAddr (from' + 4096 * i + k)) (min 4096 (len - 4096 * i))
    s.snapFrame dst c.number (.trailPart (from' + 4096 * i) p.masked.bytes)
  let all := slot ++ trail
  match all.getLast? with
  | some f => all.dropLast ++ [{ f with last := true }]
  | none => []

/-- The second barrier has passed: the hold is released and phases 6 and 7 begin (R329, R332 to R334). -/
def captured (s : State) (c : Clearing) : State :=
  let s := if c.park = true ∧ s.parkState = 2 then s.setHold 4 true else s
  let s := (s.setHold 0 false).event .snap 0 SNAP.PAGE_EVT_captured
  let s := s.setReg snapP SNAP.CAPTURE_US_us.off (BitVec.ofNat 32 (s.now - c.began))
  let s := { s with snap := { s.snap with recs := [] } }
  if c.poison ≠ 0 then s.settleClr { c with phase := 6, code := stClrPoison }
  else
    let s := s.setPair snapP SNAP.LAST_CLR_LO_number c.number
    let l2 := if hasLevel c.levels 2 then 1 else 0
    if hasLevel c.levels 1 then
      match s.partner with
      | some p =>
        let c : Clearing := { c with phase := 6, l1 := 1, l2 := l2 }
        (s.l1Frames p c).foldl (fun (s : State) f => s.sendTo f) ((s.touchL1 c).settleClr c)
      | none => s.l1Fails { c with phase := 6, l2 := l2 }
    else s.settleClr { c with phase := 6, l2 := l2 }

/-! ### The barrier (R330) -/

def barrierParent (k : Nat) : Nat := (k - 1) / 16
def barrierKids (g k : Nat) : List Nat := ((List.range 16).map fun i => 16 * k + 1 + i).filter fun i => decide (i < g)

/-- Whether two records differ in one of the four values. -/
def BarrierDiffers (a b : BarrierRec) : Bool :=
  decide (a.number ≠ b.number) || decide (a.step ≠ b.step) || decide (a.gen ≠ b.gen) || decide (a.jobKey ≠ b.jobKey)

/-- What a barrier's success does. -/
def barrierPass (s : State) (c : Clearing) : State :=
  if c.phase = 2 then s.putClr { c with phase := 3, sent := false } else s.captured c

/-- Sends a verdict to the children and takes it. -/
def barrierVerdict (s : State) (c : Clearing) (code : Nat) : State :=
  let s := (barrierKids c.ranks.length c.pos).foldl (fun (s : State) k =>
    s.sendTo (s.snapFrame (c.ranks.getD k 0) c.number (.verdict c.phase c.number code))) s
  if code = 0 then s.barrierPass c else s.failClearing c code

/-- Once every child's record is there, the merged record goes up, or position 0 gives the verdict, which waits until
every previous clearing is secure. On the XSC-1-72, whose clearings never are, the barrier completes locally (13, TRAIL
page). -/
def barrierStep (s : State) : State :=
  match s.snap.clr with
  | none => s
  | some c =>
    if (c.phase ≠ 2 ∧ c.phase ≠ 5) ∨ c.sent = true then s
    else
      let kids := (barrierKids c.ranks.length c.pos).map fun k => c.ranks.getD k 0
      let recs := kids.filterMap fun r => s.snap.recs.find? fun b => decide (b.phase = c.phase) && decide (b.src = r)
      if recs.length < kids.length then s
      else
        let bad := recs.any fun b => b.bad || BarrierDiffers b.r c.mine
        let secure := c.mine.secure && recs.all fun b => b.r.secure
        if c.pos = 0 then
          if bad then s.barrierVerdict c stClrMismatch
          else if secure || decide (s.member = .xsc1) then s.barrierVerdict c 0
          else s
        else
          (s.sendTo (s.snapFrame (c.ranks.getD (barrierParent c.pos) 0) c.number
            (.barrier c.phase bad { c.mine with secure := secure }))).putClr { c with sent := true }

/-- A barrier record arrives. -/
def gotBarrier (s : State) (f : Frame) (phase : Nat) (bad : Bool) (r : BarrierRec) : State :=
  let old := s.snap.recs.filter fun b => !(decide (b.phase = phase) && decide (b.src = f.src))
  let s : State := { s with snap := { s.snap with recs := old ++ [⟨phase, f.src, bad, r⟩] } }
  s.barrierStep

/-- A verdict arrives from the parent. -/
def gotVerdict (s : State) (f : Frame) (phase code : Nat) : State :=
  match s.snap.clr with
  | some c =>
    if c.phase = phase ∧ c.sent = true ∧ 0 < c.pos ∧ c.ranks.getD (barrierParent c.pos) 0x10000 = f.src then
      s.barrierVerdict c code
    else s
  | none => s

/-! ### Phases 1 to 4 -/

/-- What this module enters a barrier with. -/
def barrierRec (s : State) (number : Nat) : BarrierRec :=
  ⟨number, s.fget (pageNum .rng 0) RNG.STEP_value, s.fget 0 MODULE.gen, s.pair collP COLL.JOB_KEY_LO_key,
    decide (s.pair snapP SNAP.SECURE_LO_number = s.pair snapP SNAP.LAST_CLR_LO_number)⟩

/-- The CLEARING that the snapshot unit may start: the earlier one is secure or has failed (R328). -/
def clrNext (s : State) : Option Occ :=
  let free := match s.snap.clr with
    | none => true
    | some c => c.ended || c.secure
  if !free || s.snap.restore.isSome || s.flag snapP SNAP.PAGE_CTRL_quiesce || !s.domainOn .snap 0 || s.fireClosed ||
      !s.memOpen s.capBase then none
  else s.seq.occs.find? fun o => decide (o.unit = .snap) && decide (o.place = .input)

/-- Starts a CLEARING: its space and its ranks are checked, and dispatch is held (R326, R329, R330). -/
def startClearing (s : State) (o : Occ) : State :=
  let group := o.aux.getD 2 0
  let levels := o.aux.getD 1 0
  let park := s.flag snapP SNAP.PAGE_STAT_park && decide (s.parkState = 1)
  let c : Clearing := ⟨o.id, o.aux.getD 0 0, levels, group, s.groupRanks group, s.groupPos group, 1, s.now,
    s.barrierRec (o.aux.getD 0 0), false, 0, 0, 0, 0, 0, s.capBytes, park, false, false⟩
  let s := s.touchCapList
  let s := match s.snap.clr with
    | some d => { s with snap := { s.snap with tail := s.snap.tail ++ [d] } }
    | none => s
  let s := s.setClr (some c)
  if s.spaceOk levels = false then (s.endClearing c stClrSpace).putClr { c with ended := true }
  else if c.ranks.any (fun r => s.snap.lost.contains r) then (s.endClearing c stClrPeerLost).putClr { c with ended := true }
  else
    let s := if park then s.fset 0 MODULE.SVC_STAT_park_state 2 else s
    (((s.setHold 0 true).putOcc { o with place := .running })).putClr c

/-- Whether phase 1 is over: every other dispatched descriptor has completed, and only contexts of VC0 and VC1 are left. -/
def drained (s : State) (c : Clearing) : Bool :=
  (s.seq.occs.all fun o => decide (o.id = c.occ) || decide (o.opcode = 0x30) || decide (o.unit = .snap)) &&
    s.coll.ctxs.all fun x => decide (x.vc ≤ 1)

/-! ### The module record (R331) -/

/-- A tile record. -/
def tileRecord (s : State) (t : Nat) : List Nat :=
  let p := pageNum .rng t
  let eight := List.range 8
  let rng := bytesOf (s.pair p RNG.JOB_KEY_LO_key) 8 ++ bytesOf (s.fget p RNG.STEP_value) 4 ++
    (eight.flatMap fun n => bytesOf (s.draw t n) 8) ++
    (eight.flatMap fun n => bytesOf (s.fget p (RNG.SEQ_CFG_per_step.plus (16 * n))) 4) ++
    (eight.flatMap fun n => bytesOf (s.fget p (RNG.SEQ_BASE_step.plus (16 * n))) 4)
  let sems := (List.range 4096).flatMap fun n => bytesOf (s.sem t n) 4
  let qs := eight.flatMap fun q => bytesOf (s.qTail t q) 4 ++ bytesOf (s.qHead t q % 2 ^ 32) 4 ++ bytesOf (s.qDone t q) 4 ++
    bytesOf (s.qReg t q 0x10) 4
  rng ++ List.replicate (0x1000 - rng.length) 0 ++ sems ++ qs ++ List.replicate (0x8000 - 0x5000 - qs.length) 0

/-- The clearing header with its region table, for a crc field. -/
def clrHeader (s : State) (c : Clearing) (crcs : List Nat) (crc : Nat) : List Nat :=
  let es := s.capEntries
  let head := 0x434C5231 + crc * 2 ^ 32 + c.number * 2 ^ 64 + c.mine.step * 2 ^ 128 + (s.snap.stepImm.getD c.mine.step) * 2 ^ 160 +
    c.mine.jobKey * 2 ^ 192 + c.mine.gen * 2 ^ 256 + c.levels * 2 ^ 264 + s.rank * 2 ^ 272 + s.fget 0 MODULE.FEED_id * 2 ^ 288 +
    c.group * 2 ^ 304 + s.epoch * 2 ^ 320 + c.bytes * 2 ^ 352 + c.trailPos * 2 ^ 416 + es.length * 2 ^ 480 +
    s.pair (pageNum .norm 0) NORM.NORM_MAX_LO_value * 2 ^ 512
  let table := (es.zip crcs).flatMap fun x => bytesOf (x.1.1 + x.1.2 * 2 ^ 48 + x.2 * 2 ^ 96) 16
  bytesOf head 0x200 ++ table ++ List.replicate (0x2000 - 0x200 - table.length) 0

/-- The module record but its header. -/
def recordBody (s : State) : List Nat :=
  let slots := (List.range 4096).flatMap fun i => bytesOf (s.slotOf 0 i).record 80
  let tiles := (List.range (Member.tiles s.member)).flatMap s.tileRecord
  slots ++ tiles ++ List.replicate (0x100000 - 0x2000 - slots.length - tiles.length) 0

/-- The captured regions of the capture list: their pieces in list order. -/
def capPieces (s : State) : List Piece := s.capEntries.map fun e => s.readVia (fun i => e.1 + i) e.2

/-- Stores the captured pieces one after another from offset 0x10_0000 of a slot on (R331). -/
def capStore (s : State) (base : Nat) (ps : List Piece) : State :=
  (ps.foldl (fun (x : State × Nat) p =>
    (x.1.storeVia (fun i => s.stripe base (x.2 + i)) { p with bytes := p.masked.bytes }, x.2 + p.bytes.length))
    (s, 0x100000)).1

/-- The trail record of a clearing, and its flush where the module has flash. -/
def capTrail (s : State) (c : Clearing) (head : List Nat) : State :=
  match s.occ c.occ with
  | some o =>
    let pos := s.trailHead
    let s := s.appendTrail (recordBytes ⟨0x20, some (head.take 64), false, o.step, s.snap.nextRec, o.tile, o.queue, c.number⟩)
    let marks : List (Nat × Nat) := (s.snap.marks.filter fun (m : Nat × Nat) => decide (m.1 ≠ c.number)) ++ [(c.number, pos)]
    let s : State := { s with snap := { s.snap with marks := marks } }
    if s.member = .xsc1 then s else { s with snap := { s.snap with flushTo := some s.trailHead } }
  | none => s

/-- The levels a capture makes (R334): those asked for, and L2 where the clearing parks or has no partner's copy. -/
def capLevels (s : State) (c : Clearing) : Nat :=
  let small := decide (s.member = .xsc1)
  let l : Nat := if c.park && !small then withLevel (withLevel c.levels 1) 2 else c.levels
  if !small && (s.flag snapP SNAP.PAGE_STAT_same_feed || (hasLevel l 1 && s.partner.isNone)) then withLevel l 2 else l

/-- Whether the stacks that a capture reads and writes accept accesses (05 R136). -/
def capOpen (s : State) (c : Clearing) : Bool :=
  s.memOpen s.capBase && s.capEntries.all (fun e => s.memOpen e.1) && s.stripeOpen (s.l0Base c.number) s.capBytes &&
    (decide (s.trailSize = 0) || s.memOpen (s.ringAddr 0))

/-- Phases 3 and 4: the slot is written, the clearing record appended, the flush begun (R331, R337, R338, R340). -/
def capture (s : State) (c : Clearing) : State :=
  let levels := s.capLevels c
  let ps := s.capPieces
  let bytes := s.capBytes
  let s : State := s.capEntries.foldl (fun (s : State) e => s.touchVia (fun i => e.1 + i) e.2) s.touchCapList
  let crcs := ps.map fun p => crc32c p.masked.bytes
  let poison := (ps.map fun p => (p.poison.filter fun b => b).length).foldl (· + ·) 0
  let trailed := decide (s.trailSize ≠ 0)
  let c : Clearing := { c with levels := levels, poison := poison, bytes := bytes, trailPos := if trailed then s.trailHead + 96 else 0 }
  let head := s.clrHeader c crcs (crc32c (s.clrHeader c crcs 0))
  let base := s.l0Base c.number
  let s := (s.storeVia (fun i => s.stripe base i) ⟨head ++ s.recordBody, []⟩).capStore base ps
  let s : State := { s with snap := { s.snap with badSlots := s.snap.badSlots.filter fun k => decide (k ≠ c.number % 2) } }
  let s := if trailed then s.capTrail c head else s
  (s.putClr { c with phase := 5, sent := false }).barrierStep

/-! ### L2 (R334) -/

/-- The places of L2 copies in the L2 partition: three, the pinned one included; the model's choice. -/
def l2Places : List Nat := [0x02000000 * 4096, 0x02000000 * 4096 + 149 * 2 ^ 30, 0x02000000 * 4096 + 298 * 2 ^ 30]

/-- Drops copies beyond the two latest, a pinned one excepted. -/
def keepTwo (cs : List L2Copy) : List L2Copy :=
  let n := cs.length
  (cs.zip (List.range n)).filterMap fun x => if x.1.pinned || decide (n ≤ x.2 + 2) then some x.1 else none

/-- The copies that an L2 write leaves beside its own, and the place it takes; none where pinned copies leave no place. -/
def l2Kept (s : State) : List L2Copy := (keepTwo (s.flash.copies ++ [⟨0, 0, 0, false⟩])).dropLast
def l2Place (s : State) : Option Nat := l2Places.find? fun b => !(s.l2Kept.any fun k => decide (k.base = b))

/-- The L2 copy of a clearing is in flash at a place. A pinned copy stays pinned until it is released (R334). -/
def writeL2 (s : State) (c : Clearing) (place : Nat) : State :=
  let n := c.bytes
  let kept := s.l2Kept
  let p := s.readVia (fun i => s.stripe (s.l0Base c.number) i) n
  let s := (s.touchVia (fun i => s.stripe (s.l0Base c.number) i) n).wearFlash.flashWrite place p
  let pin := hasLevel c.levels 3
  let s : State := { s with flash := { s.flash with copies := kept ++ [⟨c.number, place, n, pin⟩] } }
  let s := s.setReg snapP SNAP.L2_LAST_number.off (BitVec.ofNat 32 c.number)
  if pin then
    ((s.fset (pageNum .flash 0) FLASH.PIN_BLOCK_block (place / 4096)).fset (pageNum .flash 0) FLASH.PIN_COUNT_blocks
      ((n + 4095) / 4096)).event .snap 0 SNAP.PAGE_EVT_l3_ready
  else s

/-- The end of an L2 write: the copy is made, or the write failed, as it does where no place is free. -/
def l2Ends (s : State) (c : Clearing) (ok : Bool) : State :=
  match s.l2Place with
  | some place =>
    if ok then (s.writeL2 c place).settleClr { c with l2 := 2 } else s.settleClr { c with l2 := 3, code := stClrFlash }
  | none => s.settleClr { c with l2 := 3, code := stClrFlash }

/-- L3_CTRL.release (R334). -/
def releasePin (s : State) : State :=
  let cs := s.flash.copies.map fun (k : L2Copy) => { k with pinned := false }
  let s : State := { s with flash := { s.flash with copies := cs } }
  (s.fset (pageNum .flash 0) FLASH.PIN_BLOCK_block 0).fset (pageNum .flash 0) FLASH.PIN_COUNT_blocks 0

/-- SNAP's soft reset: a clearing in progress ends with ABORTED and its slot is invalid (R353). -/
def abortClearing (s : State) : State :=
  (s.clrs.filter fun c => !c.ended).foldl (fun (s : State) c => s.failClearing c stAborted) s

end State

/-- CLEARING (R327, R329). -/
def execClearing (s : State) : Host.Outcome State Fault Refusal :=
  match s.clrNext with
  | some o => .next (s.start.startClearing o)
  | none => .next s.start

/-- CLEARING_HOLD_DRAINED (R329, R330). -/
def execClearingHoldDrained (s : State) : Host.Outcome State Fault Refusal :=
  match s.snap.clr with
  | some c =>
    .next (if c.phase = 1 ∧ s.drained c = true ∧ s.domainOn .snap 0 = true then
        ((s.start.putClr { c with phase := 2, mine := s.barrierRec c.number })).barrierStep
      else s.start)
  | none => .next s.start

/-- CLR_HOLD_TIMEOUT (R329). -/
def execClrHoldTimeout (s : State) : Host.Outcome State Fault Refusal :=
  match s.snap.clr with
  | some c =>
    .next (if c.phase = 1 ∧ c.ended = false ∧ s.drained c = false ∧ s.domainOn .snap 0 = true then
        (s.start.event .snap 0 SNAP.PAGE_EVT_hold_timeout).failClearing c stClrTimeout
      else s.start)
  | none => .next s.start

/-- CAPTURE_DONE (R331). -/
def execCaptureDone (s : State) : Host.Outcome State Fault Refusal :=
  match s.snap.clr with
  | some c => .next (if c.phase = 3 ∧ c.ended = false ∧ s.capOpen c = true ∧ s.domainOn .snap 0 = true then s.start.capture c else s.start)
  | none => .next s.start

/-- L2_WRITE_DONE (R334). -/
def execL2WriteDone (ok : Bool) (s : State) : Host.Outcome State Fault Refusal :=
  match s.copying fun c => decide (c.l2 = 1) with
  | some c => .next (if s.stripeOpen (s.l0Base c.number) c.bytes && s.domainOn .snap 0 then s.start.l2Ends c ok else s.start)
  | none => .next s.start

end Sys2Proof.Machine
end

