-- ==== Sys2Proof/Machine/Lost.lean ====
section
/-!
DEFINITION. Pairing, heartbeats and lost ranks (13 R335, R336, R342 to R345), with the commands HEARTBEAT_SEND and
HEARTBEAT_MISS; PAIR_GO and LOST_CLR are register writes.
-/
namespace Sys2Proof.Machine
namespace State

/-! ### Pairing (R335, R336) -/

def ownFeed (s : State) : Nat := s.fget 0 MODULE.FEED_id

/-- Ends a handshake without a pairing, or clears one. -/
def unpair (s : State) (state err : Nat) : State :=
  ((s.fset snapP SNAP.PAIR_STAT_state state).fset snapP SNAP.PAIR_STAT_err err).fset snapP SNAP.PAGE_STAT_same_feed 0

/-- Drops the pairing record that waits from a rank. -/
def dropPair (s : State) (r : Nat) : State :=
  { s with snap := { s.snap with pairRec := s.snap.pairRec.filter fun x => decide (x.rank ≠ r) } }

/-- The own pairing record, which names the rank of the last go, goes to a rank (R335). -/
def sendPair (s : State) (dst : Nat) : State :=
  s.sendTo (s.snapFrame dst 0 (.pair s.rank s.ownFeed s.aP s.capacity s.snap.pairTo))

/-- Judges the two pairing records of a pending handshake; the peer's record serves this handshake alone. -/
def judgePair (s : State) (r : PairRec) : State :=
  if s.fget snapP SNAP.PAIR_STAT_state ≠ 1 ∨ r.rank ≠ s.snap.pairTo then s
  else
    let s := (s.dropPair r.rank).fset snapP SNAP.PAIR_FEED_peer r.feed
    if r.names ≠ s.rank then s.unpair 3 1
    else if s.aP < r.cap ∨ r.ap < s.capacity then s.unpair 3 2
    else
      let same := decide (r.feed = s.ownFeed) || decide (r.feed = 0) || decide (s.ownFeed = 0)
      let s := (s.fset snapP SNAP.PAIR_STAT_state 2).fset snapP SNAP.PAIR_STAT_err 0
      let was := s.flag snapP SNAP.PAGE_STAT_same_feed
      let s := (s.fset snapP SNAP.PAGE_STAT_same_feed same.toNat).event .snap 0 SNAP.PAGE_EVT_pair_done
      s.eventIf (same && !was) .snap 0 SNAP.PAGE_EVT_pair_same_feed

/-- PAIR.go for the rank just written (R335): the own record goes to it, and to every rank whose record waits, which is
refused by what it names (notes/assumptions/113.md). -/
def pairGo (s : State) : State :=
  let r := s.fget snapP SNAP.PAIR_rank
  let s : State := { s with snap := { s.snap with pairTo := r } }
  if r = s.rank then s.unpair 0 0
  else if s.snap.lost.contains r then s.unpair 3 4
  else if s.coordValid = false ∨ (s.routeOf r 7).isNone then s.unpair 3 3
  else
    let s := (s.fset snapP SNAP.PAIR_STAT_state 1).fset snapP SNAP.PAIR_STAT_err 0
    let others := s.snap.pairRec.filter fun x => decide (x.rank ≠ r)
    let s := others.foldl (fun (s : State) x => (s.dropPair x.rank).sendPair x.rank) (s.sendPair r)
    match s.snap.pairRec.find? fun x => decide (x.rank = r) with
    | some x => s.judgePair x
    | none => s

/-- Whether a go of this module names some other module, pending, paired or refused. -/
def pairNames (s : State) : Bool := decide (s.fget snapP SNAP.PAIR_STAT_state ≠ 0)

/-- A pairing record arrives. One of the rank that the pending go names is judged. One that names this module while its go
names another is answered with the own record; any other that names it waits for the own go. -/
def gotPair (s : State) (r : PairRec) : State :=
  if s.fget snapP SNAP.PAIR_STAT_state = 1 ∧ r.rank = s.snap.pairTo then s.judgePair r
  else if r.names ≠ s.rank then s
  else if s.pairNames = true ∧ r.rank ≠ s.snap.pairTo then s.sendPair r.rank
  else
    let s := s.dropPair r.rank
    { s with snap := { s.snap with pairRec := s.snap.pairRec ++ [r] } }

/-! ### Watched peers (R342) -/

def hbGroup (s : State) : Nat := s.fget snapP SNAP.HB_CFG_group
def hbOn (s : State) : Bool :=
  s.flag snapP SNAP.HB_CFG_en && decide (s.member ≠ .xsc1)

/-- Parent and children in the tree over the heartbeat group. -/
def treeNeighbours (s : State) : List Nat :=
  let g := s.hbGroup
  if s.groupValid g then
    let k := s.groupPos g
    ((if 0 < k then [barrierParent k] else []) ++ barrierKids (s.groupSize g) k).map (s.groupRank g)
  else []

/-- The watched peers. -/
def watched (s : State) : List Nat :=
  let g := s.hbGroup
  let n := s.groupSize g
  let ring := if s.groupValid g then
      [s.groupRank g ((s.groupPos g + n - 1) % n), s.groupRank g ((s.groupPos g + 1) % n)]
    else []
  (dedup (s.partner.toList ++ ring ++ s.treeNeighbours)).filter fun r => decide (r ≠ s.rank)

/-! ### Lost ranks (R343 to R345) -/

def lostFrame (s : State) (dst rank code : Nat) : Frame := s.frame dst 0 9 0 0 0 (.lost rank code)

/-- auto_hold: dispatch is held, work is aborted, and L1 streams of clearings not yet secure are abandoned (R345). -/
def autoHold (s : State) : State :=
  let s := (s.setHold 1 true).abortAll
  (s.clrs.filter fun c => decide (c.l1 = 1) && !c.secure).foldl (fun (s : State) c => s.l1Fails c) s

/-- Opens and SIGNALs that name a lost rank end (10 R265; 06 R155). -/
def dropRank (s : State) (r : Nat) : State :=
  let s := s.endCtxs (fun c => c.ranks.contains r) stPeerLost 0 (fun c => c.ranks.findIdx fun x => decide (x = r))
  let s := { s with coll := { s.coll with pend := s.coll.pend.filter fun p => decide (p.src ≠ r) } }
  (s.sigWaiting.filter fun o => decide (o.f 192 16 = r)).foldl
    (fun (s : State) o => s.completeOcc { o with code := stPeerLost }) s

/-- What the loss of a rank does to pairing and clearings (R330, R333; Clearing and recovery events that meet). -/
def lostInClearing (s : State) (r : Nat) : State :=
  let s := match s.snap.clr with
    | some c => if c.phase < 6 ∧ c.ended = false ∧ c.ranks.contains r = true then s.failClearing c stClrPeerLost else s
    | none => s
  let s := s.dropPair r
  if s.partner = some r then
    let s := s.unpair 0 4
    (s.clrs.filter fun c => decide (c.l1 = 1)).foldl (fun (s : State) c => s.l1Fails c) s
  else if s.snap.pairTo = r ∧ s.fget snapP SNAP.PAIR_STAT_state = 1 then s.unpair 3 4
  else s

/-- Marks a rank lost; `notice` is the sender of the notice that names it (none: its heartbeat) (R343). -/
def markLost (s : State) (r : Nat) (notice : Option Nat) (code : Nat) : State :=
  if s.snap.lost.contains r then s
  else
    let misses := s.snap.misses.filter fun m => decide (m.1 ≠ r)
    let s : State := { s with snap := { s.snap with lost := s.snap.lost ++ [r], misses := misses } }
    let s := (s.setReg snapP SNAP.LOST_CNT_count.off (BitVec.ofNat 32 s.snap.lost.length)).fset snapP SNAP.LOST_LAST_rank r
    let s := ((s.errEvent .snap 0 0xA9 notice.isSome.toNat r).event .snap 0 SNAP.PAGE_EVT_peer_lost).dropRank r
    let them := s.treeNeighbours.filter fun n => decide (n ≠ r) && decide (some n ≠ notice)
    let s := them.foldl (fun (s : State) n => s.sendTo (s.lostFrame n r code)) s
    let s := s.lostInClearing r
    if s.flag snapP SNAP.PAGE_CTRL_auto_hold ∧ s.groupValid s.hbGroup = true ∧ (s.groupRanks s.hbGroup).contains r = true then
      s.autoHold
    else s

/-- A LOST notice names this module (R344). -/
def selfLost (s : State) (by' : Nat) : State :=
  if s.flag snapP SNAP.PAGE_STAT_self_lost then s
  else
    let s := (s.fset snapP SNAP.PAGE_STAT_self_lost 1).event .snap 0 SNAP.PAGE_EVT_self_lost
    let s := (s.errEvent .snap 0 0x95 by' 0).setHold 2 true
    s.endCtxs (fun _ => true) stPeerAbort 0 (fun c => c.ranks.findIdx fun x => decide (x = by'))

/-- A LOST notice. -/
def gotLost (s : State) (f : Frame) (r code : Nat) : State :=
  if r = s.rank then s.selfLost f.src else s.markLost r (some f.src) code

/-- A heartbeat. -/
def gotHeartbeat (s : State) (src : Nat) : State :=
  { s with snap := { s.snap with misses := s.snap.misses.filter fun m => decide (m.1 ≠ src) } }

/-- LOST_CLR.go (R344). -/
def lostClr (s : State) : State :=
  if s.collQuiesced then
    let s : State := { s with snap := { s.snap with lost := [] } }
    s.setReg snapP SNAP.LOST_CNT_count.off 0
  else s.ctrlIgnored .snap 0 SNAP.LOST_CLR_go.off

end State

/-- HEARTBEAT_SEND (R342): the period has passed. -/
def execHeartbeatSend (s : State) : Host.Outcome State Fault Refusal :=
  .next (if s.hbOn && !s.flag State.snapP SNAP.PAGE_STAT_self_lost && decide (s.fget 0 MODULE.FIREBREAK_state = 0) &&
      decide (s.pwrState ≤ 1) then
      s.watched.foldl (fun (s : State) r => s.sendTo (s.frame r 0 9 0 0 0 .heartbeat)) s.start
    else s.start)

/-- HEARTBEAT_MISS (R342): a period has passed without a heartbeat from a watched peer. -/
def execHeartbeatMiss (rank : Nat) (s : State) : Host.Outcome State Fault Refusal :=
  .next (if s.hbOn && s.watched.contains rank && !s.snap.lost.contains rank && !s.net.grace &&
      decide (s.fget 0 MODULE.FIREBREAK_state = 0) && decide (s.pwrState ≤ 1) then
      let n := sparseGet (fun _ => 0) s.snap.misses rank + 1
      let s : State := { s.start with snap := { s.snap with misses := sparsePut (fun _ => 0) rank n s.snap.misses } }
      if s.fget State.snapP SNAP.HB_CFG_miss ≤ n then s.markLost rank none 0 else s
    else s.start)

end Sys2Proof.Machine
end

