-- ==== Sys2Proof/Machine/Restore.lean ====
section
/-!
DEFINITION. Partner copies, the trail mirror, and restores (13 R333, R340, R347 to R349), with the command
RESTORE_COPY_DONE; RESTORE_GO, RESTORE_REALIGN and RESTORE_ACCEPT_GEN are register writes.
-/
namespace Sys2Proof.Machine

/-- A number of `n` bytes at an offset of a byte source. -/
def leAt (b : Nat → Nat) (off n : Nat) : Nat := (List.range n).foldr (fun i x => b (off + i) + 256 * x) 0

/-- The clearing header of a byte source: whether magic and crc are valid (R348). -/
def headerOk (b : Nat → Nat) : Bool :=
  decide (leAt b 0 4 = 0x434C5231) &&
    decide (leAt b 4 4 = crc32c ((List.range 0x2000).map fun i => if 4 ≤ i ∧ i < 8 then 0 else b i))
def hdrNumber (b : Nat → Nat) : Nat := leAt b 8 8
def hdrDataPos (b : Nat → Nat) : Nat := leAt b 20 4
def hdrJobKey (b : Nat → Nat) : Nat := leAt b 24 8
def hdrGen (b : Nat → Nat) : Nat := leAt b 32 1
def hdrRank (b : Nat → Nat) : Nat := leAt b 34 2
def hdrCapBytes (b : Nat → Nat) : Nat := leAt b 44 8
def hdrTrailPos (b : Nat → Nat) : Nat := leAt b 52 8
def hdrRegions (b : Nat → Nat) : Nat := natBits (leAt b 60 2) 0 16
def hdrNormMax (b : Nat → Nat) : Nat := leAt b 64 8
/-- Region table entry: base, length, CRC-32C. -/
def hdrRegion (b : Nat → Nat) (i : Nat) : Nat × Nat × Nat :=
  let e := leAt b (0x200 + 16 * i) 16
  (natBits e 0 48, natBits e 48 40, natBits e 96 32)
def hdrRegionList (b : Nat → Nat) : List (Nat × Nat × Nat) := (List.range (min 256 (hdrRegions b))).map (hdrRegion b)

namespace State

/-! ### The partner's copy (R333, R340) -/

/-- Frames of the snapshot unit are taken from the paired rank only (R333). -/
def fromPartner (s : State) (f : Frame) : Bool := decide (s.partner = some f.src)
def refuseSnap (s : State) (f : Frame) : State := s.sendNak f.src 7 f.coll f.bucket 3

/-- The mirror holds its bytes striped over the stacks, at the start of the partner region. -/
def mirrorAddr (s : State) (p : Nat) : Nat := s.stripe s.partOff (p % (Member.stacks s.member * 2 ^ 25))

def partAddr (s : State) (number i : Nat) : Nat := s.stripe (s.partBase number) i

/-- Whether every region of the copy in a partner slot matches its CRC-32C. -/
def partGood (s : State) (number : Nat) : Bool :=
  let b (i : Nat) : Nat := s.mem.readByte (s.partAddr number i)
  headerOk b && decide (hdrNumber b = number) &&
    ((hdrRegionList b).foldl (fun (x : Bool × Nat) e =>
      (x.1 && decide (crc32c ((List.range e.2.1).map fun i => b (x.2 + i)) = e.2.2), x.2 + e.2.1)) (true, 0x100000)).1

/-- The last frame of an L1 stream has come: the copy, which is read for its checks, is acknowledged when it is whole. -/
def partLast (s : State) (f : Frame) (number : Nat) : State :=
  let good := s.partGood number
  let s := s.touchVia (s.partAddr number) (hdrCapBytes fun i => s.mem.readByte (s.partAddr number i))
  if good then
    let parts := (s.snap.parts.filter fun x => decide (x.1 ≠ number % 2)) ++ [(number % 2, number, f.src)]
    let s : State := { s with snap := { s.snap with parts := parts } }
    (s.setPair snapP SNAP.PARTNER_SECURE_LO_number number).sendTo (s.snapFrame f.src number (.slotAck number))
  else s

/-- Whether the module has a partner region, and so a trail mirror (R326). -/
def hasMirror (s : State) : Bool := decide (s.fget snapP SNAP.PART_CFG_size ≠ 0)

/-- Writes trail bytes into the mirror. -/
def mirror (s : State) (pos : Nat) (bytes : List Nat) : State :=
  let s := s.storeVia (fun i => s.mirrorAddr (pos + i)) ⟨bytes, []⟩
  { s with snap := { s.snap with mirrorTo := pos + bytes.length } }

/-- A piece of the partner's slot. -/
def gotSlotPart (s : State) (f : Frame) (number off : Nat) (p : Piece) : State :=
  if s.fromPartner f = false then s.refuseSnap f
  else if Member.stacks s.member * s.partSize < off + p.bytes.length then s
  else
    let parts := s.snap.parts.filter fun x => decide (x.1 ≠ number % 2)
    let s : State := { s with snap := { s.snap with parts := parts } }
    let s := s.storeVia (fun i => s.partAddr number (off + i)) p
    if f.last then s.partLast f number else s

/-- A piece of the partner's trail that follows its slot; without a partner region it is neither kept nor acknowledged
(notes/assumptions/99.md). -/
def gotTrailPart (s : State) (f : Frame) (pos : Nat) (bytes : List Nat) : State :=
  if s.fromPartner f = false then s.refuseSnap f
  else if s.hasMirror = false then s
  else
    let s := s.mirror pos bytes
    if f.last then
      -- the stream's clearing is the one whose number its frames carry
      let b0 (i : Nat) : Nat := s.mem.readByte (s.partAddr 0 i)
      let b1 (i : Nat) : Nat := s.mem.readByte (s.partAddr 1 i)
      if hdrNumber b0 % 2 ^ 32 = f.coll then s.partLast f (hdrNumber b0)
      else if hdrNumber b1 % 2 ^ 32 = f.coll then s.partLast f (hdrNumber b1)
      else s
    else s

/-- A copy of the partner's trail record (R340); without a partner region it is neither kept nor acknowledged. -/
def gotTrailRec (s : State) (f : Frame) (pos : Nat) (bytes : List Nat) : State :=
  if s.fromPartner f = false then s.refuseSnap f
  else if s.hasMirror = false then s
  else
    (s.mirror pos bytes).sendTo (s.snapFrame f.src 0 (.trailAck (pos + bytes.length)))

/-- The partner has the whole slot (R332, R333). -/
def gotSlotAck (s : State) (f : Frame) (number : Nat) : State :=
  if s.fromPartner f then
    match s.copying fun c => decide (c.l1 = 1) && decide (c.number = number) with
    | some c => (s.mirrored c.trailPos).settleClr { c with l1 := 2 }
    | none => s
  else s

def gotTrailAck (s : State) (f : Frame) (pos : Nat) : State := if s.fromPartner f then s.mirrored pos else s

/-- A restore request: the partner slot of that clearing and rank, then the trail mirror from its clearing record on, is
streamed (R347). A closed firebreak serves none (14 R366). -/
def gotRestoreReq (s : State) (f : Frame) (rank number : Nat) : State :=
  if s.fireClosed then s
  else if s.fromPartner f = false then s.refuseSnap f
  else if s.snap.parts.contains (number % 2, number, rank) then
    let b (i : Nat) : Nat := s.mem.readByte (s.partAddr number i)
    let n := hdrCapBytes b
    let slot := (List.range ((n + 4095) / 4096)).map fun i =>
      let p := s.readVia (fun k => s.partAddr number (4096 * i + k)) (min 4096 (n - 4096 * i))
      s.snapFrame f.src number (.restoreSlot (4096 * i) p.masked.bytes p.poison)
    let start := hdrTrailPos b - 96
    let len := if hdrTrailPos b = 0 then 0 else s.snap.mirrorTo - start
    let trail := (List.range ((len + 4095) / 4096)).map fun i =>
      let p := s.readVia (fun k => s.mirrorAddr (start + 4096 * i + k)) (min 4096 (len - 4096 * i))
      s.snapFrame f.src number (.restoreTrail (start + 4096 * i) p.masked.bytes)
    let all := slot ++ trail
    let s := (s.touchVia (s.partAddr number) n).touchVia (fun k => s.mirrorAddr (start + k)) len
    match all.getLast? with
    | some l => (all.dropLast ++ [{ l with last := true }]).foldl (fun (s : State) x => s.sendTo x) s
    | none => s
  else s.refuseSnap f

/-! ### Restoring (R347) -/

/-- RESTORE_CTRL.go: work in progress ends, queues are disabled and reset, and the copy begins. -/
def restoreGo (s : State) : State :=
  let src := s.fget snapP SNAP.RESTORE_CTRL_src
  if src = 3 ∨ s.fget 0 MODULE.FIREBREAK_state ≠ 0 ∨ s.snap.restore.isSome = true then
    s.ctrlIgnored .snap 0 SNAP.RESTORE_CTRL_go.off
  else
    let number := s.pair snapP SNAP.RESTORE_NUM_LO_number
    let s := ({ s with snap := { s.snap with inbox := [] } } : State).topUpVc 7
    let asRank := s.fget snapP SNAP.RESTORE_CTRL_as_rank
    let s := (s.abortClearing.setHold 3 true).abortAll
    let ended := s.seq.occs.filter fun o => decide (o.place = .done) || decide (o.place = .ended)
    let s := ended.foldl (fun (s : State) o => s.finishOcc o) s
    let s := (List.range (Member.tiles s.member)).foldl (fun (s : State) t => s.dropTile t) s
    let s := (s.fset snapP SNAP.RESTORE_STAT_code 0).fset snapP SNAP.RESTORE_STAT_step 3
    let ask := decide (src = 1) && s.partner.isSome
    let s : State := { s with snap := { s.snap with restore := some ⟨src, number, asRank, [], [], !ask⟩ } }
    let s := match s.partner with
      | some p => if ask then s.sendTo (s.snapFrame p number (.restoreReq asRank number)) else s
      | none => s
    s.showSnap

/-- The restore that takes frames from the partner. -/
def restoring (s : State) (f : Frame) : Option Restore :=
  match s.snap.restore with
  | some r => if r.src = 1 ∧ s.fromPartner f = true ∧ r.arrived = false then some r else none
  | none => none

/-- Writes captured bytes from an offset of the slot's regions to their bases. -/
def storeRegions (s : State) (es : List (Nat × Nat × Nat)) (off : Nat) (p : Piece) : State :=
  let at' (i : Nat) : Option Nat :=
    (es.foldl (fun (x : Option Nat × Nat) e =>
      (match x.1 with
        | some a => some a
        | none => if x.2 ≤ off + i ∧ off + i < x.2 + e.2.1 then some (e.1 + (off + i - x.2)) else none, x.2 + e.2.1))
      (none, 0x100000)).1
  let ws := (p.bytes.zip (List.range p.bytes.length)).filterMap fun x =>
    match at' x.2 with
    | some a => some (⟨a, x.1, p.poison.getD (x.2 / 8) false⟩ : WByte)
    | none => none
  s.store (ws.filter fun w => isMem s.member w.addr)

/-- A piece of the partner's copy: the module record is kept, regions go to their bases. -/
def gotRestoreSlot (s : State) (f : Frame) (off : Nat) (p : Piece) : State :=
  match s.restoring f with
  | none => s.refuseSnap f
  | some r =>
    if off < 0x100000 then
      let hdr := (p.bytes.zip (List.range p.bytes.length)).foldl (fun m x => sparsePut (fun _ => 0) (off + x.2) x.1 m) r.hdr
      let bad := r.bad ++ ((List.range p.poison.length).filter fun w => p.poison.getD w false).map fun w => off / 8 + w
      { s with snap := { s.snap with restore := some { r with hdr := hdr, bad := bad, arrived := f.last } } }
    else
      let es := hdrRegionList (fun i => sparseGet (fun _ => 0) r.hdr i)
      let s := s.storeRegions es off p
      { s with snap := { s.snap with restore := some { r with arrived := f.last } } }

/-- A piece of the trail mirror goes into the own ring. -/
def gotRestoreTrail (s : State) (f : Frame) (pos : Nat) (bytes : List Nat) : State :=
  match s.restoring f with
  | none => s.refuseSnap f
  | some r =>
    let s := if s.trailSize = 0 then s
      else (s.storeVia (fun i => s.ringAddr (pos + i)) ⟨bytes, []⟩).setPair trailP TRAIL.HEAD_LO_bytes (pos + bytes.length)
    { s with snap := { s.snap with restore := some { r with arrived := f.last } } }

/-! ### Frames that wait for a quiesced stack (05 R136) -/

/-- Whether the stacks that a frame of a partner's stream writes accept accesses. -/
def snapOpen (s : State) (f : Frame) : Bool :=
  match f.pay with
  | .slotPart number off b _ => s.viaOpen (fun i => s.partAddr number (off + i)) b.length
  | .trailPart pos b | .trailRec pos b => s.viaOpen (fun i => s.mirrorAddr (pos + i)) b.length
  | .restoreSlot _ b _ => b.isEmpty || (List.range (Member.stacks s.member)).all fun k => s.memOpen (stackBase k)
  | .restoreTrail pos b => s.viaOpen (fun i => s.ringAddr (pos + i)) b.length
  | _ => true

/-- A frame of a partner's stream is taken. -/
def takeSnap (s : State) (f : Frame) : State :=
  match f.pay with
  | .slotPart number off b p => s.gotSlotPart f number off ⟨b, p⟩
  | .trailPart pos b => s.gotTrailPart f pos b
  | .trailRec pos b => s.gotTrailRec f pos b
  | .restoreSlot off b p => s.gotRestoreSlot f off ⟨b, p⟩
  | .restoreTrail pos b => s.gotRestoreTrail f pos b
  | _ => s

/-- Takes what waits, oldest first, as far as its stacks accept it. -/
def drainSnap (s : State) : List Frame → State
  | [] => { s with snap := { s.snap with inbox := [] } }
  | f :: r => if s.snapOpen f then (s.takeSnap f).drainSnap r else { s with snap := { s.snap with inbox := f :: r } }

/-- A frame of a partner's stream arrives: it is taken behind those that wait. -/
def gotSnap (s : State) (f : Frame) : State := s.drainSnap (s.snap.inbox ++ [f])

/-- A NAK on the snapshot unit's identity ends what it refuses: an L1 stream, or a restore request (R333). -/
def gotSnapNak (s : State) (f : Frame) : State :=
  match s.snap.restore with
  | some r => if r.src = 1 then { s with snap := { s.snap with restore := some { r with arrived := true } } } else s
  | none =>
    match s.copying fun c => decide (c.l1 = 1) && decide (c.number % 2 ^ 32 = f.coll) with
    | some c => s.l1Fails c
    | none => s

/-! ### Restore checks (R348, R349) -/

/-- Signed difference a − b of `w`-bit values, saturated to 24 bits. -/
def satDiff (w a b : Nat) : Nat :=
  let d := signedOf w ((a + 2 ^ w - b % 2 ^ w) % 2 ^ w)
  codeOf 24 (max (-0x800000) (min 0x7FFFFF d))

/-- DRAW[n] as the data position P implies it. -/
def drawAt (s : State) (t n P : Nat) : Nat :=
  let p := pageNum .rng t
  codeOf 64 (((P : Int) - (s.fget p (RNG.SEQ_BASE_step.plus (16 * n)) : Nat)) * (s.fget p (RNG.SEQ_CFG_per_step.plus (16 * n)) : Nat))

/-- The first tile and counter that check 5 finds wrong: (tile, counter, whether STEP differs, the difference). -/
def skewOf (s : State) (P : Nat) : Option (Nat × Nat × Bool × Nat) :=
  ((List.range (Member.tiles s.member)).flatMap fun t =>
    let p := pageNum .rng t
    let step := s.fget p RNG.STEP_value
    (if step ≠ P then [(t, 0, true, satDiff 32 step P)] else []) ++
      (List.range 8).filterMap fun n =>
        if s.fget p (RNG.SEQ_CFG_per_step.plus (16 * n)) ≠ 0 ∧ s.draw t n ≠ s.drawAt t n P then
          some (t, n, false, satDiff 64 (s.draw t n) (s.drawAt t n P))
        else none).head?

/-- Ends a restore with a failing check: the hold is kept. -/
def restoreFails (s : State) (code : Nat) : State :=
  let s := (s.fset snapP SNAP.RESTORE_STAT_code code).fset snapP SNAP.RESTORE_STAT_step 0
  let s := s.event .snap 0 (if code = 0x50 then SNAP.PAGE_EVT_restore_skew else SNAP.PAGE_EVT_restore_err)
  let s : State := { s with snap := { s.snap with restore := none } }
  s.showSnap

/-- The records that stand in the ring from a byte count to HEAD. -/
def recordsFrom (s : State) : Nat → Nat → Nat
  | 0, _ => 0
  | n + 1, pos =>
    let words := natBits (leAt (fun i => s.mem.readByte (s.ringAddr (pos + i))) 0 4) 16 10
    if s.trailHead ≤ pos ∨ words < 4 then 0 else 1 + s.recordsFrom n (pos + 8 * words)

/-- The imm of the last STEP record among those (R331). -/
def lastStepFrom (s : State) : Nat → Nat → Option Nat → Option Nat
  | 0, _, x => x
  | n + 1, pos, x =>
    let b (i : Nat) : Nat := s.mem.readByte (s.ringAddr (pos + i))
    let words := natBits (leAt b 0 4) 16 10
    if s.trailHead ≤ pos ∨ words < 4 then x
    else s.lastStepFrom n (pos + 8 * words) (if b 0 = 1 then some (leAt b 24 4) else x)

/-- Ends a restore that passed: the hold is released, LAST_CLR and SECURE take the number, and a RESTORE record is
appended (R347). `restored` holds P, the number, the header's trail byte count and the source. A trail that came from the
partner holds the latest STEP record, where it has one; the own trail keeps the one it had (R331). -/
def restoreOk (s : State) (code : Nat) : State :=
  let x := s.snap.restored
  let s := (s.fset snapP SNAP.RESTORE_STAT_code code).fset snapP SNAP.RESTORE_STAT_step 0
  let s := (((s.setHold 0 false).setHold 1 false).setHold 2 false).setHold 3 false
  let s := (s.setPair snapP SNAP.LAST_CLR_LO_number x.2.1).setPair snapP SNAP.SECURE_LO_number x.2.1
  let s := (s.fset snapP SNAP.PAGE_STAT_self_lost 0).event .snap 0 SNAP.PAGE_EVT_restore_done
  let s : State := { s with
    snap := { s.snap with restore := none }, coll := { s.coll with ended := [] } }
  let trailed := decide (s.trailSize ≠ 0)
  let s := if trailed && decide (x.2.2.1 ≠ 0) then
      let pos := x.2.2.1 - 96
      let marks := (s.snap.marks.filter fun (m : Nat × Nat) => decide (m.1 ≠ x.2.1)) ++ [(x.2.1, pos)]
      let s : State := { s with snap := { s.snap with marks := marks } }
      let s := s.setPair trailP TRAIL.KEEP_LO_bytes pos
      if x.2.2.2 = 1 then
        let first := leAt (fun i => s.mem.readByte (s.ringAddr (pos + i))) 8 8
        let own := decide (s.fget snapP SNAP.RESTORE_CTRL_as_rank = s.rank)
        let s : State := { s with snap := { s.snap with
          nextRec := first + s.recordsFrom (s.trailSize / 32) pos,
          stepImm := s.lastStepFrom (s.trailSize / 32) pos (if own then s.snap.stepImm else none) } }
        s.setPair trailP TRAIL.REPLAY_POS_LO_bytes pos
      else s
    else s
  let s := if trailed then
      s.appendTrail (recordBytes ⟨0x21, some (bytesOf code 4 ++ bytesOf x.1 4), false, x.1, s.snap.nextRec, 0, 0, x.2.1⟩)
    else s
  s.showSnap

/-- Check 5, and what follows it (R349). -/
def checkSkew (s : State) (P : Nat) : State :=
  match s.skewOf P with
  | some k =>
    let s := (((s.fset snapP SNAP.SKEW_tile k.1).fset snapP SNAP.SKEW_counter k.2.1).fset snapP SNAP.SKEW_step
      k.2.2.1.toNat).fset snapP SNAP.SKEW_diff k.2.2.2
    s.restoreFails 0x50
  | none => s.restoreOk 0

/-- Steps 4 and 5: each tile's RNG state and semaphores, the slot state, NORM_MAX and JOB_KEY (R347). -/
def restoreState (s : State) (b : Nat → Nat) : State :=
  let tiles := List.range (Member.tiles s.member)
  let s := tiles.foldl (fun (s : State) t =>
    let o := 0x52000 + 0x8000 * t
    let p := pageNum .rng t
    let s := (s.setPair p RNG.JOB_KEY_LO_key (leAt b o 8)).fset p RNG.STEP_value (leAt b (o + 8) 4)
    let s := (List.range 8).foldl (fun (s : State) n =>
      ((s.setDraw t n (leAt b (o + 12 + 8 * n) 8)).fset p (RNG.SEQ_CFG_per_step.plus (16 * n)) (leAt b (o + 76 + 4 * n) 4)).fset p
        (RNG.SEQ_BASE_step.plus (16 * n)) (leAt b (o + 108 + 4 * n) 4)) s
    (List.range 4096).foldl (fun (s : State) n => s.setSem t n (leAt b (o + 0x1000 + 4 * n) 4)) s) s
  let s := (List.range 4096).foldl (fun (s : State) i => s.onTiles i fun _ => Slot.ofRecord (leAt b (0x2000 + 80 * i) 80)) s
  let s := (s.setPair (pageNum .norm 0) NORM.NORM_MAX_LO_value (hdrNormMax b)).setPair collP COLL.JOB_KEY_LO_key (hdrJobKey b)
  { s with scale := { s.scale with watch := [] } }

/-- The copy's bytes and poisoned words by offset, for the sources that the module reads itself. -/
def restoreSource (s : State) (r : Restore) : Option ((Nat → Nat) × (Nat → Bool)) :=
  if r.src = 0 then
    let a (i : Nat) : Nat := s.stripe (s.l0Base r.number) i
    if s.l0Size = 0 ∨ s.snap.badSlots.contains (r.number % 2) = true then none
    else some (fun i => s.mem.readByte (a i), fun i => s.mem.poisoned (a i))
  else if r.src = 1 then
    some (fun i => sparseGet (fun _ => 0) r.hdr i, fun i => r.bad.contains (i / 8))
  else
    match s.flash.copies.find? fun c => decide (c.number = r.number) with
    | some c => some (fun i => s.flashByte (c.base + i), fun i => s.flash.bad.contains ((c.base + i) / 8))
    | none => none

/-- Whether a region holds its captured bytes. -/
def regionOk (s : State) (e : Nat × Nat × Nat) : Bool :=
  decide (crc32c ((List.range e.2.1).map fun i => s.mem.readByte (e.1 + i)) = e.2.2)

/-- What steps 3 to 6 read of memory: the L0 slot, for source 0, and the regions restored (05 R115, R116). -/
def touchRestore (s : State) (r : Restore) (b : Nat → Nat) : State :=
  if r.src = 0 then s.touchVia (s.stripe (s.l0Base r.number)) (hdrCapBytes b) else s
def touchRegions (s : State) (es : List (Nat × Nat × Nat)) : State :=
  (es.filter fun e => memRange s.member e.1 e.2.1).foldl (fun (s : State) e => s.touchVia (fun i => e.1 + i) e.2.1) s

/-- Steps 3 to 6 of a restore whose copy has ended (R347, R348). -/
def restoreDone (s : State) (r : Restore) : State :=
  match s.restoreSource r with
  | none => s.restoreFails 0x52
  | some (b, bad) =>
    if headerOk b = false ∨ hdrNumber b ≠ r.number then s.restoreFails 0x52
    else
      let es := hdrRegionList b
      let n := hdrCapBytes b - 0x100000
      let s := if r.src = 1 then s
        else (s.touchRestore r b).storeRegions es 0x100000 ⟨(List.range n).map fun i => b (0x100000 + i), (List.range (n / 8)).map fun w => bad (0x100000 + 8 * w)⟩
      let s := s.restoreState b
      let P := hdrDataPos b
      let s := s.setReg snapP SNAP.DATA_POS_step.off (BitVec.ofNat 32 P)
      let s : State := { s with snap := { s.snap with restored := (P, r.number, hdrTrailPos b, r.src) } }
      let poisoned := (List.range 0x20000).any (fun w => bad (8 * w)) ||
        es.any fun e => (List.range (e.2.1 / 8)).any fun w => s.mem.poisoned (e.1 + 8 * w)
      let crcOk := es.all s.regionOk
      let s := s.touchRegions es
      if poisoned then s.restoreFails 0x55
      else if !crcOk then s.restoreFails 0x53
      else if hdrRank b ≠ (if r.src = 1 then r.asRank else s.rank) then s.restoreFails 0x54
      else if hdrGen b ≠ s.fget 0 MODULE.gen then s.restoreFails 0x51
      else s.checkSkew P

/-- RESTORE_CTRL.realign (R349): STEP takes P, and every configured counter of every tile takes its value. -/
def restoreRealign (s : State) : State :=
  if s.fget snapP SNAP.RESTORE_STAT_code ≠ 0x50 ∨ s.snap.restore.isSome = true then
    s.ctrlIgnored .snap 0 SNAP.RESTORE_CTRL_realign.off
  else
    let P := s.fget snapP SNAP.DATA_POS_step
    let s := (List.range (Member.tiles s.member)).foldl (fun (s : State) t =>
      let p := pageNum .rng t
      let s := s.fset p RNG.STEP_value P
      let s := (List.range 8).foldl (fun (s : State) n =>
        if s.fget p (RNG.SEQ_CFG_per_step.plus (16 * n)) ≠ 0 then s.setDraw t n (s.drawExpected t n) else s) s
      s.event .rng t RNG.PAGE_EVT_realign_done) s
    s.checkSkew P

/-- RESTORE_CTRL.accept_gen (R348). -/
def restoreAccept (s : State) : State :=
  if s.fget snapP SNAP.RESTORE_STAT_code ≠ 0x51 ∨ s.snap.restore.isSome = true then
    s.ctrlIgnored .snap 0 SNAP.RESTORE_CTRL_accept_gen.off
  else s.restoreOk 0x51

end State

/-- RESTORE_COPY_DONE (R348). -/
def execRestoreCopyDone (s : State) : Host.Outcome State Fault Refusal :=
  match s.snap.restore with
  | some r => .next (if r.arrived ∧ s.fireClosed = false ∧ s.snap.inbox.isEmpty = true ∧ s.domainOn .snap 0 = true ∧
        (List.range (Member.stacks s.member)).all (fun k => s.memOpen (stackBase k)) = true then
      s.start.restoreDone r
    else s.start)
  | none => .next s.start

end Sys2Proof.Machine
end

