-- ==== Sys2Proof/Machine/Fatal.lean ====
section
/-!
DEFINITION. The firebreak (14 R363 to R366), and the error FIFO's readers (R361, R362), with the commands
FIREBREAK_NOTICE_DONE, HUB_CTRL_UC, UNIT_STATE and RANGER_WDT.
-/
namespace Sys2Proof.Machine
namespace State

/-- What steps 1 and 2 do to the clearings: one not yet captured ends ABORTED; a captured one ends ABORTED with its flash
write, and its L1 stream runs until step 5 (R364, R369). -/
def fireClearing (s : State) (c : Clearing) : State :=
  if c.phase < 6 then (if c.ended then s else s.failClearing c stAborted)
  else
    let s := if c.ended then s else s.endClearing c stAborted
    s.putClr { c with ended := true, l2 := if c.l2 = 1 then 3 else c.l2 }

/-- Steps 1 and 2 of the firebreak: dispatch stops, and all work in progress ends, remote SIGNALs that wait for their
acknowledgement included (R364). -/
def fireStop (s : State) : State :=
  let s := (s.fset 0 MODULE.FIREBREAK_state 1).fset 0 MODULE.ERR_SUM_fatal 1
  let s := (s.endCtxs (fun _ => true) stFenced 0 (fun _ => 0)).abortAll
  let s := s.sigWaiting.foldl (fun (s : State) o => s.putOcc { o with place := .done, code := stAborted }) s
  let s := s.clrs.foldl (fun (s : State) c => s.fireClearing c) s
  let s := if s.snap.restore.isSome then
      (s.fset snapP SNAP.RESTORE_STAT_code stAborted).fset snapP SNAP.RESTORE_STAT_step 0
    else s
  let s : State := { s with snap := { s.snap with restore := none, flushTo := none, inbox := [] }, net := { s.net with stage := 0, next := none } }
  (s.fset planP PLAN.PAGE_STAT_loading 0).showSnap

/-- The notices of step 3: to the peer of each valid port of VC0, and while heartbeats are on to each watched peer (R364). -/
def fireNotices (s : State) (code : Nat) : State :=
  if s.member = .xsc1 then s
  else
    let ports := (List.range 255).filter fun p => match s.portEntry p with | some e => vcIn e.mask 0 | none => false
    let s := ports.foldl (fun (s : State) p => s.enqueue p (s.lostFrame ((s.portPeer p).getD 0) s.rank code)) s
    if s.hbOn then s.watched.foldl (fun (s : State) r => s.sendTo (s.lostFrame r s.rank code)) s else s

/-- The notice of a park goes to each tree neighbour (17 R436 step 5, 13 R343). -/
def parkNotices (s : State) : State :=
  s.treeNeighbours.foldl (fun (s : State) r => s.sendTo (s.lostFrame r s.rank 0)) s

/-- A FATAL event: logged like any event; the first closes the firebreak (R363, R364). -/
def fatal (s : State) (ty : PageType) (i code detail : Nat) : State :=
  let s := s.errEvent ty i code detail 0
  let s := if s.fget 0 MODULE.FATAL_REC_code = 0 then
      (((s.fset 0 MODULE.FATAL_REC_code code).fset 0 MODULE.FATAL_REC_page (pageNum ty i)).fset 0 MODULE.FATAL_DETAIL_word
        detail).fset 0 MODULE.FATAL_TIME_us s.now
    else s
  if s.fget 0 MODULE.FIREBREAK_state = 0 then s.fireStop.fireNotices code else s

/-- Steps 4 and 5: every carrying channel sends one training record of epoch 0, and the module is fenced: L1 streams stop
(R364, R369). -/
def fence (s : State) : State :=
  let s := (s.clrs.filter fun c => decide (c.l1 = 1)).foldl
    (fun (s : State) c => (s.dropStream c).putClr { c with l1 := 3 }) s
  let carrying := allChans.filter fun c => s.txCarry c.1 c.2
  let s := carrying.foldl (fun (s : State) c => s.sendTraining c.1 c.2 0) s
  s.fset 0 MODULE.FIREBREAK_state 2

/-! ### The FIFO's readers (R361, R362) -/

/-- The four words of an entry. -/
def entryWord (e : ErrEntry) (i : Nat) : Nat :=
  natBits (e.code + e.cls * 2 ^ 8 + e.page * 2 ^ 12 + e.count * 2 ^ 24 + e.detail * 2 ^ 32 + e.time % 2 ^ 48 * 2 ^ 64 +
    e.rank * 2 ^ 112) (32 * i) 32

def latchOf (s : State) (p : Port) : Option ErrEntry := if p = .pcie then s.err.hostLatch else s.err.rangerLatch
def setLatch (s : State) (p : Port) (e : Option ErrEntry) : State :=
  if p = .pcie then { s with err := { s.err with hostLatch := e } } else { s with err := { s.err with rangerLatch := e } }

/-- A read of ERR_ENTRY0 latches the oldest entry for the reading side. -/
def latchEntry (s : State) (p : Port) : State :=
  match s.err.fifo with
  | e :: _ => s.setLatch p (some e)
  | [] => s

/-- ERR_POP.pop removes the entry that the side has latched, while it is still in the FIFO. -/
def popEntry (s : State) (p : Port) : State :=
  match s.latchOf p with
  | some e =>
    let s : State := { s with err := { s.err with fifo := s.err.fifo.filter fun x => decide (x.id ≠ e.id) } }
    s.setLatch p none
  | none => s

/-- ERR_ACK.ack (R361). -/
def ackErrors (s : State) : State :=
  let s := (s.fset 0 MODULE.ERR_SUM_pend 0).fset 0 MODULE.ERR_SUM_sev 0
  if s.fget 0 MODULE.FIREBREAK_state = 0 then { s with err := { s.err with alert := false } } else s

/-- The page that a unit code of a status record names on a tile; 12 stands for the trail unit, which shares code 11 with
the snapshot unit (R355; DESIGN CHOICE, notes/assumptions/113.md). -/
def unitPage (t code : Nat) : PageType × Nat :=
  if code = 0 then (.tseq, t) else if code ≤ 4 then (.te, 4 * t + (code - 1)) else if code = 5 then (.te, 4 * t)
  else if code = 6 then (.ve, t) else if code = 7 then (.dma, t) else if code = 8 then (.rng, t)
  else if code = 9 then (.scale, t) else if code = 10 then (.coll, 0)
  else if code = 11 then (.snap, 0) else (.trail, 0)

end State

/-- FIREBREAK_NOTICE_DONE (R364): the notices are acknowledged, or 10 µs have passed. On the XSC-1-72 steps 3 to 5 do
nothing (R366). -/
def execFirebreakNoticeDone (s : State) : Host.Outcome State Fault Refusal :=
  .next (if s.fget 0 MODULE.FIREBREAK_state = 1 ∧ s.member ≠ .xsc1 then s.start.fence else s.start)

/-- HUB_CTRL_UC (14, Error events): `place` is 0 for the crossbar, 1 for the collective engine, 2 + l for link l. -/
def execHubCtrlUc (place structure' : Nat) (s : State) : Host.Outcome State Fault Refusal :=
  .next (if place = 0 then s.start.fatal .module 0 0xC0 structure'
    else if place = 1 then s.start.fatal .coll 0 0xC0 structure'
    else if Member.link s.member (place - 2) then s.start.fatal .link (place - 2) 0xC0 structure'
    else s.start)

/-- UNIT_STATE (14, Error events). -/
def execUnitState (tile unit : Nat) (s : State) : Host.Outcome State Fault Refusal :=
  .next (if tile < Member.tiles s.member ∧ unit ≤ 12 then
      let p := State.unitPage tile unit
      s.start.fatal p.1 p.2 0xC1 (min unit 11)
    else s.start)

/-- RANGER_WDT (14, Error events; 16 R429): the expiry is counted and shown on the RANGER page. -/
def execRangerWdt (s : State) : Host.Outcome State Fault Refusal :=
  .next (((s.start.count (pageNum .ranger 0) RANGER.WDT_CNT_count).event .ranger 0 RANGER.PAGE_EVT_wdt).fatal .ranger 0
    0xC6 0)

end Sys2Proof.Machine
end

