-- ==== Sys2Proof/Machine/Scrub.lean ====
section
/-!
DEFINITION. Patrol scrub, the correction queues and the stack temperature (05 R117, R121 to R136), with the commands
CORRQ_REWRITE, SCRUB_ACCESS, SCRUB_LATE and STACK_TEMP_READ, and what writes to the SPAD, STK and SCRUB pages do.
-/
namespace Sys2Proof.Machine

namespace State

def scrubP (t : Nat) : Nat := pageNum .scrub t
def spadP (t : Nat) : Nat := pageNum .spad t
def stkP (k : Nat) : Nat := pageNum .stk k

/-- A tile's memories under scrub: the understory in lines of 2 KiB, the stack in units of 256 bytes. -/
def scrubKey (t : Nat) (stack : Bool) : Nat := 2 * t + stack.toNat
def scrubUnits (stack : Bool) : Nat := if stack then 301989888 else 1048576
def scrubStep (stack : Bool) : Nat := if stack then 256 else 2048
def scrubBase (t : Nat) (stack : Bool) : Nat := if stack then stackBase t else understoryBase t
def scrubPosFd (stack : Bool) : Fd := if stack then SCRUB.SCRUB_S_POS_unit else SCRUB.SCRUB_U_POS_line
def scrubHours (s : State) (t : Nat) (stack : Bool) : Nat :=
  s.fget (scrubP t) (if stack then SCRUB.SCRUB_S_INTERVAL_hours else SCRUB.SCRUB_U_INTERVAL_hours)

/-- The interval the pass in progress began with; a pass that is off begins when the register asks for one. -/
def scrubInForce (s : State) (t : Nat) (stack : Bool) : Nat :=
  let n := sparseGet (fun k => if k % 2 = 0 then 8 else 4) s.mem.scrubInt (scrubKey t stack)
  if n = 0 then s.scrubHours t stack else n

/-- A pass begins at the interval its register holds. -/
def scrubBegin (s : State) (t : Nat) (stack : Bool) : State :=
  let k := scrubKey t stack
  { s with mem := { s.mem with
      scrubInt := sparsePut (fun k => if k % 2 = 0 then 8 else 4) k (s.scrubHours t stack) s.mem.scrubInt,
      scrubLate := s.mem.scrubLate.filter fun x => decide (x ≠ k) } }

/-- The words of a memory of a tile, by address. -/
def inScrub (s : State) (t : Nat) (stack : Bool) (wa : Nat) : Bool :=
  match region s.member wa with
  | .understory u _ => !stack && decide (u = t)
  | .stack k _ => stack && decide (k = t)
  | _ => false

/-- Whether a tile's scrub unit runs, and the memory it would reach: the module is in RUN or IDLE, and no tripped sensor
gates either part (R121; 15 R387). -/
def scrubOn (s : State) (t : Nat) (stack : Bool) : Bool :=
  decide (t < Member.tiles s.member) && !s.flag (scrubP t) SCRUB.PAGE_CTRL_quiesce && decide (s.pwrState ≤ 1) &&
    !s.trippedOff .scrub t && !(stack && s.trippedOff .stkphy t) && s.memOpen (scrubBase t stack)

/-- Whether the scrub unit of a tile may take a patrol access now: it runs and is enabled, and no rewrite of a queued
word, which goes ahead of the patrol, waits in that memory (R115, R121, R135). -/
def scrubRuns (s : State) (t : Nat) (stack : Bool) : Bool :=
  s.scrubOn t stack && s.flag (scrubP t) SCRUB.PAGE_CTRL_enable && decide (s.scrubInForce t stack ≠ 0) &&
    !s.mem.corrq.any fun e => !e.stale && s.inScrub t stack e.addr

/-- Rewrites a correctable word with its corrected bits, counted as a write of its memory. -/
def fixWord (s : State) (wa : Nat) : State :=
  let m : MemSt := { s.mem with corrq := markStale wa s.mem.corrq }
  let s : State := { s with mem := (s.mem.ecc wa).fixes.foldl (fun (m : MemSt) pos => m.flip wa pos) m }
  s.stackBytes STK.STK_WR_BYTES_LO_count wa 8

/-- Marks a word that two consecutive passes corrected singly (R131). -/
def twiceFixed (s : State) (wa : Nat) : State :=
  let s := if s.mem.scrubPrev.contains wa then s.candidate wa else s
  { s with mem := { s.mem with scrubCur := s.mem.scrubCur ++ [wa] } }

/-- Scrub reads one word, and writes back a corrected one. The read enters it in the correction queue as any read does
(R115), and the write-back overtakes that entry (DEDUCED, notes/assumptions/102.md). -/
def scrubWord (s : State) (t wa : Nat) : State :=
  match s.mem.ecc wa with
  | .ok => s.touchWord wa
  | .uc =>
    ((s.touchWord wa).count (scrubP t) SCRUB.SCRUB_UC_CNT_count).event .scrub t SCRUB.PAGE_EVT_found_uc
  | .single _ => (((s.touchWord wa).twiceFixed wa).count (scrubP t) SCRUB.SCRUB_CE_CNT_count).fixWord wa
  | .double _ _ => ((s.touchWord wa).count (scrubP t) SCRUB.SCRUB_CE_CNT_count).fixWord wa

/-- A pass ends (R121, R135). SCRUB_LAST holds at its largest value (DESIGN CHOICE, notes/assumptions/102.md). -/
def scrubPassDone (s : State) (t : Nat) (stack : Bool) (minutes : Nat) : State :=
  let mine (wa : Nat) : Bool := s.inScrub t stack wa
  let m : MemSt := { s.mem with
    scrubPrev := (s.mem.scrubPrev.filter fun wa => !mine wa) ++ s.mem.scrubCur.filter mine,
    scrubCur := s.mem.scrubCur.filter fun wa => !mine wa }
  let s : State := { s with mem := m }
  let s := s.fset (scrubP t) (scrubPosFd stack) 0
  let s := s.count (scrubP t) (if stack then SCRUB.SCRUB_S_PASS_CNT_count else SCRUB.SCRUB_U_PASS_CNT_count)
  let s := s.fset (scrubP t) (if stack then SCRUB.SCRUB_LAST_s_min else SCRUB.SCRUB_LAST_u_min) (min minutes 65535)
  (s.event .scrub t (if stack then SCRUB.PAGE_EVT_s_pass_done else SCRUB.PAGE_EVT_u_pass_done)).scrubBegin t stack

/-- One paced access of a pass: the next line or unit. -/
def scrubAccess (s : State) (t : Nat) (stack : Bool) (minutes : Nat) : State :=
  let pos := s.fget (scrubP t) (scrubPosFd stack)
  let a := scrubBase t stack + scrubStep stack * pos
  let s := if sparseGet (fun k => if k % 2 = 0 then 8 else 4) s.mem.scrubInt (scrubKey t stack) = 0 then
      s.scrubBegin t stack
    else s
  let s := (wordsOf a (scrubStep stack)).foldl (fun (s : State) wa => s.scrubWord t wa)
    (s.stackBytes STK.STK_RD_BYTES_LO_count a (scrubStep stack))
  if pos + 1 < scrubUnits stack then s.fset (scrubP t) (scrubPosFd stack) (pos + 1) else s.scrubPassDone t stack minutes

/-! ### Writes to the pages (R134 to R136) -/

/-- SPAD soft_reset: the page's counters and the tile's correction queues. -/
def resetSpad (s : State) (t : Nat) : State :=
  let p := spadP t
  let regs := [SPAD.SPAD_CE1_CNT_count, SPAD.SPAD_CE2_CNT_count, SPAD.SPAD_UC_CNT_count, SPAD.SPAD_POISON_RD_CNT_count,
    SPAD.SPAD_CORRQ_drops]
  let s := regs.foldl (fun (s : State) f => s.fset p f 0) s
  let s := (s.setPair p SPAD.SPAD_CLASS_CNT_LO_count 0).setPair p SPAD.SPAD_CYCLE_CNT_LO_count 0
  { s with mem := { s.mem with corrq := s.mem.corrq.filter fun e => !s.inScrub t false e.addr } }

/-- STK soft_reset: the page's counters and the stack's correction queue. -/
def resetStk (s : State) (k : Nat) : State :=
  let p := stkP k
  let regs := [STK.STK_CE1_CNT_count, STK.STK_CE2_CNT_count, STK.STK_UC_CNT_count, STK.STK_POISON_RD_CNT_count,
    STK.STK_CORRQ_drops]
  let s := regs.foldl (fun (s : State) f => s.fset p f 0) s
  let s := (s.setPair p STK.STK_RD_BYTES_LO_count 0).setPair p STK.STK_WR_BYTES_LO_count 0
  { s with mem := { s.mem with corrq := s.mem.corrq.filter fun e => !s.inScrub k true e.addr } }

/-- A write of SPAD_CLASS_SEL selects the counted class and clears both counter pairs. -/
def selectClass (s : State) (t cls : Nat) : State :=
  ((s.fset (spadP t) SPAD.SPAD_CLASS_SEL_cls cls).setPair (spadP t) SPAD.SPAD_CLASS_CNT_LO_count 0).setPair (spadP t)
    SPAD.SPAD_CYCLE_CNT_LO_count 0

/-- SCRUB soft_reset: both passes begin again at position 0. -/
def resetScrub (s : State) (t : Nat) : State :=
  let s := (s.fset (scrubP t) SCRUB.SCRUB_U_POS_line 0).fset (scrubP t) SCRUB.SCRUB_S_POS_unit 0
  let mine (wa : Nat) : Bool := s.inScrub t false wa || s.inScrub t true wa
  let s : State := { s with mem := { s.mem with scrubCur := s.mem.scrubCur.filter fun wa => !mine wa } }
  (s.scrubBegin t false).scrubBegin t true

end State

/-- The two's complement reading of a temperature byte, moved up by 128 so that order is that of the numbers. -/
def tempOrder (b : Nat) : Nat := (b + 128) % 256
def tempByte (temp : Int) : Nat := (temp % 256).toNat

/-! ### The commands -/

/-- CORRQ_REWRITE (R115, R117): the oldest entry of one correction queue, named by a word of its memory, is rewritten
unless the word has been written since. It counts neither as a word corrected by scrub nor as an uncorrectable word found
by it (DESIGN CHOICE, notes/assumptions/102.md). -/
def execCorrqRewrite (addr : Nat) (s : State) : Host.Outcome State Fault Refusal :=
  let s := s.start
  let own := corrOwner s.member addr
  let tile := match region s.member addr with | .understory t _ => t | .stack k _ => k | _ => 8
  match s.mem.corrq.find? fun e => decide (corrOwner s.member e.addr = own) with
  | none => .next s
  | some e =>
    let stack := match region s.member addr with | .stack .. => true | _ => false
    if s.scrubOn tile stack = false then .next s
    else
      let s : State := { s with mem := { s.mem with corrq := s.mem.corrq.erase e } }
      if e.stale then .next s
      else
        match s.mem.ecc (wordOf e.addr) with
        | .uc => .next (s.touchWord (wordOf e.addr))
        | _ => .next (s.fixWord (wordOf e.addr))

/-- SCRUB_ACCESS (R121, R122, R131): `upsets` are stored bits that flipped before it, `minutes` the time its pass has
taken. -/
def execScrubAccess (tile : Nat) (stack : Bool) (minutes : Nat) (upsets : List (Nat × Nat)) (s : State) :
    Host.Outcome State Fault Refusal :=
  .next (if s.scrubRuns tile stack then (s.start.upset upsets).scrubAccess tile stack minutes else s.start)

/-- SCRUB_LATE (R123): the pass has not finished at 110 % of its interval. -/
def execScrubLate (tile : Nat) (stack : Bool) (s : State) : Host.Outcome State Fault Refusal :=
  let k := State.scrubKey tile stack
  .next (if tile < Member.tiles s.member ∧ s.scrubInForce tile stack ≠ 0 ∧ s.mem.scrubLate.contains k = false ∧
      s.domainOn .scrub tile = true then
      let s := s.start
      let s : State := { s with mem := { s.mem with scrubLate := s.mem.scrubLate ++ [k] } }
      (s.errEvent .scrub tile 0x84 stack.toNat 0).event .scrub tile
        (if stack then SCRUB.PAGE_EVT_s_late else SCRUB.PAGE_EVT_u_late)
    else s.start)

/-- STACK_TEMP_READ (R128): the hottest die; above 85 °C the refresh rate doubles. -/
def execStackTempRead (stack : Nat) (temp : Int) (s : State) : Host.Outcome State Fault Refusal :=
  .next (if stack < Member.stacks s.member ∧ s.domainOn .stk stack = true then
      let s := s.start
      let p := State.stkP stack
      let b := tempByte temp
      let was := s.flag p STK.PAGE_STAT_hot
      let s := s.fset p STK.STK_TEMP_now b
      let s := if tempOrder (s.fget p STK.STK_TEMP_max) < tempOrder b then s.fset p STK.STK_TEMP_max b else s
      if 85 < temp then
        let s := s.fset p STK.PAGE_STAT_hot 1
        if was then s else s.event .stk stack STK.PAGE_EVT_hot
      else s.fset p STK.PAGE_STAT_hot 0
    else s.start)

end Sys2Proof.Machine
end

