-- ==== Sys2Proof/Machine/Power.lean ====
section
/-!
DEFINITION. Power states: what DEEP keeps, the module reset, entries and exits, wake sources and the wake record
(15 R371 to R380; 16 R402), with the commands POWER_TRANSITION_DONE, POWER_QUIESCE_TIMEOUT, AUTO_IDLE, WAKE_PIN,
ALARM_EXPIRE, WAKE_STEP_TIMEOUT, BCLK_FALLBACK, RESET_PIN, INPUT_POWER_LOST and INPUT_POWER_APPLIED.
-/
namespace Sys2Proof.Machine

/-! ### The retained set (R377) -/

/-- The registers DEEP keeps, by first and last offset on their page; PWR.PAGE_STAT is the power controller's own. -/
def PageType.retained : PageType → List (Nat × Nat)
  | .module => [(0x00C, 0x00C), (0x040, 0x044), (0x048, 0x048), (0x080, 0x080), (0x088, 0x08C), (0x0A4, 0x0AC), (0x0D4, 0x0D4)]
  | .pwr => [(0x00C, 0x00C), (0x040, 0x058), (0x080, 0x088), (0x090, 0x094)]
  | .clk => [(0x00C, 0x00C), (0x040, 0x040), (0x060, 0x060)]
  | .ranger => [(0x068, 0x068), (0x078, 0x078)]
  | .tseq => [(0x040, 0x048), (0x100, 0x110), (0x118, 0x120)]
  | .rng => [(0x040, 0x048), (0x080, 0x08C)]
  | .coll => [(0x040, 0x048), (0x054, 0x064)]
  | .snap => [(0x040, 0x054), (0x060, 0x078), (0x08C, 0x08C)]
  | .trail => [(0x040, 0x060)]
  | .plan => [(0x040, 0x048)]
  | .norm => [(0x040, 0x044)]
  | .spad => [(0x040, 0x040)]
  | .stk => [(0x040, 0x040)]
  | .scrub => [(0x040, 0x044), (0x04C, 0x04C)]
  | _ => []

/-- The registers whose values do not stand in the retained set and yet outlast DEEP: MODULE.FIREBREAK, since only a module
reset opens the firebreak (14 R366), which combs have failed, since only a start-up self-test passes one again, their lasing
hours (11 R272, R299), and what flash says of itself. -/
def PageType.kept : PageType → List (Nat × Nat)
  | .module => [(0x0B0, 0x0B0)]
  | .pe => [(0x044, 0x04C)]
  | .flash => [(0x05C, 0x068)]
  | _ => []

/-- Whether a key names a register of a list of ranges of its page type. -/
def keyIn (rs : PageType → List (Nat × Nat)) (key : Nat) : Bool :=
  match pageMap (key / 4096) with
  | some (ty, _) => (rs ty).any fun r => decide (r.1 ≤ ty.canon (key % 4096)) && decide (ty.canon (key % 4096) ≤ r.2)
  | none => false

/-- Whether the retained set holds a stored register. -/
def keepsKey (key : Nat) : Bool := keyIn PageType.retained key

namespace State

/-- All of the module but what DEEP keeps: the retained registers, the stacks, flash, fuses, the error FIFO, what the trail
and the held slots in the stacks say (R130, R377), which combs have failed (11 R272) and what the calibration store holds,
which the ranger reloads from flash (11 R296). The main PLL is off (R372). A stack's scrub pass goes on at the interval its
register then holds, and with no memory of the words that it and the pass before it corrected singly (05 R131; DESIGN
CHOICE, notes/assumptions/102.md). -/
def strip (s : State) : State :=
  let inStacks (a : Nat) : Bool := decide (0x10000000000 ≤ a)
  let mem : MemSt := { MemSt.reset with
    cells := s.mem.cells.filter fun c => inStacks c.1, chk := s.mem.chk.filter fun c => inStacks c.1,
    lineCand := s.mem.lineCand, rowCand := s.mem.rowCand, lineFix := s.mem.lineFix, rowFix := s.mem.rowFix }
  let tiles := List.range (Member.tiles s.member)
  let queues := tiles.flatMap fun t => (List.range 8).filterMap fun q =>
    if s.qHead t q = 0 then none else some (8 * t + q, (⟨[], s.qHead t q, [], none, false⟩ : QueueSt))
  let snap : SnapSt := { SnapSt.reset with
    nextRec := s.snap.nextRec, marks := s.snap.marks, badSlots := s.snap.badSlots, parts := s.snap.parts,
    acked := s.snap.acked, mirrorTo := s.snap.mirrorTo, stepImm := s.snap.stepImm }
  let host : HostSt := { HostSt.reset with
    imageA := s.host.imageA, imageB := s.host.imageB, chals := s.host.chals, strap := s.host.strap, card := s.host.card }
  let pwr : PwrSt := { PwrSt.reset with
    src := s.pwr.src, left := s.pwr.left, began := s.pwr.began, pendSrc := s.pwr.pendSrc, energy := s.pwr.energy,
    fast := s.pwr.fast, powered := s.pwr.powered }
  let optics : OptSt := { OptSt.reset with cals := s.optics.cals }
  let s : State := { s with
    rf := ⟨s.rf.cells.filter fun c => keepsKey c.1 || keyIn PageType.kept c.1, [], []⟩, mem := mem,
    seq := { SeqSt.reset with queues := queues, nextId := s.seq.nextId }, te := [], scale := .reset, coll := .reset,
    net := .reset, optics := optics, snap := snap, pwr := pwr, host := host, svc := { SvcSt.reset with plain := s.svc.plain },
    woken := [],
    err := { s.err with hostLatch := none, rangerLatch := none } }
  let s := tiles.foldl (fun (s : State) t => (List.range 8).foldl (fun (s : State) q =>
    (s.fset (tseqP t) (qfd TSEQ.Q_CTRL_enable q) 0).setQReg t q 0x1C 0) s) s
  let s := s.engines.foldl (fun (s : State) p =>
    s.fset (peP p) PE.SHUTTER_plug (s.fget 0 ⟨MODULE.SVC_STAT_plug.off, MODULE.SVC_STAT_plug.lo + p, 1⟩)) s
  let s := (s.fset snapP SNAP.HB_CFG_en 0).fset 0 MODULE.PAGE_STAT_ready 0
  let s := s.fset (pageNum .clk 0) CLK.PAGE_STAT_pll_lock 0
  let s := (s.fset 0 MODULE.PAGE_STAT_census_busy 0).fset (pageNum .clk 0) CLK.PAGE_STAT_div_pend 0
  tiles.foldl (fun (s : State) t => (s.scrubBegin t false).scrubBegin t true) s

/-- The number by which a list of lost words names an entry of the error FIFO, counted from the oldest: beyond every
register's key. -/
def errWord : Nat := 0x1000000

/-- The error FIFO without the entries whose words were found uncorrectable (R377). -/
def loseErrors (s : State) (lost : List Nat) : State :=
  let kept := (List.range s.err.fifo.length).filter fun i => !lost.contains (errWord + i)
  { s with err := { s.err with fifo := kept.filterMap fun i => s.err.fifo[i]? } }

/-- Whether a list of lost words names a word of the retained set. -/
def losesAny (s : State) (lost : List Nat) : Bool :=
  lost.any fun k => keepsKey k || (decide (errWord ≤ k) && decide (k - errWord < s.err.fifo.length))

/-- A retained word found uncorrectable returns its registers to reset (R377). -/
def loseReg (s : State) (key : Nat) : State :=
  if keepsKey key then
    let s := s.setReg (key / 4096) (key % 4096) (resetOf s.member key)
    match pageMap (key / 4096) with
    | some (.tseq, t) =>
      if 0x100 ≤ key % 4096 ∧ (key % 4096 - 0x100) % 0x40 = 0x1C then
        s.setQueue t ((key % 4096 - 0x100) / 0x40) ⟨[], 0, [], none, false⟩
      else s
    | _ => s
  else s

/-! ### Module reset (16 R402) -/

/-- Every activity ends and every register is cleared; flash, fuses, the pins, what is counted since manufacture, the
repairs and candidates that the boot record holds (05 R131), and BCLK's fallback unless the module is in OFF (15 R380)
stay. The start-up begins at stage 0x01 with this wake source. -/
def moduleReset (s : State) (src : Nat) : State :=
  let host : HostSt := { HostSt.reset with
    imageA := s.host.imageA, imageB := s.host.imageB, chals := s.host.chals, strap := s.host.strap, card := s.host.card }
  let mem : MemSt := { MemSt.reset with
    lineCand := s.mem.lineCand, rowCand := s.mem.rowCand, lineFix := s.mem.lineFix, rowFix := s.mem.rowFix }
  let pwr : PwrSt := { PwrSt.reset with src := src, left := s.pwrState, fast := s.pwr.fast, powered := true }
  let optics : OptSt := { OptSt.reset with cals := s.optics.cals }
  let r : State := { State.reset with
    optics := optics, pending := s.pending, free := s.free, out := s.out, fuses := s.fuses, mem := mem, flash := s.flash, host := host, pwr := pwr }
  let keep (r : State) (p : Nat) (f : Fd) : State := r.fset p f (s.fget p f)
  let r := [ MODULE.BOOT_STAT_starts, MODULE.SVC_STAT_latch, MODULE.SVC_STAT_button, MODULE.SVC_STAT_plug].foldl
    (fun (r : State) f => keep r 0 f) r
  let r := if s.pwrState = 4 then r else keep r (pageNum .clk 0) CLK.PAGE_STAT_bclk_fallback
  let r := [RANGER.FW_SLOT_active, RANGER.WDT_CNT_count].foldl (fun (r : State) f => keep r (pageNum .ranger 0) f) r
  let r := [FLASH.PIN_BLOCK_block, FLASH.PIN_COUNT_blocks, FLASH.BOOT_REC_block, FLASH.WEAR_percent].foldl
    (fun (r : State) f => keep r (pageNum .flash 0) f) r
  r.engines.foldl (fun (r : State) p => [PE.COMB_A_HOURS_hours, PE.COMB_B_HOURS_hours, PE.SHUTTER_plug].foldl
    (fun (r : State) f => keep r (peP p) f) r) r

/-! ### Firmware and units coming into service (16 R412, R413; 15 R376) -/

def bootP : Nat := 0
def rangerP : Nat := pageNum .ranger 0
def imageOf (s : State) (slot : Nat) : List Nat := if slot = 0 then s.host.imageA else s.host.imageB

/-- The checks of R413 on an image; 0 when it verifies, else the number of the first check that fails. -/
def imageFault (s : State) (img : List Nat) : Nat :=
  let bytes := img.map fun b => BitVec.ofNat 8 b
  if Config.firmwareKeyHash bytes ≠ s.fuses.fwHash then 1
  else if Config.firmwareSigned bytes = false then 2
  else if Config.firmwareSvn bytes < s.fuses.svn then 3
  else if Config.firmwareMember bytes ≠ Member.code s.member then 4
  else 0

/-- Which slots verify, against the fuse security version as it stands (R413, R415). -/
def judgeSlots (s : State) : State :=
  let ok (slot : Nat) : Nat := bif decide (s.imageFault (s.imageOf slot) = 0) then 1 else 0
  (s.fset rangerP RANGER.FW_SLOT_a_ok (ok 0)).fset rangerP RANGER.FW_SLOT_b_ok (ok 1)

/-- The trailhead takes the active slot, else the other; with neither it stays in recovery (R413, R414). The first start of
an image may raise the fuse security version, and older images are refused from then on (R415). -/
def pickFirmware (s : State) : State :=
  let act := s.fget rangerP RANGER.FW_SLOT_active
  let ok (slot : Nat) : Bool := decide (s.imageFault (s.imageOf slot) = 0)
  let run (s : State) (slot : Nat) (fell : Nat) : State :=
    let bytes := (s.imageOf slot).map fun b => BitVec.ofNat 8 b
    let s := (s.fset rangerP RANGER.FW_SLOT_running slot).fset 0 MODULE.BOOT_STAT_slot slot
    let s := (s.fset 0 MODULE.BOOT_STAT_fallback fell).setReg 0 0x050 (BitVec.ofNat 32 (Config.firmwareVersion bytes))
    let fuses : Fuses := { s.fuses with svn := min 64 (max s.fuses.svn (Config.firmwareSvn bytes)) }
    { s with fuses := fuses, host := { s.host with recovery := false } }
  if ok act then (run s act 0).judgeSlots
  else if ok (1 - act) then (run s (1 - act) 1).judgeSlots
  else
    let s := ((s.fset 0 MODULE.BOOT_STAT_fail 1).fset 0 MODULE.BOOT_STAT_stage 3).judgeSlots
    { s with host := { s.host with recovery := true } }

/-- The reference is chosen: REFCLK within 300 ppm, else the on-module reference; the main PLL locks (R391). -/
def chooseRef (s : State) (ref : Option Int) : State :=
  let p := pageNum .clk 0
  let good := match ref with | some x => decide (-3000 ≤ x) && decide (x ≤ 3000) | none => false
  let s := (s.fset p CLK.PAGE_STAT_refclk (if ref.isSome then 1 else 0)).fset p CLK.PAGE_STAT_src (if good then 0 else 1)
  let s := match ref with | some x => s.fset p CLK.REF_PPM_offset (x % 65536).toNat | none => s
  let s := (s.fset p CLK.PAGE_STAT_pll_lock 1).addWrap p CLK.LOCK_CNT_count 1
  if good then s else s.event .clk 0 CLK.PAGE_EVT_ref_internal

/-- A stack's interface has trained for a time: its margins are those of this training (18 R464). -/
def noteTraining (s : State) (k us : Nat) : State :=
  let s := s.fset (pageNum .stkphy k) STKPHY.PHY_TRAIN_TIME_us us
  { s.useFree with host := { s.host with phyMark := sparsePut (fun _ => 0) k (s.free + 1) s.host.phyMark } }

/-- Every understory, and at a start-up every stack, is written with zeros and valid check bits (05 R129, R130). -/
def zeroFill (s : State) (stk : Bool) : State :=
  let keep (a : Nat) : Bool := !stk && decide (0x10000000000 ≤ a)
  { s with mem := { s.mem with
      cells := s.mem.cells.filter fun c => keep c.1, chk := s.mem.chk.filter fun c => keep c.1,
      corrq := s.mem.corrq.map fun e => if keep e.addr then e else { e with stale := true } } }

/-- Memories and their interfaces come into service (05 R129, R130; 18 R465). -/
def memService (s : State) (stk : Bool) : State :=
  let s := s.zeroFill stk
  let s := (List.range (Member.tiles s.member)).foldl (fun (s : State) t => s.fset (spadP t) SPAD.PAGE_STAT_init_done 1) s
  (List.range (Member.stacks s.member)).foldl (fun (s : State) k =>
    let s := (s.fset (stkP k) STK.PAGE_STAT_trained 1).fset (stkP k) STK.PAGE_STAT_init_done 1
    let s := (s.fset (stkP k) STK.PAGE_STAT_self_refresh 0).fset (pageNum .stkphy k) STKPHY.PAGE_STAT_trained 1
    let s := s.noteTraining k s.freeVal
    s.event .stkphy k STKPHY.PAGE_EVT_trained) s

/-- The start-up self-test of the combs: those of the list are unhealthy, every other is healthy (11 R272). -/
def testCombs (s : State) (bad : List (Nat × Nat)) : State :=
  s.engines.foldl (fun (s : State) p =>
    (s.setCombOk p 0 (if bad.contains (p, 0) then 0 else 1)).setCombOk p 1 (if bad.contains (p, 1) then 0 else 1)) s

/-- The combs lase and the rings take up their targets (11 R296), on the comb selected, or on the other where that one is
unhealthy. -/
def opticsService (s : State) : State :=
  s.engines.foldl (fun (s : State) p =>
    let sel := s.fget (peP p) PE.COMB_CTRL_select
    let sel := if s.combOk p sel then sel else 1 - sel
    let s := s.fset (peP p) PE.PAGE_STAT_comb_sel sel
    if s.combOk p sel then ((s.fset (peP p) PE.PAGE_STAT_lit 1).serveEngine p).releaseEngine p else s) s

/-- The host link trains: at which of the rates and widths the spec does not say; flit mode is the mode at 64 GT/s
(16 R403, R430). -/
def trainPcie (s : State) : State :=
  let speed := s.freeVal % 6 + 1
  let s := (s.fset pcieP PCIE.LINK_STAT_speed speed).useFree
  let s := (s.fset pcieP PCIE.LINK_STAT_width (2 ^ (s.freeVal % 5))).useFree
  let s := if speed = 6 then s.fset pcieP PCIE.LINK_STAT_flit 1 else (s.fset pcieP PCIE.LINK_STAT_flit s.freeVal).useFree
  s.event .pcie 0 PCIE.PAGE_EVT_link_up

/-! ### Entries and exits (R371 to R376) -/

/-- Whether the conditions of R374 hold. -/
def mayRest (s : State) : Bool :=
  ((List.range (Member.tiles s.member)).all fun t => (List.range 8).all fun q => !s.qEnabled t q || s.qIdle t q) &&
    s.coll.ctxs.isEmpty && s.snap.clr.isNone && s.snap.tail.isEmpty && s.snap.restore.isNone && decide (s.net.stage = 0) &&
    !s.flag snapP SNAP.HB_CFG_en

/-- The controller quiesces the stacks and puts them in self-refresh; combs go to bias and rings to HOLD (R372). -/
def enterSleep (s : State) : State :=
  let stks := (List.range (Member.stacks s.member)).map stkP
  let saved := stks.map fun p => (p, s.fget p STK.PAGE_CTRL_quiesce)
  let s : State := { s with pwr := { s.pwr with saved := s.pwr.saved ++ saved } }
  let s := stks.foldl (fun (s : State) p => (s.fset p STK.PAGE_CTRL_quiesce 1).fset p STK.PAGE_STAT_self_refresh 1) s
  s.engines.foldl (fun (s : State) p => (s.holdEngine p).fset (peP p) PE.PAGE_STAT_lit 0) s

/-- Combs at bias lase again and their rings leave HOLD for ACQUIRE (R376; 11 R296; 17 R438). -/
def lightEngines (s : State) : State :=
  s.engines.foldl (fun (s : State) p =>
    if s.combOk p (s.combSel p) then (s.fset (peP p) PE.PAGE_STAT_lit 1).releaseEngine p else s) s

/-- Whether the module is parked, and its combs stay at bias (17 R436, R438). -/
def parked (s : State) : Bool := decide (s.fget 0 MODULE.SVC_STAT_park_state = 3)

def exitSleep (s : State) : State :=
  let stks := (List.range (Member.stacks s.member)).map stkP
  let s := stks.foldl (fun (s : State) p => s.fset p STK.PAGE_STAT_self_refresh 0) s
  if s.parked then s else s.lightEngines

/-- Steps 1 to 5 of the exit from DEEP: rails, reference, firmware, memories, the retained set (R376, R377). With no firmware
that verifies it ends at step 3 (16 R413, R414). -/
def exitDark (s : State) (lost : List Nat) (ref : Option Int) : State :=
  let s : State := { s with pwr := { s.pwr with pwrOk := true }, svc := { s.svc with exit := 1 } }
  let s := (s.chooseRef ref).pickFirmware
  if s.host.recovery then s
  else
    let bad := s.losesAny lost
    let s := (lost.foldl (fun (s : State) k => s.loseReg k) s).loseErrors lost
    (s.fset pwrP PWR.WAKE_REC0_retain_err (if bad then 1 else 0)).memService false

/-- Step 6: the combs lase, and the rings go to their targets; those of a parked module stay at bias (17 R436). -/
def exitLit (s : State) : State :=
  let s : State := { s with svc := { s.svc with exit := 2 } }
  (if s.parked then s.engines.foldl (fun (s : State) p => s.holdEngine p) s else s.opticsService).fset 0
    MODULE.BOOT_STAT_optics 1

/-- The exit from DEEP, from where the latch held it (R376; 17 R440). In recovery it goes no further than step 3, and the
host link trains (16 R414; notes/assumptions/114.md). -/
def exitDeep (s : State) (lost : List Nat) (ref : Option Int) : State :=
  let s := if s.svc.exit = 0 then s.exitDark lost ref else s
  let s :=
    if s.host.recovery then s.trainPcie
    else
      let s := (if s.svc.exit = 1 then s.exitLit else s).trainPcie
      let s := (s.fset 0 MODULE.BOOT_STAT_stage 10).fset 0 MODULE.PAGE_STAT_ready 1
      s.event .module 0 MODULE.PAGE_EVT_ready
  { s with svc := { s.svc with exit := 0 } }

/-- The module loses everything but flash, fuses and pins (OFF). -/
def enterOff (s : State) (powered : Bool) : State :=
  let r := s.moduleReset 0
  let r : State := { r with now := s.now, pwr := { r.pwr with powered := powered } }
  (r.fset pwrP PWR.PAGE_STAT_state 4).fset 0 MODULE.PAGE_STAT_ready 0

/-- The wake record (R378). Basecamp's seconds are those of the model's clock. -/
def writeWake (s : State) (reached attempts : Nat) (fail : Bool) (elem stage : Nat) : State :=
  let set (s : State) (f : Fd) (v : Nat) : State := s.fset pwrP f v
  let s := set (set (set s PWR.WAKE_REC0_source s.pwr.src) PWR.WAKE_REC0_from s.pwr.left) PWR.WAKE_REC0_reached reached
  let s := set (set s PWR.WAKE_REC0_attempts attempts) PWR.WAKE_REC0_fail (if fail then 1 else 0)
  let s := set (set s PWR.WAKE_REC0_fail_elem elem) PWR.WAKE_REC0_fail_stage stage
  let s := set s PWR.WAKE_REC0_bclk_fb (s.fget (pageNum .clk 0) CLK.PAGE_STAT_bclk_fallback)
  set (set s PWR.WAKE_REC1_seconds (s.pwr.began / 1000000)) PWR.WAKE_REC2_us10 ((s.now - s.pwr.began) / 10)

/-- A tile's power with no work, in hundredths of a watt, to which a ramp down goes (R384). -/
def idleTile : Nat := 9500

/-- Whether the running transition leaves SLEEP or DEEP, and whether it may complete now: SLEEP, DEEP and OFF are entered
only under the conditions of R374, from SLEEP too, and a lower state only once every tile has ramped down (R375). -/
def waking (s : State) : Bool := s.pwrMoving && decide (2 ≤ s.pwrState) && decide (s.pwrTarget < s.pwrState)
def mayArrive (s : State) : Bool :=
  s.pwrMoving && (decide (s.pwrTarget < 2) || s.mayRest) &&
    (if s.pwrTarget < s.pwrState then decide (s.pwrState ≠ 3) || s.flag 0 MODULE.SVC_STAT_latch
     else (List.range (Member.tiles s.member)).all fun t => decide (sparseGet (fun _ => 0) s.pwr.est t ≤ idleTile))

/-- Starts a wake or another transition, noting when. -/
def beginMove (s : State) (target src : Nat) : State :=
  let s := s.startMove target src
  { s with pwr := { s.pwr with began := s.now, attempts := 0 } }

/-- Starts the pending request once a transition has ended (R373). -/
def startPending (s : State) : State :=
  if s.flag pwrP PWR.PAGE_STAT_pend_valid then
    let t := s.fget pwrP PWR.PAGE_STAT_pending
    let s := (s.fset pwrP PWR.PAGE_STAT_pend_valid 0).fset pwrP PWR.PAGE_STAT_pending 0
    if s.pwrState = 4 then (if s.pwr.pendSrc = 2 then s.moduleReset 2 else s)
    else if t = s.pwrState then s
    else s.beginMove t s.pwr.pendSrc
  else s

/-- Judges the cap against the present draw (R382). -/
def judgeCap (s : State) : State :=
  if s.pwrState ≤ 1 ∧ s.fget pwrP PWR.CAP_watts < s.fget pwrP PWR.POWER_NOW_watts then
    let s := (s.fset pwrP PWR.PAGE_STAT_cap_over 1).fset pwrP PWR.CAP_OVER_US_us 0
    (s.errEvent .pwr 0 0x8C (s.fget pwrP PWR.CAP_watts) 0).event .pwr 0 PWR.PAGE_EVT_cap_over
  else s.fset pwrP PWR.PAGE_STAT_cap_over 0

/-- A census that runs when SLEEP or DEEP is entered ends with code 3, and writes nothing (16 R425). -/
def dropCensus (s : State) : State :=
  let s : State := { s with host := { s.host with census := none } }
  (s.fset 0 MODULE.PAGE_STAT_census_busy 0).fset 0 MODULE.CENSUS_STAT_code 3

/-- A transition completes. -/
def reach (s : State) (lost : List Nat) (ref : Option Int) : State :=
  let l := s.pwrState
  let t := s.pwrTarget
  let wake := s.waking
  let tries := s.pwr.attempts + 1
  let s := if wake then (if l = 2 then s.exitSleep else s.exitDeep lost ref) else s
  let census := s.host.census.isSome
  let s := if t = 2 then s.enterSleep else if t = 3 then s.strip else s
  let s := if census && decide (2 ≤ t) then s.dropCensus else s
  if t = 4 then
    let p := s.fget pwrP PWR.PAGE_STAT_pend_valid
    let src := s.pwr.pendSrc
    let r := s.enterOff true
    let r : State := { r with pwr := { r.pwr with pendSrc := src } }
    ((r.fset pwrP PWR.PAGE_STAT_pend_valid p).event .pwr 0 PWR.PAGE_EVT_state_done).startPending
  else
    let s := (s.fset pwrP PWR.PAGE_STAT_state t).fset pwrP PWR.PAGE_STAT_moving 0
    let s := if wake then s.writeWake t tries false 0 0 else s
    let s := if t ≤ 1 then s.restoreQuiesce.judgeCap else s
    let s : State := { s with pwr := { s.pwr with attempts := 0, pwrOk := s.pwr.pwrOk && decide (t ≤ 2) } }
    (s.event .pwr 0 PWR.PAGE_EVT_state_done).startPending

/-- A request that notes when it was made, for the wake record (R373, R378). -/
def request (s : State) (target src : Nat) : State :=
  let moving := s.pwrMoving
  let s := s.pwrRequest target src
  if !moving && s.pwrMoving then { s with pwr := { s.pwr with began := s.now, attempts := 0 } } else s

/-- Whether a wake source acts: the module is in SLEEP or DEEP, or on its way there (R378, R398). -/
def canWake (s : State) : Bool :=
  decide (s.pwrState = 2) || decide (s.pwrState = 3) || (s.pwrMoving && (decide (s.pwrTarget = 2) || decide (s.pwrTarget = 3)))

/-- A write of PWR_REQ: the source is the port's; in SLEEP, and in DEEP, only an enabled source wakes (R373, R378). -/
def powerReq (s : State) (port : Port) (v : Nat) : State :=
  if 4 < v then s.ctrlIgnored .pwr 0 PWR.PWR_REQ_state.off
  else
    let s := s.fset pwrP PWR.PWR_REQ_state v
    let src := if port = .pcie then 3 else 4
    let en := if port = .pcie then s.flag pwrP PWR.WAKE_EN_pcie && decide (s.pwrState ≠ 3) else s.flag pwrP PWR.WAKE_EN_mgmt
    if s.pwrState ≤ 1 ∨ (s.pwrState ≤ 3 ∧ (s.pwrState ≤ v ∨ en = true)) then s.request v src else s

end State

/-! ### The commands -/

/-- POWER_TRANSITION_DONE (R373): `lost` are the retained registers whose words were found uncorrectable on an exit from
DEEP (registers by key, entries of the error FIFO from 0x1000000 on), `ref` the offset of REFCLK from the on-module reference in 0.1 ppm, none when REFCLK is absent (R391).
An exit from DEEP that finds the latch open runs its first five steps and waits (17 R440). -/
def execPowerTransitionDone (lost : List Nat) (ref : Option Int) (s : State) : Host.Outcome State Fault Refusal :=
  .next (if s.mayArrive then s.start.reach lost ref
    else if s.waking && decide (s.pwrState = 3) then
      let s := if s.svc.exit = 0 then s.start.exitDark lost ref else s.start
      { s with svc := { s.svc with waits := true } }
    else s.start)

/-- POWER_QUIESCE_TIMEOUT (R374). -/
def execPowerQuiesceTimeout (s : State) : Host.Outcome State Fault Refusal :=
  .next (if s.pwrMoving ∧ 2 ≤ s.pwrTarget ∧ s.mayRest = false then
      let s := ((s.start.fset State.pwrP PWR.PAGE_STAT_moving 0).fset State.pwrP PWR.PAGE_STAT_pend_valid 0).refuseQuiesce
      (s.fset State.pwrP PWR.PAGE_STAT_pending 0).event .pwr 0 PWR.PAGE_EVT_req_refused
    else s.start)

/-- AUTO_IDLE (R375): idle_delay has passed with no MATMUL, DRAIN, VEC or NORM in progress. During
a transition the request goes where R373 puts it. -/
def execAutoIdle (s : State) : Host.Outcome State Fault Refusal :=
  let busy := s.seq.occs.any fun o => State.needsTclk o && decide (o.place ≠ .checked)
  .next (if s.flag State.pwrP PWR.PWR_CFG_auto_idle ∧ s.pwrState = 0 ∧ busy = false then
      s.start.request 1 0
    else s.start)

/-- WAKE_PIN (R378): from OFF it is a full start-up. -/
def execWakePin (s : State) : Host.Outcome State Fault Refusal :=
  .next (if s.pwrState = 4 then (if s.pwr.powered then s.start.moduleReset 2 else s.start)
    else if s.canWake then s.start.request 0 2
    else s.start)

/-- ALARM_EXPIRE (R378). -/
def execAlarmExpire (s : State) : Host.Outcome State Fault Refusal :=
  .next (if s.flag State.pwrP PWR.WAKE_EN_alarm ∧ s.canWake = true then s.start.request 0 5 else s.start)

/-- The third attempt to bring an element up has failed (R379): the module stays in DEEP. -/
def State.wakeFails (s : State) (elem stage : Nat) : State :=
  let s := if s.pwrState = 2 then s.strip else s
  let s := (s.fset State.pwrP PWR.PAGE_STAT_state 3).fset State.pwrP PWR.PAGE_STAT_moving 0
  let s := s.writeWake 3 3 true elem stage
  let s : State := { s with pwr := { s.pwr with attempts := 0, pwrOk := false } }
  let s := s.errEvent .pwr 0 0x93 elem 0
  (s.event .pwr 0 PWR.PAGE_EVT_wake_fail).startPending

/-- WAKE_STEP_TIMEOUT (R379): a regulator (stage 1) or the PLL (stage 2) misses its time; the third attempt fails. -/
def execWakeStepTimeout (elem stage : Nat) (s : State) : Host.Outcome State Fault Refusal :=
  if s.waking = false ∨ s.svc.exit ≠ 0 then .next s.start
  else if s.pwr.attempts + 1 < 3 then
    let s := s.start
    .next { s with pwr := { s.pwr with attempts := s.pwr.attempts + 1 } }
  else .next (s.start.wakeFails elem stage)

/-- BCLK_FALLBACK (R380). -/
def execBclkFallback (s : State) : Host.Outcome State Fault Refusal :=
  .next (if s.pwrState = 4 ∨ s.flag (pageNum .clk 0) CLK.PAGE_STAT_bclk_fallback = true then s.start
    else
      let s := (s.start.fset (pageNum .clk 0) CLK.PAGE_STAT_bclk_fallback 1).fset State.pwrP PWR.WAKE_REC0_bclk_fb 1
      s.event .clk 0 CLK.PAGE_EVT_bclk_fallback)

/-- RESET_PIN (16 R402). -/
def execResetPin (s : State) : Host.Outcome State Fault Refusal :=
  .next (if s.pwrState = 4 then s.start else s.start.moduleReset 8)

/-- INPUT_POWER_LOST (R371, R378): the module goes to OFF. -/
def execInputPowerLost (s : State) : Host.Outcome State Fault Refusal := .next (s.start.enterOff false)

/-- INPUT_POWER_APPLIED (16 R402): the effect of a module reset, with wake source 1. -/
def execInputPowerApplied (s : State) : Host.Outcome State Fault Refusal :=
  .next (if s.pwr.powered then s.start else s.start.moduleReset 1)

end Sys2Proof.Machine
end

