-- ==== Sys2Proof/Machine/Thermal.lean ====
section
/-!
DEFINITION. The power cap and slew, thermal and coolant limits, and the clock tree (15 R381 to R395), with the commands
POWER_CONTROL_TICK, FAST_LIMIT_ASSERT, FAST_LIMIT_RELEASE, DIE_TEMP_SAMPLE, THERMAL_SENSOR_SAMPLE, COOLANT_SAMPLE,
TCLK_CHANGE, TCLK_CHANGE_DONE, SENSOR_WINDOW_UPDATE, RAIL_FAULT and CLOCK_LOSS.
-/
namespace Sys2Proof.Machine

/-- TDP and run floor of a member in watts (R381, R400). -/
def Member.tdp : Member → Nat
  | .xsm8 => 7200
  | .xsm4 => 3700
  | .xsc1 => 450
def Member.floorW : Member → Nat
  | .xsm8 => 900
  | .xsm4 => 600
  | .xsc1 => 150

/-- A signed value in 16 bits, and the order of such readings. -/
def word16 (x : Int) : Nat := (x % 65536).toNat

namespace State

def clkP : Nat := pageNum .clk 0

/-- A write of CAP (R381, R382). -/
def capWrite (s : State) (v : Nat) : State :=
  let tdp := Member.tdp s.member
  let low := Member.floorW s.member
  let s := s.fset pwrP PWR.CAP_watts (if tdp < v then tdp else if v < low then low else v)
  let s := if v < low then (s.errEvent .pwr 0 0xB5 v 0).event .pwr 0 PWR.PAGE_EVT_cap_below_floor else s
  s.judgeCap

/-! ### Power control (R382 to R385) -/

def tileEst (s : State) (t : Nat) : Nat := sparseGet (fun _ => 0) s.pwr.est t
def tileLim (s : State) (t : Nat) : Nat := sparseGet (fun _ => 72000) s.pwr.lim t

/-- Whether a sensor holds a tile's limit down: its die, its understory, or the conversion stage (R387). -/
def tileHot (s : State) (t : Nat) : Bool :=
  s.pwr.hot.contains t || s.pwr.hot.contains (8 + t) || s.pwr.hot.contains 0x1E

/-- The module limit in force: the cap, and what the coolant flow allows. -/
def capNow (s : State) : Nat :=
  match s.pwr.flowCap with
  | some w => min w (s.fget pwrP PWR.CAP_watts)
  | none => s.fget pwrP PWR.CAP_watts

/-- A tile's power at full issue and at 1/64 of it, in hundredths of a watt (R383). -/
def fullTile : Nat := 72000
def leastTile : Nat := fullTile / 64
/-- A tile's power at the issue that FAST_LIMIT.duty leaves it (R385). -/
def fastTile (s : State) : Nat := fullTile * s.fget pwrP PWR.FAST_LIMIT_duty / 64

/-- Whether a coolant limit holds the tiles at minimum issue (R389). -/
def minIssue (s : State) : Bool := s.pwr.minInlet || s.pwr.minFlow

/-- A tile's limit after 10 µs, never below the least issue. While the draw is above the module limit, or a sensor holds the
tile, it falls at the slew from what the tile draws; else it goes at the slew to what the coolant leaves, and no further
than the tile's share of the room under the module limit, so that the draw stays within it (R381, R382). -/
def nextLim (s : State) (watts t : Nat) : Nat :=
  let slew := s.fget pwrP PWR.SLEW_w_per_ms
  let most := if s.minIssue then leastTile else max leastTile (fullTile - s.pwr.cut - s.pwr.ringCut)
  let l := s.tileLim t
  let n := Member.tiles s.member
  let room := 100 * (s.capNow - watts)
  if s.capNow < watts ∨ s.tileHot t = true then max leastTile (min l (s.tileEst t) - slew)
  else
    let wide := decide (slew * n ≤ room)
    let top := if most < l then max most (l - slew) else if wide then min most (l + slew) else l
    if wide then top else max leastTile (min top (s.tileEst t + room / n))

/-- A tile's estimated power after 10 µs, for the power its work asks for (R384, R385). -/
def nextEst (s : State) (lim want t : Nat) : Nat :=
  let slew := s.fget pwrP PWR.SLEW_w_per_ms
  let e := s.tileEst t
  let d := min want lim
  if s.pwr.fast then min (min d s.fastTile) (e + slew)
  else if e < d then min d (e + slew)
  else max d (e - slew)

/-- What the controller measures in 10 µs: the 1 ms average of the input power, its peak, the input, and the energy drawn
since OFF (R399). -/
def measure (s : State) (watts mv10 ma10 : Nat) : State :=
  let uj := s.pwr.energy + 10 * watts
  let s : State := { s with pwr := { s.pwr with energy := uj % 1000000 } }
  let s := s.addPair pwrP PWR.ENERGY_LO_joules (uj / 1000000)
  let s := (s.fset pwrP PWR.POWER_NOW_watts (min watts 65535)).fset pwrP PWR.POWER_NOW_peak
    (max (s.fget pwrP PWR.POWER_NOW_peak) (min watts 65535))
  (s.fset pwrP PWR.INPUT_mv10 mv10).fset pwrP PWR.INPUT_ma10 ma10

/-- One interval of the power controller. While a lower state is entered each tile ramps down to its power with no work
(R375; DEDUCED, notes/assumptions/114.md). -/
def powerTick (s : State) (watts mv10 ma10 : Nat) (demands : List Nat) : State :=
  let tiles := List.range (Member.tiles s.member)
  let lims := tiles.map fun t => s.nextLim watts t
  let most := if s.pwrMoving ∧ s.pwrState < s.pwrTarget then idleTile else fullTile
  let wants := tiles.map fun t => min most (100 * demands.getD t 0)
  let ests := tiles.map fun t => s.nextEst (lims.getD t 0) (wants.getD t 0) t
  let held := tiles.any fun t => decide (ests.getD t 0 < wants.getD t 0)
  let fill := !s.pwr.fast && tiles.any fun t => decide (wants.getD t 0 < ests.getD t 0)
  let ramp := tiles.any fun t => decide (ests.getD t 0 ≠ min (wants.getD t 0) (lims.getD t 0))
  let put (d : Nat) (xs : List Nat) : List (Nat × Nat) :=
    (tiles.map fun t => (t, xs.getD t 0)).filter fun x => decide (x.2 ≠ d)
  let s : State := { s with pwr := { s.pwr with est := put 0 ests, lim := put 72000 lims } }
  let s := s.measure watts mv10 ma10
  let s := if held then s.count pwrP PWR.THROTTLE_CNT_count else s
  let s := if fill then s.count pwrP PWR.FILLER_CNT_count else s
  let s := s.fset pwrP PWR.PAGE_STAT_ramp (if ramp then 1 else 0)
  if s.flag pwrP PWR.PAGE_STAT_cap_over then
    let s := s.addSat pwrP PWR.CAP_OVER_US_us 10
    if watts ≤ s.fget pwrP PWR.CAP_watts then s.fset pwrP PWR.PAGE_STAT_cap_over 0 else s
  else s

/-! ### Thermal and coolant limits (R386 to R389) -/

/-- PAGE_STAT.throttle follows the limits that act; the event marks its rise. -/
def showThrottle (s : State) : State :=
  let on := !s.pwr.hot.isEmpty || decide (s.pwr.cut ≠ 0) || s.pwr.flowCap.isSome || s.minIssue
  let was := s.flag pwrP PWR.PAGE_STAT_throttle
  let s := s.fset pwrP PWR.PAGE_STAT_throttle (if on then 1 else 0)
  if on && !was then s.event .pwr 0 PWR.PAGE_EVT_throttle else s

/-- The throttle and trip thresholds of a sensor in 0.1 °C, where it has them. -/
def sensorLimits (s : State) (code : Nat) : Option (Int × Int) :=
  if code < 8 then (if code < Member.tiles s.member then some (1000, 1100) else none)
  else if code < 16 then (if code - 8 < Member.tiles s.member then some (950, 1050) else none)
  else if code < 24 then (if code - 16 < Member.stacks s.member then some (950, 1050) else none)
  else if code = 0x18 then some (1000, 1100)
  else if code = 0x1E then some (1050, 1150)
  else none

/-- Whether a member has a sensor. -/
def sensorFitted (s : State) (code : Nat) : Bool :=
  (s.sensorLimits code).isSome || (decide (0x19 ≤ code) && decide (code < 0x1E) && Member.pe s.member (code - 0x19)) ||
    ((decide (code = 0x20) || decide (code = 0x21)) && decide (s.member ≠ .xsc1))

/-- A sensor's last reading and its highest since that was last read, if any came since. -/
def tempOf (s : State) (code : Nat) : Int × Option Int :=
  sparseGet (fun _ => ((0 : Int), (none : Option Int))) s.pwr.temps code

/-- Keeps a sensor's reading and its highest since that was last read (R399). -/
def noteTemp (s : State) (code : Nat) (temp : Int) : State :=
  let old := s.tempOf code
  let top := match old.2 with | some m => max m temp | none => temp
  { s with pwr := { s.pwr with temps := sparsePut (fun _ => (0, none)) code (temp, some top) s.pwr.temps } }

/-- A sensor's reading acts (R387). -/
def sensorRead (s : State) (code : Nat) (temp : Int) : State :=
  let s := s.noteTemp code temp
  match s.sensorLimits code with
  | none => s
  | some (thr, trip) =>
    let others := s.pwr.hot.filter fun c => decide (c ≠ code)
    let on := decide (thr ≤ temp) || (s.pwr.hot.contains code && decide (thr - 20 < temp))
    let s : State := { s with pwr := { s.pwr with hot := if on then others ++ [code] else others } }
    let s := s.showThrottle
    if trip ≤ temp ∧ s.pwr.tripped.contains code = false then
      let s : State := { s with pwr := { s.pwr with tripped := s.pwr.tripped ++ [code] } }
      s.fatal .pwr 0 0xC4 code
    else s

/-- A die's sample; a step of 20 °C within 1 ms raises THERMAL_STEP, at most once per 250 µs (R386). -/
def dieSample (s : State) (t : Nat) (temp : Int) : State :=
  let ds := temp :: (sparseGet (fun _ => []) s.pwr.dies t).take 40
  let n := min 10 (sparseGet (fun _ => 10) s.pwr.sinceStep t + 1)
  let step := ds.any (fun a => ds.any fun b => decide (20 ≤ a - b)) && decide (10 ≤ n)
  let s : State := { s with pwr := { s.pwr with
    dies := sparsePut (fun _ => []) t ds s.pwr.dies,
    sinceStep := sparsePut (fun _ => 10) t (if step then 0 else n) s.pwr.sinceStep } }
  if step then ((s.thermalStep t).count pwrP PWR.STEP_CNT_count).event .pwr 0 PWR.PAGE_EVT_thermal_step else s

/-- The limits of R389 for an inlet and a flow out of range; `ring` is the ring-tuning power in watts, of which what goes
beyond the 55 W of the power budget is taken from the tiles (01 R30). A limit once set does not ease before its reading has
been back in range for 1 s (DEDUCED, notes/assumptions/106.md). -/
def coolantRead (s : State) (inlet outlet : Int) (flow ring : Nat) (low100 inlet1s flow1s : Bool) : State :=
  let s := ((s.noteTemp 0x20 inlet).noteTemp 0x21 outlet).fset pwrP PWR.COOLANT_inlet (word16 inlet)
  let s := (s.fset pwrP PWR.COOLANT_outlet (word16 outlet)).fset pwrP PWR.FLOW_lpm100 (min flow 65535)
  let inBad := decide (inlet < 200) || decide (400 < inlet)
  let flowBad := decide (flow < 1200)
  let inlet1s := inlet1s && !inBad
  let flow1s := flow1s && !flowBad
  let n := Member.tiles s.member
  let cut := if 400 < inlet then ((min inlet 500 - 400) * 360).toNat
    else if inlet < 200 then 100 * (ring - 75) / n else 0
  let cut := if inlet1s then 0 else max cut s.pwr.cut
  let cap := if flow1s then none
    else if flowBad then
      let w := max (Member.floorW s.member) (7200 * flow / 1200)
      some (match s.pwr.flowCap with | some old => min old w | none => w)
    else s.pwr.flowCap
  let warn := inBad || (flowBad && !low100)
  let due := match s.pwr.lastWarn with | some t => decide (t + 60000000 ≤ s.now) | none => true
  let s : State := { s with pwr := { s.pwr with
    cut := cut, ringCut := 100 * (min ring 75 - 55) / n, flowCap := cap,
    minInlet := !inlet1s && (s.pwr.minInlet || decide (500 < inlet)),
    minFlow := !flow1s && (s.pwr.minFlow || low100) } }
  let s := s.showThrottle
  let s : State := if low100 then { s with err := { s.err with alert := true } } else s
  if warn && due then
    let s : State := { s with pwr := { s.pwr with lastWarn := some s.now } }
    s.event .pwr 0 PWR.PAGE_EVT_coolant_warn
  else s

/-! ### Clocks (R390 to R395) -/

/-- Whether a unit's page reads quiesced: the bit is set and nothing is in progress or in the input (03 R94, 07 R200). -/
def teQuiesced (s : State) (i : Nat) : Bool :=
  let mine (o : Occ) : Bool := decide (o.tile = i / 4) && decide (o.place ≠ .checked) &&
    (match o.unit with | .te e | .drain e => decide (e = i % 4) | .quad => true | _ => false)
  s.flag (pageNum .te i) TE.PAGE_CTRL_quiesce && !s.seq.occs.any mine
def veQuiesced (s : State) (t : Nat) : Bool :=
  s.flag (pageNum .ve t) VE.PAGE_CTRL_quiesce && (s.unitOccs t .ve).isEmpty

/-- Whether a member's tiles run at a divider code (R392). -/
def tclkOk (s : State) (d : Nat) : Bool := decide (d < 3) && (decide (s.member ≠ .xsc1) || decide (d ≠ 0))
def divOf (w t : Nat) : Nat := natBits w (2 * t) 2

/-- A write of TCLK_DIV (R392): fields of absent tiles are ignored, and a value the member does not run refuses the
write. -/
def tclkWrite (s : State) (v : Nat) : State :=
  let tiles := List.range (Member.tiles s.member)
  let old := s.fget clkP CLK.TCLK_DIV_div
  if tiles.all fun t => s.tclkOk (divOf v t) then
    let new := tiles.foldl (fun w t => putBits w (2 * t) 2 (divOf v t)) old
    let s := s.fset clkP CLK.TCLK_DIV_div new
    tiles.foldl (fun (s : State) t =>
      if divOf v t = divOf old t then s else s.fset clkP ⟨CLK.PAGE_STAT_div_pend.off, CLK.PAGE_STAT_div_pend.lo + t, 1⟩ 1) s
  else s.ctrlIgnored .clk 0 CLK.TCLK_DIV_div.off

def divPend (t : Nat) : Fd := ⟨CLK.PAGE_STAT_div_pend.off, CLK.PAGE_STAT_div_pend.lo + t, 1⟩

end State

/-! ### The commands -/

/-- POWER_CONTROL_TICK (R384): 10 µs pass, and in SLEEP, where no tile works, the input alone is measured; `watts` is the 1 ms average input power, `mv10` and `ma10` the input, `demands`
the power in watts that each tile's work asks for. -/
def execPowerControlTick (watts mv10 ma10 : Nat) (demands : List Nat) (s : State) : Host.Outcome State Fault Refusal :=
  .next (if s.pwrState ≤ 1 then s.start.powerTick watts mv10 ma10 demands
    else if s.pwrState = 2 then s.start.measure watts mv10 ma10
    else s.start)

/-- FAST_LIMIT_ASSERT (R385). -/
def execFastLimitAssert (s : State) : Host.Outcome State Fault Refusal :=
  let s := s.start
  if s.pwr.fast then .next s
  else
    let est := (s.pwr.est.map fun x => (x.1, min x.2 s.fastTile)).filter fun x => decide (x.2 ≠ 0)
    let s : State := { s with pwr := { s.pwr with fast := true, est := est } }
    let s := (s.fset State.pwrP PWR.PAGE_STAT_fast_limit 1).count State.pwrP PWR.FASTLIM_CNT_count
    .next (s.event .pwr 0 PWR.PAGE_EVT_fast_limit)

/-- FAST_LIMIT_RELEASE (R385). -/
def execFastLimitRelease (s : State) : Host.Outcome State Fault Refusal :=
  let s := s.start
  let s : State := { s with pwr := { s.pwr with fast := false } }
  .next (s.fset State.pwrP PWR.PAGE_STAT_fast_limit 0)

/-- DIE_TEMP_SAMPLE (R386): a compute die's temperature in °C. -/
def execDieTempSample (tile : Nat) (temp : Int) (s : State) : Host.Outcome State Fault Refusal :=
  .next (if tile < Member.tiles s.member ∧ s.pwrState ≤ 2 then s.start.dieSample tile temp else s.start)

/-- THERMAL_SENSOR_SAMPLE (R387): a sensor's reading in 0.1 °C. -/
def execThermalSensorSample (sensor : Nat) (temp : Int) (s : State) : Host.Outcome State Fault Refusal :=
  .next (if s.sensorFitted sensor ∧ s.pwrState ≤ 2 then s.start.sensorRead sensor temp else s.start)

/-- COOLANT_SAMPLE (R389): inlet and outlet in 0.1 °C, flow in 0.01 L/min, ring-tuning power in watts; whether the flow
has been below 4 L/min for 100 ms, and the inlet and the flow in range for 1 s. -/
def execCoolantSample (inlet outlet : Int) (flow ring : Nat) (low100 inlet1s flow1s : Bool) (s : State) :
    Host.Outcome State Fault Refusal :=
  .next (if s.member ≠ .xsc1 ∧ s.pwrState ≤ 2 then
      s.start.coolantRead inlet outlet flow ring (low100 && decide (flow < 400)) inlet1s flow1s
    else s.start)

/-- TCLK_CHANGE (R392): a pending change starts once every engine page of the tile reads quiesced. -/
def execTclkChange (tile : Nat) (s : State) : Host.Outcome State Fault Refusal :=
  .next (if tile < Member.tiles s.member ∧ s.flag State.clkP (State.divPend tile) = true ∧
      (s.pwr.changing.any fun c => decide (c.1 = tile)) = false ∧
      ((List.range 4).all fun e => s.teQuiesced (4 * tile + e)) = true ∧ s.veQuiesced tile = true then
      let s := s.start
      { s with pwr := { s.pwr with
          changing := s.pwr.changing ++ [(tile, State.divOf (s.fget State.clkP CLK.TCLK_DIV_div) tile)] } }
    else s.start)

/-- TCLK_CHANGE_DONE (R392): 64 cycles of the slower clock have passed. -/
def execTclkChangeDone (tile : Nat) (s : State) : Host.Outcome State Fault Refusal :=
  match s.pwr.changing.find? fun c => decide (c.1 = tile) with
  | none => .next s.start
  | some (_, d) =>
    let s := s.start
    let s : State := { s with pwr := { s.pwr with changing := s.pwr.changing.filter fun c => decide (c.1 ≠ tile) } }
    let s := s.fset State.clkP CLK.TCLK_CUR_div (putBits (s.fget State.clkP CLK.TCLK_CUR_div) (2 * tile) 2 d)
    let s := if State.divOf (s.fget State.clkP CLK.TCLK_DIV_div) tile = d then s.fset State.clkP (State.divPend tile) 0
      else s
    .next (s.event .clk 0 CLK.PAGE_EVT_div_done)

/-- SENSOR_WINDOW_UPDATE (R395): the ranger writes a full set of readings (SENS_A to SENS_D) unless the last is held. -/
def execSensorWindowUpdate (a b c d : Word) (s : State) : Host.Outcome State Fault Refusal :=
  .next (if s.pwrState ≤ 2 ∧ s.flag State.rangerP RANGER.SENS_FLAG_ready = false then
      let p := State.rangerP
      let s := (((s.start.setReg p 0x080 a).setReg p 0x084 b).setReg p 0x088 c).setReg p 0x08C d
      (s.fset p RANGER.SENS_FLAG_ready 1).event .ranger 0 RANGER.PAGE_EVT_sens_ready
    else s.start)

/-- RAIL_FAULT (14, Error events; 15, Element codes). -/
def execRailFault (elem : Nat) (s : State) : Host.Outcome State Fault Refusal :=
  .next (if s.pwrState = 0 ∧ elem < 256 then
      let s := s.start
      let s : State := { s with pwr := { s.pwr with pwrOk := false } }
      s.fatal .pwr 0 0xC3 elem
    else s.start)

/-- CLOCK_LOSS (R391): REFCLK counts only while it is in use. -/
def execClockLoss (domain : Nat) (s : State) : Host.Outcome State Fault Refusal :=
  let fits := decide (domain < 3) || (decide (domain = 3) && decide (s.member ≠ .xsc1)) || (decide (16 ≤ domain) && decide (domain < 16 + Member.stacks s.member)) ||
    (decide (24 ≤ domain) && Member.pe s.member (domain - 24))
  let gone (s : State) : State := if domain = 0 then s.fset State.clkP CLK.PAGE_STAT_pll_lock 0
    else if domain = 1 then s.fset State.clkP CLK.PAGE_STAT_refclk 0 else s
  .next (if s.pwrState ≤ 2 ∧ fits = true then
      if domain = 1 ∧ s.flag State.clkP CLK.PAGE_STAT_src = true then gone s.start
      else (gone s.start).fatal .clk 0 0xC2 domain
    else s.start)

end Sys2Proof.Machine
end

