-- ==== Sys2Proof/Machine/Live.lean ====
section
/-!
DEFINITION. What a register reads: the fields that units show live over the stored words (03 R95, 05 R134 to R136,
06 R170, 07 R201, 08 R225, 10 R269, 11 R299, 12 R323 and R324, 13 R353, 14 R370, 15 R399 and R400, 16 R417 to R431,
17 R433, R434 and R445, 18 R449, R457, R463 and R465), and which clock domain a page is in (18 R461).
-/
namespace Sys2Proof.Machine

/-- A word with a field replaced. -/
def setFd (w : Nat) (f : Fd) (v : Nat) : Nat := putBits w f.lo f.w v
def boolBit (b : Bool) : Nat := if b then 1 else 0
/-- The number whose bit i is given, for i below n. -/
def maskOf (p : Nat → Bool) : Nat → Nat
  | 0 => 0
  | n + 1 => maskOf p n + (if p n then 2 ^ n else 0)

/-! ### Clock domains (15 R372, R396; 18 R461) -/

/-- Whether an access to a stopped page of this type waits without waking its domain. -/
def PageType.nonWaking : PageType → Bool
  | .fuse | .stkphy | .pecal => true
  | _ => false

namespace State

/-! ### The lantern (17 R433, R434) -/

/-- Whether a channel of a link carries in both directions, and whether none has for the last second. -/
def carriesBoth (s : State) (l : Nat) : Bool := (List.range 16).any fun k => s.txCarry l k && s.rxCarry l k
def carriedLast (s : State) (l : Nat) : Nat := sparseGet (fun _ => 0) s.svc.live l
def silent (s : State) (l : Nat) : Bool :=
  !s.carriesBoth l && (decide (s.carriedLast l = 0) || decide (s.carriedLast l + 1000000 ≤ s.now + 1))

/-- Notes which links carry in both directions now. -/
def noteCarry (s : State) : State :=
  let ls := (List.range 40).filter fun l => Member.link s.member l && s.carriesBoth l
  { s with svc := { s.svc with live := ls.foldl (fun x l => sparsePut (fun _ => 0) l (s.now + 1) x) s.svc.live } }

/-- A connector's colour: 0 off, 1 green, 2 amber, 3 blue. A parked module's dark links turn no indicator amber: every one
shows blue (R436 step 6; notes/assumptions/97.md). -/
def connColour (s : State) (p : Nat) : Nat :=
  if !Member.pe s.member p then 0
  else
    let links := linksOf p
    let on (l : Nat) : Bool := s.flag (pechP l) PECH.PAGE_CTRL_enable
    let noComb := !s.combOk p 0 && !s.combOk p 1
    let mismatch (l : Nat) : Bool := (List.range 16).any fun k => decide ((s.chOf l k).bad = 6)
    let ill (l : Nat) : Bool :=
      on l && (!s.flag (peP p) PE.SHUTTER_plug || s.flag (peP p) ⟨PE.SHUTTER_los.off, PE.SHUTTER_los.lo + l % 8, 1⟩ ||
        mismatch l || s.silent l)
    let out := (links.all fun l => !on l && !s.flag (pechP l) PECH.LINK_OPT_CTRL_test) ||
      !s.flag (peP p) PE.PAGE_CTRL_enable
    let up := decide (s.pwrState ≤ 1) && s.flag 0 MODULE.PAGE_STAT_ready
    if s.fireClosed || (up && !s.parked && (noComb || links.any ill)) then 2
    else if s.parked || decide (s.pwrState = 2) || decide (s.pwrState = 3) ||
        (up && out && decide (s.shutBits p = 0xFF)) then 3
    else if up && links.any fun l => s.carriesBoth l then 1
    else 0

/-- The module indicator: colour and whether it flashes at 1 Hz. Before the first stage of a start-up it is off. -/
def moduleColour (s : State) : Nat × Bool :=
  let ready := s.flag 0 MODULE.PAGE_STAT_ready
  let leaving := s.waking && decide (s.pwrState = 3)
  if s.fireClosed || s.flag 0 MODULE.BOOT_STAT_fail || s.flag pwrP PWR.WAKE_REC0_fail then (2, false)
  else if s.svc.waits then (2, true)
  else if s.fget 0 MODULE.SVC_STAT_park_state = 1 ∨ s.fget 0 MODULE.SVC_STAT_park_state = 2 then (3, true)
  else if s.fget 0 MODULE.SVC_STAT_park_state = 3 ∨ s.pwrState = 2 ∨ (s.pwrState = 3 ∧ leaving = false) then (3, false)
  else if s.pwrState = 4 ∨ s.fget 0 MODULE.BOOT_STAT_stage = 0 then (0, false)
  else if leaving || !ready then (1, true)
  else (1, false)

/-! ### Live fields, page by page -/

/-- Whether a unit of a tile has a descriptor in progress. -/
def unitBusy (s : State) (t : Nat) (u : UnitId) : Bool :=
  (s.unitOccs t u).any fun o => decide (o.place = .running) || decide (o.place = .waiting) || decide (o.place = .done)
def unitIdle (s : State) (t : Nat) (u : UnitId) : Bool := (s.unitOccs t u).isEmpty

/-- The address of an occurrence's descriptor in its ring. -/
def descAddr (s : State) (o : Occ) : Nat := s.qBase o.tile o.queue + 64 * s.slotOfCount o.tile o.queue o.count

def liveModule (s : State) (port : Port) (off w : Nat) : Nat :=
  let m := s.member
  match off with
  | 0x004 => match m with | .xsm8 => 0x0A3FFFFF | .xsm4 => 0x062B0F0F | .xsc1 => 0x00000101
  | 0x054 => s.now % 2 ^ 32
  | 0x058 => s.now / 2 ^ 32 % 2 ^ 32
  | 0x080 => setFd w MODULE.ERR_SUM_depth s.err.fifo.length
  | 0x090 | 0x094 | 0x098 | 0x09C =>
    match s.latchOf port with | some e => entryWord e ((off - 0x090) / 4) | none => 0
  | 0x0D4 => if m = .xsc1 then setFd w MODULE.SVC_STAT_plug 0 else w
  | 0x0D8 =>
    let c := s.moduleColour
    let conn := if m = .xsc1 then 0 else (List.range 5).foldl (fun n p => n + s.connColour p * 4 ^ p) 0
    setFd (setFd (setFd 0 MODULE.LANTERN_conn conn) MODULE.LANTERN_module c.1) MODULE.LANTERN_flash (boolBit c.2)
  | _ => w

/-- Four bytes of a hash, byte 0 first. -/
def hashWord (bs : List Byte) (i : Nat) : Nat :=
  (List.range 4).foldr (fun j acc => (bs.getD (4 * i + j) 0).toNat + 256 * acc) 0

def liveFuse (s : State) (off w : Nat) : Nat :=
  let p := pageNum .fuse 0
  match off with
  | 0x040 => s.fuses.serial.toNat % 2 ^ 32
  | 0x044 => s.fuses.serial.toNat / 2 ^ 32
  | 0x048 => s.fuses.masks.toNat + Member.code s.member * 2 ^ 24
  | 0x04C => s.fuses.svn
  | 0x054 => hashWord (if s.flag p FUSE.HASH_IDX_debug then s.fuses.dbgHash else s.fuses.fwHash) (s.fget p FUSE.HASH_IDX_word)
  | 0x058 => s.fuses.hostLock.toNat
  | 0x05C => s.fuses.mgmtLock.toNat
  | 0x068 =>
    match s.host.chal with
    | some (ws, _, _) => (ws.getD (s.fget p FUSE.DBG_IDX_word) 0).toNat
    | none => 0
  | 0x06C => 0
  | 0x078 => s.fuses.repairLines.length % 2 ^ 16 + s.fuses.repairRows.length % 2 ^ 8 * 2 ^ 16
  | _ => w

def livePwr (s : State) (off w : Nat) : Nat :=
  match off with
  | 0x004 => setFd w PWR.PAGE_CAP_coolant (boolBit (decide (s.member ≠ .xsc1)))
  | 0x00C => setFd w PWR.PAGE_STAT_fast_limit (boolBit s.pwr.fast)
  | 0x064 => Member.tdp s.member + Member.floorW s.member * 2 ^ 16
  | 0x06C =>
    let t := s.fget pwrP PWR.TILE_IDX_tile
    if t < Member.tiles s.member then
      let die := match sparseGet (fun _ => []) s.pwr.dies t with | d :: _ => tempByte d | [] => 0
      min 4095 (s.tileEst t / 100) + min 4095 (s.tileLim t / 100) * 2 ^ 12 + die * 2 ^ 24
    else 0
  | 0x074 =>
    let r := s.tempOf (s.fget pwrP PWR.TEMP_IDX_sensor)
    word16 r.1 + word16 (r.2.getD 0) * 2 ^ 16
  | _ => w

def liveClk (s : State) (off w : Nat) : Nat :=
  match off with
  | 0x004 => setFd w CLK.PAGE_CAP_tclk_divs (if s.member = .xsc1 then 6 else 7)
  | 0x048 =>
    let tiles := Member.tiles s.member
    maskOf (fun t => decide (t < tiles) && (s.domainOn .te (4 * t) || s.woken.contains (.engine t))) 8 +
      maskOf (fun t => decide (t < tiles) && (s.domainOn .spad t || s.woken.contains (.spad t))) 8 * 2 ^ 8 +
      boolBit (s.domainOn .coll 0 || s.woken.contains .fclk) * 2 ^ 16 +
      boolBit (s.domainOn .tseq 0 || s.woken.contains .cclk) * 2 ^ 17 + boolBit (s.domainOn .fuse 0) * 2 ^ 18
  | 0x04C =>
    maskOf (fun k => decide (k < Member.stacks s.member) && s.domainOn .stkphy k) 8 +
      maskOf (fun p => Member.pe s.member p && s.domainOn .pe p) 5 * 2 ^ 8
  | _ => w

def liveSnap (s : State) (off w : Nat) : Nat :=
  match off with
  | 0x004 => if s.member = .xsc1 then w - natBits w 1 2 * 2 else w
  | 0x00C =>
    let idle := s.snap.clr.isNone && s.snap.tail.isEmpty && s.snap.restore.isNone
    setFd (setFd w SNAP.PAGE_STAT_quiesced (boolBit (s.flag snapP SNAP.PAGE_CTRL_quiesce && idle))) SNAP.PAGE_STAT_hold
      (boolBit (decide (s.snap.hold ≠ 0)))
  | 0x058 => setFd w SNAP.PAIR_FEED_own (s.fget 0 MODULE.FEED_id)
  | 0x0B4 =>
    let k := s.fget snapP SNAP.LOST_IDX_word
    if k < 2048 then maskOf (fun b => s.snap.lost.contains (32 * k + b)) 32 else 0
  | _ => w

def liveTrail (s : State) (off w : Nat) : Nat :=
  match off with
  | 0x004 => if s.member = .xsc1 then setFd w TRAIL.PAGE_CAP_mirror 0 else w
  | 0x00C =>
    let marks := s.seq.occs.filter fun o => decide (o.unit = .trail) && decide (o.place ≠ .checked)
    let busy := marks.any fun o => decide (o.place ≠ .input)
    setFd (setFd w TRAIL.PAGE_STAT_busy (boolBit busy)) TRAIL.PAGE_STAT_quiesced
      (boolBit (s.flag trailP TRAIL.PAGE_CTRL_quiesce && marks.isEmpty))
  | _ => w

def liveTseq (s : State) (t off w : Nat) : Nat :=
  let p := tseqP t
  if off = 0x004 then setFd w TSEQ.PAGE_CAP_remote_sig (boolBit (decide (s.member ≠ .xsc1)))
  else if off = 0x00C then
    boolBit (s.tseqQuiesced t) + boolBit (s.tileBusy t) * 2 + maskOf (fun q => !s.qIdle t q) 8 * 2 ^ 8 +
      maskOf (fun q => s.qHalted t q) 8 * 2 ^ 16 +
      maskOf (fun q => s.qEnabled t q && !(s.queueOf t q).fetched.isEmpty && decide ((s.queueOf t q).head = none) &&
        !s.headReady t q) 8 * 2 ^ 24
  else if off = 0x054 then s.sem t (s.fget p TSEQ.SEM_IDX_sem)
  else if 0x100 ≤ off ∧ off < 0x300 then
    let q := (off - 0x100) / 0x40
    let x := s.queueOf t q
    match (off - 0x100) % 0x40 with
    | 0x1C => s.qHead t q % 2 ^ 32
    | 0x24 =>
      let waiting := s.qEnabled t q && !x.fetched.isEmpty && decide (x.head = none) && !s.headReady t q
      setFd (setFd (setFd w TSEQ.Q_STAT_idle (boolBit (s.qIdle t q))) TSEQ.Q_STAT_waiting (boolBit waiting))
        TSEQ.Q_STAT_in_repeat (boolBit (!x.reps.isEmpty))
    | 0x30 => x.reps.length + (match x.reps with | r :: _ => r.iter | [] => 0) * 2 ^ 8
    | _ => w
  else w

/-- The TE page. promo_full reads 1 while a finished block's last run waits for the drain path. With no descriptor in
progress TE_CUR_DESC and the position registers keep their last values (DESIGN CHOICE, notes/assumptions/100.md). -/
def liveTe (s : State) (i off w : Nat) : Nat :=
  let t := i / 4
  let e := i % 4
  let quad := s.quadOn t
  let x := s.teOf (s.drainKey t e)
  match off with
  | 0x00C =>
    let drains := !x.drains.isEmpty || !(s.unitOccs t (.drain e)).isEmpty
    boolBit x.occ.isSome + boolBit (s.teQuiesced i) * 2 + boolBit (x.occ.isSome && quad) * 4 + boolBit drains * 8 +
      boolBit (x.occ.isSome && decide (x.runStart < x.kpos)) * 16 + boolBit (!x.drains.isEmpty) * 32
  | 0x048 => x.row
  | 0x04C => x.col
  | 0x050 => x.kpos
  | 0x054 => x.kpos - x.runStart
  | _ => w

/-- The VE page. With no descriptor in progress VE_CUR_DESC reads 0 and VE_CUR_VEC keeps its last value (DESIGN CHOICE,
notes/assumptions/100.md). -/
def liveVe (s : State) (t off w : Nat) : Nat :=
  let run := (s.unitOccs t .ve).find? fun o => decide (o.place ≠ .input) && decide (o.place ≠ .ended)
  match off with
  | 0x00C =>
    boolBit run.isSome + boolBit (s.veQuiesced t) * 2 +
      boolBit (match run with | some o => decide (o.opcode = 0x18) | none => false) * 4 +
      boolBit (decide (2 ≤ s.inputCount fun o => decide (o.tile = t) && decide (o.unit = .ve))) * 8
  | 0x04C => match run with | some o => s.descAddr o % 2 ^ 32 | none => 0
  | 0x050 => match run with | some o => s.descAddr o / 2 ^ 32 % 2 ^ 16 | none => 0
  | _ => w

def liveDma (s : State) (t off w : Nat) : Nat :=
  let act := s.dmaActive t
  let slot := act[s.fget (pageNum .dma t) DMA.DMA_SLOT_IDX_slot]?
  match off with
  | 0x00C =>
    boolBit (!act.isEmpty) + boolBit (s.flag (pageNum .dma t) DMA.PAGE_CTRL_quiesce && act.isEmpty &&
      (s.dmaInput t).isEmpty) * 2 + min 7 act.length * 4 + min 15 (s.dmaInput t).length * 2 ^ 8
  | 0x040 => match act.head? with | some o => s.descAddr o % 2 ^ 32 | none => 0
  | 0x044 => match act.head? with | some o => s.descAddr o / 2 ^ 32 % 2 ^ 16 | none => 0
  | 0x04C => match slot with | some o => s.descAddr o % 2 ^ 32 | none => 0
  | 0x050 => match slot with | some o => s.descAddr o / 2 ^ 32 % 2 ^ 16 + 2 ^ 16 | none => 0
  | 0x054 =>
    match slot with
    | some o =>
      match s.ctxOf o.id, o.ten 1 with
      | some c, _ => min (2 ^ 32 - 1) c.landed
      | none, some d => if o.place = .done ∧ o.code = stOk then min (2 ^ 32 - 1) (d.count * d.size) else 0
      | none, none => 0
    | none => 0
  | _ => w

/-- The SPAD page. SPAD_REPAIR counts the spare lines in use once start-up has applied the repairs (05 R131, R134); a
count past its field's width holds (DESIGN CHOICE, notes/assumptions/101.md). -/
def liveSpad (s : State) (t off w : Nat) : Nat :=
  match off with
  | 0x00C => setFd w SPAD.PAGE_STAT_corrq_full (boolBit (decide (16 ≤ corrFullest s.member t s.mem.corrq)))
  | 0x064 => setFd w SPAD.SPAD_CORRQ_depth (corrFullest s.member t s.mem.corrq)
  | 0x068 =>
    let used := if s.fget 0 MODULE.BOOT_STAT_stage < 4 then 0 else (s.mem.lineFix.filter fun l => decide (lineTile l = t)).length
    setFd (setFd w SPAD.SPAD_REPAIR_used used) SPAD.SPAD_REPAIR_pending (min 65535 (s.mem.lineCand.filter fun l => decide (lineTile l = t)).length)
  | _ => w

/-- The STK page. STK_REPAIR counts the repairs once start-up has made them (05 R127, R136); a count past its field's width
holds (DESIGN CHOICE, notes/assumptions/101.md). -/
def liveStk (s : State) (k off w : Nat) : Nat :=
  match off with
  | 0x00C => setFd w STK.PAGE_STAT_quiesced (s.fget (stkP k) STK.PAGE_CTRL_quiesce)
  | 0x064 =>
    let fixed (hard : Bool) : Nat :=
      if s.fget 0 MODULE.BOOT_STAT_stage < 5 then 0
      else min 255 (s.mem.rowFix.filter fun r => decide (rowStack r.1 = k) && decide (r.2 = hard)).length
    setFd (setFd (setFd w STK.STK_REPAIR_soft (fixed false)) STK.STK_REPAIR_hard (fixed true)) STK.STK_REPAIR_pending
      (min 255 (s.mem.rowCand.filter fun r => decide (rowStack r = k)).length)
  | 0x078 => setFd w STK.STK_CORRQ_depth (corrDepth s.member (1000 + k) s.mem.corrq)
  | _ => w

def liveUnit (s : State) (t : Nat) (u : UnitId) (quiesce : Bool) (off w : Nat) : Nat :=
  if off = 0x00C then
    boolBit (s.unitBusy t u) + boolBit (quiesce && s.unitIdle t u) * 2
  else w

def liveScale (s : State) (t off w : Nat) : Nat :=
  let x := s.slotOf t (s.fget (pageNum .scale t) SCALE.SLOT_IDX_slot)
  match off with
  | 0x044 => (x.exp % 256).toNat + x.hidx * 2 ^ 8
  | 0x048 => x.target
  | 0x04C => x.amax
  | 0x050 => Slot.hmax x
  | _ => s.liveUnit t .scale (s.flag (pageNum .scale t) SCALE.PAGE_CTRL_quiesce) off w

def liveWatch (s : State) (t off w : Nat) : Nat :=
  let x := s.scale.snap.find? fun y => decide (y.1 = t)
  if off = 0x00C then boolBit x.isSome
  else if 0x048 ≤ off ∧ off < 0x078 then
    match x with
    | some y =>
      let n := y.2.getD ((off - 0x048) / 8) 0
      if off % 8 = 0 then n % 2 ^ 32 else n / 2 ^ 32 % 2 ^ 16
    | none => 0
  else w

def liveStkphy (s : State) (k off w : Nat) : Nat :=
  let p := pageNum .stkphy k
  match off with
  | 0x00C => setFd w STKPHY.PAGE_STAT_clock_run (boolBit (s.domainOn .stkphy k))
  | 0x050 =>
    match sparseGet (fun _ => 0) s.host.phyMark k with
    | 0 => 0
    | m => (Config.phyMargin k m (s.fget p STKPHY.PHY_LANE_IDX_channel) (s.fget p STKPHY.PHY_LANE_IDX_lane)).toNat
  | _ => w

/-- The training state of a channel side. -/
def trainState (s : State) (l k : Nat) (rx : Bool) : Nat :=
  let c := s.chOf l k
  if !s.linkOn l || !(if rx then s.rxEn l k else s.txEn l k) then 0
  else if !(if rx then s.rxLocked l k else s.txLocked l k) then 1
  else if (if rx then s.rxCarry l k else s.txCarry l k) then 4
  else if !c.fec then 2
  else if (if rx then c.rxHold else c.txHold) then 3
  else if c.bad = 5 then 5
  else if c.bad = 6 then 6
  else 3

def carryBoth (s : State) (l : Nat) : Nat := maskOf (fun k => s.txCarry l k && s.rxCarry l k) 16

def liveLink (s : State) (l off w : Nat) : Nat :=
  if off = 0x004 then setFd w LINK.PAGE_CAP_global (boolBit (decide (24 ≤ l)))
  else if off = 0x00C then
    setFd (setFd w LINK.PAGE_STAT_quiesced (s.fget (linkP l) LINK.PAGE_CTRL_quiesce)) LINK.PAGE_STAT_carry (s.carryBoth l)
  else if 0x100 ≤ off ∧ off < 0x140 then
    let k := (off - 0x100) / 4
    s.trainState l k false + s.trainState l k true * 2 ^ 4 + s.txPort l k * 2 ^ 8 +
      (match (s.chOf l k).train with | some r => r.rank % 2 ^ 16 | none => 0) * 2 ^ 16
  else w

def livePe (s : State) (p off w : Nat) : Nat :=
  match off with
  | 0x004 => setFd w PE.PAGE_CAP_fanout (boolBit (decide (s.member = .xsm8)))
  | 0x00C =>
    let carry := maskOf (fun j => (List.range 16).any fun k => s.txCarry (8 * p + j) k || s.rxCarry (8 * p + j) k) 8
    setFd (setFd (setFd w PE.PAGE_STAT_quiesced (s.fget (peP p) PE.PAGE_CTRL_quiesce)) PE.PAGE_STAT_shut (s.shutBits p))
      PE.PAGE_STAT_carry carry
  | 0x008 => setFd w PE.PAGE_CTRL_soft_reset (boolBit (s.optics.resetting.contains p))
  | 0x068 => s.meshCode p (s.fget (peP p) PE.MESH_IDX_elem)
  | 0x070 => (s.monitor p (s.reg (peP p) 0x06C).toNat).getD 0 + 2 ^ 16 * s.calLevel p (s.reg (peP p) 0x06C).toNat
  | 0x074 =>
    let r := s.tempOf (0x19 + p)
    tempByte (r.1 / 10) + tempByte (r.2.getD 0 / 10) * 2 ^ 8
  | _ => w

def livePech (s : State) (l off w : Nat) : Nat :=
  if off = 0x004 then setFd w PECH.PAGE_CAP_global (boolBit (decide (24 ≤ l)))
  else if off = 0x00C then
    setFd (setFd w PECH.PAGE_STAT_quiesced (s.fget (pechP l) PECH.PAGE_CTRL_quiesce)) PECH.PAGE_STAT_carry (s.carryBoth l)
  else if 0x100 ≤ off ∧ off < 0x200 ∧ off % 16 = 4 then
    let k := (off - 0x100) / 16
    setFd (setFd w PECH.CH_STAT_tx_carry (boolBit (s.txCarry l k))) PECH.CH_STAT_rx_carry (boolBit (s.rxCarry l k))
  else if 0x100 ≤ off ∧ off < 0x200 ∧ off % 16 = 8 then
    let k := (off - 0x100) / 16
    (s.chanMonitor l k 5).getD 0 + 2 ^ 16 * (s.chanMonitor l k 7).getD 0
  else w

/-- The calibration store's page. CAL_GEN counts the calibrations stored; the store's words from 0x2_2400 on read 0. -/
def livePecal (s : State) (p off w : Nat) : Nat :=
  let n := sparseGet (fun _ => 0) s.optics.cals p
  let a := 4 * s.fget (pageNum .pecal p) PECAL.CAL_ADDR_addr
  if off = 0x044 then (if a < 0x22400 then (Config.calWord p n a).toNat else 0)
  else if off = 0x048 then n
  else w

/-- Seven bits of open contexts for each of four VCs. -/
def ctxUse (s : State) (vc : Nat) : Nat := (List.range 4).foldl (fun n v => n + min 127 (s.ctxUsed (vc + v)) * 2 ^ (8 * v)) 0

def liveColl (s : State) (off w : Nat) : Nat :=
  let m := s.member
  match off with
  | 0x004 =>
    let n := match m with | .xsm8 => 40 | .xsm4 => 24 | .xsc1 => 0
    setFd (setFd (setFd w COLL.PAGE_CAP_reduce (boolBit (decide (m ≠ .xsc1)))) COLL.PAGE_CAP_fanout
      (boolBit (decide (m = .xsm8)))) COLL.PAGE_CAP_links n
  | 0x00C => boolBit (!s.coll.ctxs.isEmpty) + boolBit s.collQuiesced * 2 + boolBit s.coll.loading.isSome * 4
  | 0x068 => s.ctxUse 0
  | 0x06C => s.ctxUse 4
  | 0x070 => maskOf (fun vc => s.ctxWaits vc) 8
  | 0x090 => min 65535 ((List.range 8).foldl (fun n vc => n + s.lentOf vc) 0)
  | _ => w

def liveNorm (s : State) (off w : Nat) : Nat :=
  match off with
  | 0x004 => setFd w NORM.PAGE_CAP_exch (boolBit (decide (s.member ≠ .xsc1)))
  | 0x00C =>
    let busy := s.coll.ctxs.any fun c => decide (c.sub = 0x11)
    boolBit busy + boolBit (s.flag (pageNum .norm 0) NORM.PAGE_CTRL_quiesce && !busy) * 2
  | _ => w

def livePlan (s : State) (off w : Nat) : Nat :=
  let p := s.fget planP PLAN.PORT_IDX_port
  match off with
  | 0x060 => (s.txUp p).length % 128 + (s.rxUp p).length % 128 * 2 ^ 8 + boolBit (s.portOf p).down * 2 ^ 16
  | 0x064 => min (2 ^ 20 - 1) (s.replayBytes p)
  | _ => w

def liveRoute (s : State) (off w : Nat) : Nat :=
  if off = 0x044 then
    let d := s.fget routeP ROUTE.ROUTE_IDX_dest
    let vc := s.fget routeP ROUTE.ROUTE_IDX_vc
    let ps := s.routePorts d vc
    match s.routeOf d vc with
    | some p => p + s.routeWhich d vc % 4 * 2 ^ 8 + boolBit (!ps.any fun q => s.portCanCarry q) * 2 ^ 10
    | none => 0xFF
  else w

/-- A register's value over its stored word. -/
def liveWord (s : State) (port : Port) (ty : PageType) (i off w : Nat) : Nat :=
  match ty with
  | .module => s.liveModule port off w
  | .fuse => s.liveFuse off w
  | .ranger =>
    if off = 0x040 then setFd w RANGER.MBX_CMD_go (s.fget rangerP RANGER.MBX_STAT_busy)
    else if off = 0x06C then 0x58 + s.host.strap % 8
    else w
  | .pwr => s.livePwr off w
  | .clk => s.liveClk off w
  | .flash => w
  | .snap => s.liveSnap off w
  | .trail => s.liveTrail off w
  | .pcie => if off = 0x900 then (s.reg pcieP PCIE.MSIX_PEND_vec.off).toNat else w
  | .tseq => s.liveTseq i off w
  | .te => s.liveTe i off w
  | .ve => s.liveVe i off w
  | .dma => s.liveDma i off w
  | .spad => s.liveSpad i off w
  | .rng => s.liveUnit i .rng (s.flag (pageNum .rng i) RNG.PAGE_CTRL_quiesce) off w
  | .scale => s.liveScale i off w
  | .watch => s.liveWatch i off w
  | .scrub => w
  | .stk => s.liveStk i off w
  | .stkphy => s.liveStkphy i off w
  | .link => s.liveLink i off w
  | .pe => s.livePe i off w
  | .pech => s.livePech i off w
  | .pecal => s.livePecal i off w
  | .coll => s.liveColl off w
  | .norm => s.liveNorm off w
  | .plan => s.livePlan off w
  | .route => s.liveRoute off w

/-- PAGE_LOCK (16 R418). -/
def pageLock (s : State) (ty : PageType) : Nat :=
  boolBit (s.fuses.hostLock.getLsbD ty.group) + boolBit (s.fuses.mgmtLock.getLsbD ty.group) * 2 + ty.group * 2 ^ 8

/-- Whether a page is present with no capability (18 R457). -/
def inertPage (s : State) (ty : PageType) : Bool := decide (ty = .plan) && decide (s.member = .xsc1)

/-- What a register of a present page reads, before any effect of the read. -/
def lookReg (s : State) (port : Port) (ty : PageType) (i off : Nat) : Word :=
  if off = 0x000 then BitVec.ofNat 32 (0x01 + i * 2 ^ 8 + ty.code * 2 ^ 16)
  else if off = 0x020 then BitVec.ofNat 32 (s.pageLock ty)
  else if s.inertPage ty && !(decide (off = 0x018) || decide (off = 0x01C)) then 0
  else if (ty.row off).isSome then
    BitVec.ofNat 32 (s.liveWord port ty i off (s.reg (pageNum ty i) off).toNat)
  else 0

end State

/-- Bits of a register that show what the module measures and may be open: the locker's offset, and the levels of the monitors
(11 R271, R289, R299; notes/assumptions/19.md). -/
def PageType.openBits (ty : PageType) (off : Nat) : Nat :=
  match ty with
  | .pe => if off = 0x044 then 0x0000FF00 else if off = 0x070 then 0x0000FFFF else 0
  | .pech => if 0x100 ≤ off ∧ off < 0x200 ∧ off % 16 = 8 then 0xFFFFFFFF else 0
  | _ => 0

/-- Registers that count with time while their clock runs or their comb lases: stall, bank and TCLK cycles, lasing hours
(03 R95, 05 R134, 07 R201, 11 R299). -/
def PageType.grows (ty : PageType) (off : Nat) : Bool :=
  match ty with
  | .te | .ve => decide (off = 0x068) || decide (off = 0x06C)
  | .spad => decide (0x078 ≤ off) && decide (off < 0x088)
  | .pe => decide (off = 0x048) || decide (off = 0x04C)
  | _ => false

/-- Whether a read of a register may bring a value that the spec leaves open. -/
def PageType.measured (ty : PageType) (off : Nat) : Bool := decide (ty.openBits off ≠ 0) || ty.grows off

namespace State

/-- The open bits of a register now. An engine's locker measures only while its comb lases. -/
def openNow (s : State) (ty : PageType) (i off : Nat) : Nat :=
  let free (x : Option Nat) (m : Nat) : Nat := if x = none then m else 0
  match ty with
  | .pe =>
    if off = 0x044 then (if s.flag (peP i) PE.PAGE_STAT_lit then ty.openBits off else 0)
    else if off = 0x070 then free (s.monitor i (s.reg (peP i) 0x06C).toNat) (ty.openBits off)
    else 0
  | .pech =>
    if 0x100 ≤ off ∧ off < 0x200 ∧ off % 16 = 8 then
      free (s.chanMonitor i ((off - 0x100) / 16) 5) 0xFFFF + free (s.chanMonitor i ((off - 0x100) / 16) 7) 0xFFFF0000
    else 0
  | _ => 0

/-- A free value as a register shows it: the locker's offset stays within ±2.0 GHz (11 R271). -/
def openWord (ty : PageType) (off v : Nat) : Nat :=
  if ty = .pe ∧ off = 0x044 then (v % 41 + 236) % 256 * 256 else v

/-- A count that grows with time has come to some value, no lower than it was; how far it comes depends on timing that the
model leaves out (notes/assumptions/19.md). -/
def grow (s : State) (ty : PageType) (i off : Nat) : State :=
  if ty.grows off = false then s
  else if ty = .pe then
    let f := if off = 0x048 then PE.COMB_A_HOURS_hours else PE.COMB_B_HOURS_hours
    if s.flag (peP i) PE.PAGE_STAT_lit ∧ off = 0x048 + 4 * s.combSel i then
      (s.fset (peP i) f (max (s.fget (peP i) f) (s.freeVal % 2 ^ 32))).useFree
    else s
  else if s.domainOn ty i then
    let f : Fd := ⟨off / 8 * 8, 0, 32⟩
    (s.setPair (pageNum ty i) f (max (s.pair (pageNum ty i) f) s.freeVal)).useFree
  else s

/-- Reads a register's word: open bits are free values. -/
def readWord (s : State) (port : Port) (ty : PageType) (i off : Nat) : State × Word :=
  let s := s.grow ty i off
  let w := s.lookReg port ty i off
  let m := s.openNow ty i off
  if m = 0 then (s, w)
  else (s.useFree, (w &&& ~~~(BitVec.ofNat 32 m)) ||| (BitVec.ofNat 32 (openWord ty off s.freeVal) &&& BitVec.ofNat 32 m))

end State

end Sys2Proof.Machine
end

