-- ==== Sys2Proof/Machine/Flash.lean ====
section
/-!
DEFINITION. Host commands of module flash, and the census (16 R421 to R425), with the commands FLASH_CMD_DONE and
CENSUS_DONE.
-/
namespace Sys2Proof.Machine

/-! ### Partitions (R421) -/

/-- The partition of a flash block: 0 SYS, 1 BOOT, 2 TRAIL, 3 L2, 4 USER; 5 past the end. -/
def partitionOf (b : Nat) : Nat :=
  if b < 0x01000000 then 0 else if b < 0x01040000 then 1 else if b < 0x02000000 then 2 else if b < 0x09000000 then 3
  else if b < 0x80000000 then 4 else 5

/-- Whether a host command may touch a range of blocks: one partition that the host may read, or USER. -/
def flashAccess (op block count : Nat) : Bool :=
  let p := partitionOf block
  let q := partitionOf (block + (count - 1))
  decide (p = q) && (decide (p = 4) || (decide (op = 1) && decide (1 ≤ p) && decide (p ≤ 3)))

namespace State

def flashP : Nat := pageNum .flash 0

/-- What a host flash command must not touch in memory: queue rings, tensor-descriptor tables and capture regions. -/
def flashAvoid (s : State) : List (Nat × Nat) :=
  ((List.range (Member.tiles s.member)).flatMap fun t =>
    (s.pair (tseqP t) TSEQ.TD_BASE_LO_addr, 64 * s.fget (tseqP t) TSEQ.TD_COUNT_entries) ::
      (List.range 8).flatMap fun q =>
        (if s.inStack (s.qBase t q) (64 * s.qSlots t q) then [(s.qBase t q, 64 * s.qSlots t q)] else []) ++
          (if s.inStack (s.qSBase t q) (16 * s.qSlots t q) then [(s.qSBase t q, 16 * s.qSlots t q)] else [])) ++
    s.capEntries

/-- Whether a memory range serves a flash transfer (R422). -/
def flashMem (s : State) (a n : Nat) : Bool :=
  decide (a % 4096 = 0) && memRange s.member a n && s.flashAvoid.all fun e => capDisjoint (a, n) e

/-- The bytes of a flash block, with the poison its words carry; a block that cannot be corrected is all poison
(R423). -/
def flashBlock (s : State) (b : Nat) : Piece :=
  ⟨(List.range 4096).map fun i => s.flashByte (4096 * b + i),
   (List.range 512).map fun w => s.flash.dead.contains b || s.flash.bad.contains (512 * b + w)⟩

/-- Frees a block: it holds what a block nothing was written to holds. -/
def flashFree (s : State) (b : Nat) : State :=
  { s with flash := { s.flash with
      cells := s.flash.cells.filter fun c => decide (c.1 / 4096 ≠ b), bad := s.flash.bad.filter fun w => decide (w / 512 ≠ b),
      dead := s.flash.dead.filter fun d => decide (d ≠ b) } }

/-- READ: each block to memory (R422, R423). -/
def flashRead (s : State) (block addr : Nat) : Nat → State
  | 0 => s
  | n + 1 =>
    let bad := s.flash.dead.contains block
    let s := s.storeVia (fun i => addr + i) (s.flashBlock block)
    let s := if bad then
        ((s.count flashP FLASH.UC_CNT_count).errEvent .flash 0 0x94 block 0).event .flash 0 FLASH.PAGE_EVT_uc
      else s
    s.flashRead (block + 1) (addr + 4096) n

/-- WRITE: each block from memory, poisoned words as poisoned. -/
def flashStore (s : State) (block addr : Nat) : Nat → State
  | 0 => s
  | n + 1 =>
    let p := s.readVia (fun i => addr + i) 4096
    let s := ((s.touchVia (fun i => addr + i) 4096).flashFree block).wearFlash.flashWrite (4096 * block) p
    s.flashStore (block + 1) (addr + 4096) n

def flashTrim (s : State) (block : Nat) : Nat → State
  | 0 => s
  | n + 1 => (s.flashFree block).flashTrim (block + 1) n

/-- Ends a command with a code. -/
def flashEnd (s : State) (code : Nat) : State :=
  let s := (s.fset flashP FLASH.FC_STAT_busy 0).fset flashP FLASH.FC_STAT_code code
  ({ s with host := { s.host with flashCmd := none } }).event .flash 0 FLASH.PAGE_EVT_done

/-- FC_CMD.go with the operation of FC_CMD. A command whose range is not allowed ends at once; every other runs until
FLASH_CMD_DONE. -/
def flashGo (s : State) : State :=
  if s.flag flashP FLASH.FC_STAT_busy then s.ctrlIgnored .flash 0 FLASH.FC_CMD_go.off
  else
    let op := s.fget flashP FLASH.FC_CMD_op
    let b := s.fget flashP FLASH.FC_BLOCK_block
    let n := s.fget flashP FLASH.FC_COUNT_blocks
    let a := s.pair flashP FLASH.FC_ADDR_LO_addr
    let s := s.fset flashP FLASH.FC_DONE_blocks 0
    if op ≠ 4 ∧ flashAccess op b n = false then s.flashEnd 3
    else if op ≤ 2 ∧ s.flashMem a (4096 * n) = false then s.flashEnd 2
    else
      let s := s.fset flashP FLASH.FC_STAT_busy 1
      { s with host := { s.host with flashCmd := some ⟨op, b, n, a⟩ } }

/-- Whether the memory a command transfers accepts accesses (05 R136). -/
def flashOpen (s : State) (c : FlashCmd) : Bool :=
  decide (2 < c.op) || (List.range c.count).all fun i => s.memOpen (c.addr + 4096 * i)

/-- What a command does, and its end: a block that cannot be corrected on READ ends it with code 4 (R422, R423). -/
def flashRun (s : State) (c : FlashCmd) : State :=
  let hit := decide (c.op = 1) && (List.range c.count).any fun i => s.flash.dead.contains (c.block + i)
  let s := match c.op with
    | 1 => s.flashRead c.block c.addr c.count
    | 2 => s.flashStore c.block c.addr c.count
    | 3 => s.flashTrim c.block c.count
    | _ => s
  (s.fset flashP FLASH.FC_DONE_blocks (if c.op = 4 then 0 else c.count)).flashEnd (if hit then 4 else 0)

/-! ### The census (R425) -/

/-- A register's word as the ranger reads it. -/
def rangerWord (s : State) (ty : PageType) (i off : Nat) : Nat := (s.lookReg .ranger ty i off).toNat

/-- Consecutive words of a section from an offset on. -/
def wordsAt (off : Nat) (ws : List Nat) : List (Nat × Nat) := (List.range ws.length).zip ws |>.map fun x => (off + 4 * x.1, x.2)

/-- The header section: times, then the words of R425 in its order. -/
def censusHeader (s : State) : List Nat :=
  [0x43534E31, s.rangerWord .module 0 MODULE.CENSUS_GEN_count.off, s.pwrState, s.rangerWord .module 0 0x040,
   s.rangerWord .module 0 0x044, s.fget 0 MODULE.PAGE_STAT_coord_valid, s.epoch, s.fget 0 MODULE.FIREBREAK_state,
   s.rangerWord .module 0 0x080, s.rangerWord .module 0 0x048] ++
  [SNAP.LAST_CLR_LO_number.off, SNAP.LAST_CLR_LO_number.off + 4, SNAP.SECURE_LO_number.off, SNAP.SECURE_LO_number.off + 4,
   SNAP.PARTNER_SECURE_LO_number.off, SNAP.PARTNER_SECURE_LO_number.off + 4].map fun o => s.rangerWord .snap 0 o

/-- The register words of a tile's section. -/
def censusTile (s : State) (t : Nat) : List Nat :=
  [s.rangerWord .tseq t 0x00C] ++
  ((List.range 8).flatMap fun q => (List.range 13).map fun j => s.rangerWord .tseq t (0x100 + 0x40 * q + 4 * j)) ++
  [s.rangerWord .tseq t 0x040, s.rangerWord .tseq t 0x044, s.rangerWord .tseq t 0x048] ++
  ((List.range 4).flatMap fun e => [s.rangerWord .te (4 * t + e) 0x00C, s.rangerWord .te (4 * t + e) 0x040,
    s.rangerWord .te (4 * t + e) 0x044]) ++
  [s.rangerWord .ve t 0x00C, s.rangerWord .ve t 0x04C, s.rangerWord .ve t 0x050] ++
  [s.rangerWord .dma t 0x00C, s.rangerWord .dma t 0x040, s.rangerWord .dma t 0x044]

/-- A context's 64 bytes: VC, sequence, bucket, sub-operation, group, position, state, and the peer it waits for. -/
def censusCtx (s : State) (c : Ctx) : List Nat :=
  let g := match s.occ c.occ with | some o => o.aux.getD 4 0 | none => 0
  let wait := match c.ins.find? fun i => !i.arrived with | some i => i.rank | none => 0xFFFF
  let st := if c.done then 3 else if c.closed then 2 else if c.started then 1 else 0
  [c.vc, c.seq, c.bucket, c.sub, g, c.pos, st, wait]

/-- The context of a remote SIGNAL that waits for its acknowledgement (10 R257). -/
def censusSig (o : Occ) : List Nat := [1, o.id, 0, 0, 0xFFFF, 0, 1, o.f 192 16]

def censusLink (s : State) (l : Nat) : List Nat :=
  [s.rangerWord .link l 0x00C] ++ ((List.range 16).map fun k => s.rangerWord .link l (0x100 + 4 * k)) ++
    (List.range 16).map fun k => s.rangerWord .pech l (0x104 + 16 * k)

/-- A port's words: PORT_STAT and PORT_REPLAY as PORT_IDX would show them, and the peer. -/
def censusPort (s : State) (p : Nat) : List Nat :=
  [(s.txUp p).length % 128 + (s.rxUp p).length % 128 * 2 ^ 8 + boolBit (s.portOf p).down * 2 ^ 16, s.replayBytes p,
   (s.portPeer p).getD 0]

def censusLast (s : State) : List Nat :=
  [s.rangerWord .pwr 0 0x00C] ++ ([PWR.WAKE_REC0_source.off, PWR.WAKE_REC1_seconds.off, PWR.WAKE_REC2_us10.off].map fun o =>
    s.rangerWord .pwr 0 o) ++ [s.rangerWord .clk 0 0x00C, s.rangerWord .snap 0 0x00C] ++
  [TRAIL.HEAD_LO_bytes.off, TRAIL.HEAD_LO_bytes.off + 4, TRAIL.KEEP_LO_bytes.off, TRAIL.KEEP_LO_bytes.off + 4,
   TRAIL.FLUSHED_LO_bytes.off, TRAIL.FLUSHED_LO_bytes.off + 4].map fun o => s.rangerWord .trail 0 o

/-- A census's sections with their offsets. Each begins with the times of its first and last read; R425 gives the
sections' places and what they hold in order, the model packs the words of a section one after another (semaphores at
their stated place; a context's words from the third of its 64 bytes' words on, port p's in the place of 16 bytes after p
others and the header; notes/assumptions/63.md). -/
def censusWords (s : State) (began : Nat) : List (Nat × Nat) :=
  let m := s.member
  let sec (off : Nat) (ws : List Nat) : List (Nat × Nat) := wordsAt off ([began % 2 ^ 32, s.now % 2 ^ 32] ++ ws)
  let head := wordsAt 0 ((s.censusHeader.take 1) ++ [began % 2 ^ 32, s.now % 2 ^ 32] ++ s.censusHeader.drop 1)
  let tiles := (List.range (Member.tiles m)).flatMap fun t =>
    sec (0x1000 + 0x10000 * t) (s.censusTile t) ++
      wordsAt (0x2000 + 0x10000 * t) ((List.range 4096).map fun n => s.sem t n)
  let recs := s.coll.ctxs.map s.censusCtx ++ s.sigWaiting.map censusSig
  let ctxs := (recs.zip (List.range 512)).flatMap fun x => wordsAt (0x81008 + 64 * x.2) x.1
  let links := ((List.range 40).filter fun l => Member.link m l).flatMap fun l => sec (0x89000 + 512 * l) (s.censusLink l)
  let ports := (List.range 255).flatMap fun p =>
    match s.portEntry p with | some _ => wordsAt (0x8E010 + 16 * p) (s.censusPort p) | none => []
  head ++ tiles ++ sec 0x81000 [] ++ ctxs ++ links ++ (if m = .xsc1 then [] else sec 0x8E000 []) ++ ports ++ sec 0x8F000 s.censusLast

/-- Writes the census's MiB: zeros, then the sections' words. -/
def writeCensus (s : State) (base began : Nat) : State :=
  let ws := s.censusWords began
  let clear (c : Host.Cell) : Bool := decide (c.1 < base) || decide (base + 2 ^ 20 ≤ c.1)
  let fresh (c : Nat × BitVec 16) : Bool := decide (c.1 < base) || decide (base + 2 ^ 20 ≤ c.1)
  let mem : MemSt := { s.mem with
    cells := s.mem.cells.filter clear, chk := s.mem.chk.filter fresh,
    corrq := s.mem.corrq.map fun e => if base ≤ e.addr ∧ e.addr < base + 2 ^ 20 then { e with stale := true } else e }
  let s : State := { s with mem := mem }
  ws.foldl (fun (s : State) w => s.store (wbytes (base + w.1) w.2 false 4))
    ((s.stackBytes STK.STK_WR_BYTES_LO_count base (2 ^ 20)).crossFabric [(base, 2 ^ 20)])

/-- The start of a census. -/
def censusGo (s : State) : State :=
  if s.flag 0 MODULE.PAGE_STAT_census_busy then s.ctrlIgnored .module 0 MODULE.CENSUS_CTRL_go.off
  else
    let base := s.pair 0 MODULE.CENSUS_BASE_LO_addr
    let good := match region s.member base, region s.member (base + (2 ^ 20 - 1)) with
      | .stack j _, .stack k _ => decide (j = k) && decide (base % 2 ^ 20 = 0)
      | _, _ => false
    if 2 ≤ s.pwrState then s.fset 0 MODULE.CENSUS_STAT_code 3
    else if good = false then s.fset 0 MODULE.CENSUS_STAT_code 2
    else
      let s := (s.fset 0 MODULE.CENSUS_STAT_code 1).fset 0 MODULE.PAGE_STAT_census_busy 1
      { s with host := { s.host with census := some s.now } }

/-- The end of a census: the layout is written whole. -/
def censusDone (s : State) (began : Nat) : State :=
  let s := s.writeCensus (s.pair 0 MODULE.CENSUS_BASE_LO_addr) began
  let s : State := { s with host := { s.host with census := none } }
  let s := (s.fset 0 MODULE.PAGE_STAT_census_busy 0).fset 0 MODULE.CENSUS_STAT_code 0
  let s := (s.addWrap 0 MODULE.CENSUS_GEN_count 1).setReg 0 MODULE.CENSUS_US_us.off (BitVec.ofNat 32 (s.now - began))
  s.event .module 0 MODULE.PAGE_EVT_census_done

end State

/-- FLASH_CMD_DONE (R422): the command in progress takes effect and ends. -/
def execFlashCmdDone (s : State) : Host.Outcome State Fault Refusal :=
  match s.host.flashCmd with
  | some c => .next (if s.flashOpen c && s.domainOn .flash 0 then s.start.flashRun c else s.start)
  | none => .next s.start

/-- CENSUS_DONE (R425). -/
def execCensusDone (s : State) : Host.Outcome State Fault Refusal :=
  match s.host.census with
  | some began =>
    .next (if s.memOpen (s.pair 0 MODULE.CENSUS_BASE_LO_addr) then s.start.censusDone began else s.start)
  | none => .next s.start

end Sys2Proof.Machine
end

