-- ==== Sys2Proof/Machine/Boot.lean ====
section
/-!
DEFINITION. Start-up stages, the fuse check, resets of the PCIe controller and the latch (16 R406, R412 to R417;
17 R439, R440), with the commands BOOT_STAGE_DONE, FUSE_CHECK, PCIE_RESET, LATCH_SENSOR_OPEN and LATCH_SENSOR_CLOSE.
-/
namespace Sys2Proof.Machine
namespace State

def bootStage (s : State) : Nat := s.fget 0 MODULE.BOOT_STAT_stage
def ready (s : State) : Bool := s.flag 0 MODULE.PAGE_STAT_ready
def latchClosed (s : State) : Bool := s.flag 0 MODULE.SVC_STAT_latch

/-- Whether a start-up is in progress. -/
def booting (s : State) : Bool :=
  s.pwr.powered && !s.ready && decide (s.pwrState = 0) && !s.flag 0 MODULE.BOOT_STAT_fail

/-- Whether a stage may end now: stages follow one another, but OPTICS runs beside MEMORY and ENGINES, and LOOPBACK needs
both; a start-up waits after FIRMWARE while the latch is open (R412, R440). -/
def stageMay (s : State) (stage : Nat) : Bool :=
  let f := s.bootStage
  s.booting &&
    (if stage = 7 then decide (4 ≤ f) && decide (f ≤ 6) && !s.flag 0 MODULE.BOOT_STAT_optics
     else if stage = 8 then decide (f = 7)
     else decide (1 ≤ stage) && decide (stage ≤ 10) && decide (f + 1 = stage) && (decide (stage ≠ 4) || s.latchClosed))

/-- The stage shown once ENGINES and OPTICS have both ended is 0x07. -/
def showStage (s : State) (stage : Nat) : State :=
  let s := if stage = 7 then s.fset 0 MODULE.BOOT_STAT_optics 1 else s.fset 0 MODULE.BOOT_STAT_stage stage
  if s.bootStage = 6 ∧ s.flag 0 MODULE.BOOT_STAT_optics = true then s.fset 0 MODULE.BOOT_STAT_stage 7 else s

/-- OPTICS: combs are tested and lase, rings sweep, the mesh is calibrated; failed lines are set and a ring that fails
retires its side (R412; 11 R272, R288). Why a side retired has no code for a calibration that failed. -/
def stageOptics (s : State) (b : BootInfo) : State :=
  let s := (s.testCombs b.combs).opticsService
  let s := s.engines.foldl (fun (s : State) p => s.calibrated p (!b.meshes.contains p)) s
  let s := b.lines.foldl (fun (s : State) x => if Member.pe s.member x.1 ∧ x.2 < 64 then s.lineFail x.1 x.2 else s) s
  b.rings.foldl (fun (s : State) x =>
    if s.chanOk x.1 x.2.1 then (s.retire x.1 x.2.1 x.2.2 (s.freeVal % 4)).useFree else s) s

/-- The boot record but its candidates (R416): BOOT_STAT with the firmware slot, the firmware version, the wake record, the
stage times, the outcome words of the units and the repairs in force, with the numbers of each. Only what it holds is the
spec's; how it is laid out is the model's (notes/assumptions/101.md). -/
def bootRecord (s : State) (b : BootInfo) : List Nat :=
  let ws := [s.rangerWord .module 0 0x048, s.rangerWord .module 0 0x050, s.rangerWord .pwr 0 PWR.WAKE_REC0_source.off,
    s.rangerWord .pwr 0 PWR.WAKE_REC1_seconds.off, s.rangerWord .pwr 0 PWR.WAKE_REC2_us10.off, b.ms, s.host.stageMs.length,
    b.units.length, s.mem.lineFix.length, s.mem.rowFix.length] ++
    (s.host.stageMs.flatMap fun x => [x.1, x.2]) ++ b.units ++ s.mem.lineFix ++
    s.mem.rowFix.flatMap fun x => rowWords x.1 ++ [x.2.toNat]
  wordBytes ws

/-- RECORD: one of 16 places of the BOOT partition in turn; BOOT_REC names its first block (R416). The XSC-1-72 keeps the 16
latest in its card's own boot flash. -/
def stageRecord (s : State) (b : BootInfo) : State :=
  if s.member = .xsc1 then
    ({ s with host := { s.host with card := ((s.bootRecord b, []) :: s.host.card).take 16 } } : State).saveCands
  else
    let last := s.fget flashP FLASH.BOOT_REC_block
    let n := if last = 0 then 0 else ((last - 0x01000000) / (bootSlotBytes / 4096) + 1) % 16
    let at' := 0x01000000 * 4096 + n * bootSlotBytes
    let mine (a : Nat) : Bool := decide (at' ≤ a) && decide (a < at' + bootSlotBytes)
    let s : State := { s with flash := { s.flash with
      cells := s.flash.cells.filter fun c => !mine c.1, bad := s.flash.bad.filter fun w => !mine (8 * w),
      dead := s.flash.dead.filter fun b => !mine (4096 * b) } }
    ((s.wearFlash.flashWrite at' ⟨s.bootRecord b, []⟩).fset flashP FLASH.BOOT_REC_block (at' / 4096)).saveCands

/-- READY. -/
def stageReady (s : State) (b : BootInfo) : State :=
  let s := (s.setReg 0 MODULE.BOOT_TIME_ms.off (BitVec.ofNat 32 b.ms)).fset 0 MODULE.PAGE_STAT_ready 1
  s.event .module 0 MODULE.PAGE_EVT_ready

/-- RAILS: the line repairs of the fuses, those in force before and the candidates take spare lines (05 R131, R412). -/
def repairLines (s : State) : State :=
  let x := fixLines [] (s.fuses.repairLines ++ s.mem.lineFix ++ s.mem.lineCand)
  { s with mem := { s.mem with lineFix := x.1, lineCand := x.2 } }

/-- One post-package repair. Which of the two kinds replaces a row is left open: a free value (05 R127,
notes/assumptions/101.md). -/
def repairRow (s : State) (r : Nat) : State :=
  if s.mem.rowFix.any fun x => decide (x.1 = r) then s
  else { s.useFree with mem := { s.mem with rowFix := s.mem.rowFix ++ [(r, decide (s.freeVal % 2 = 1))] } }

/-- MEMORY: post-package repair of the rows of the fuses, then of the candidates (05 R127, R131). -/
def repairRows (s : State) : State :=
  let s' := (s.fuses.repairRows ++ s.mem.rowCand).foldl (fun (s : State) r => s.repairRow r) s
  { s' with mem := { s'.mem with rowCand := [] } }

/-- A spare line that fails the march test becomes a repair candidate (R412). -/
def spareFails (s : State) (x : Nat × Nat) : State :=
  if 8 ≤ x.1 ∨ 4096 ≤ x.2 ∨ s.mem.lineCand.contains (spareKey x.1 x.2) then s
  else
    let s := ({ s with mem := { s.mem with lineCand := s.mem.lineCand ++ [spareKey x.1 x.2] } } : State).saveCands
    if x.1 < Member.tiles s.member then
      ((s.errEvent .spad x.1 0x83 s.freeVal 0).useFree).event .spad x.1 SPAD.PAGE_EVT_repair_cand
    else s

/-- What a stage does when it ends well. -/
def stageWork (s : State) (stage : Nat) (b : BootInfo) : State :=
  match stage with
  | 1 => ((s.writeWake 0 1 false 0 0).addSat 0 MODULE.BOOT_STAT_starts 1).showStage 1
  | 2 =>
    let s := (s.chooseRef b.ref).addWrap (pageNum .fuse 0) FUSE.INTEG_CNT_count 1
    let s : State := { s with pwr := { s.pwr with pwrOk := true } }
    s.trainPcie.showStage 2
  | 3 =>
    let s := (s.showStage 3).pickFirmware
    { s with svc := { s.svc with waits := !s.latchClosed && !s.flag 0 MODULE.BOOT_STAT_fail } }
  | 4 => s.repairLines.showStage 4
  | 5 => ((b.spares.foldl (fun (s : State) x => s.spareFails x) s).repairRows.memService true).showStage 5
  | 7 => (s.stageOptics b).showStage 7
  | 9 => (s.stageRecord b).showStage 9
  | 10 => (s.showStage 10).stageReady b
  | n => s.showStage n

/-- A stage ends well: its time goes into the boot record (R416), then what it does. -/
def stageDone (s : State) (stage : Nat) (b : BootInfo) : State :=
  ({ s with host := { s.host with stageMs := s.host.stageMs ++ [(stage, b.ms)] } } : State).stageWork stage b

/-- A start-up stops at a stage: the stage is kept, ready stays 0. A fuse check that fails clears INTEG.ok (R417). -/
def stageFails (s : State) (stage : Nat) : State :=
  let s := (s.fset 0 MODULE.BOOT_STAT_stage stage).fset 0 MODULE.BOOT_STAT_fail 1
  if stage = 2 then s.fset (pageNum .fuse 0) FUSE.INTEG_ok 0 else s

/-! ### Resets of the PCIe controller (R406) -/

/-- The MSI-X table, WIN_BASE and the BAR2 size. -/
def pcieConfig (off : Nat) : Bool :=
  decide (off = 0x044) || decide (off = 0x048) || decide (off = 0x04C) || decide (off = 0x068) ||
    (decide (0x800 ≤ off) && decide (off < 0xA00))

def pcieReset (s : State) (k : PcieReset) : State :=
  let gone (key : Nat) : Bool := decide (key / 4096 = pcieP) && pcieConfig (key % 4096)
  let staged := if k = .perst then s.rf.staged.filter fun x => decide (x.1 % 3 ≠ 0) else s.rf.staged
  let s : State := { s with rf := { s.rf with cells := s.rf.cells.filter fun c => !gone c.1, staged := staged } }
  let f := match k with
    | .perst => PCIE.RESET_CNT_perst | .hot => PCIE.RESET_CNT_hot | .linkDown => PCIE.RESET_CNT_hot
    | .flr => PCIE.RESET_CNT_flr
  let s := (s.addWrap pcieP f 1).event .pcie 0 PCIE.PAGE_EVT_reset
  if k = .flr then s else (s.event .pcie 0 PCIE.PAGE_EVT_link_down).trainPcie

/-- Whether the PCIe controller is up: released in stage 0x02, powered in RUN, IDLE and SLEEP. -/
def pcieUp (s : State) : Bool := s.pwr.powered && decide (2 ≤ s.bootStage) && decide (s.pwrState ≤ 2)

/-! ### The latch (17 R439, R440) -/

/-- Combs and rings go dark. -/
def darken (s : State) : State :=
  s.engines.foldl (fun (s : State) p =>
    let s := s.fset (peP p) PE.PAGE_STAT_lit 0
    (linksOf p).foldl (fun (s : State) l => (List.range 16).foldl (fun (s : State) k =>
      (s.sideDark l k false).sideDark l k true) s) s) s

/-- A start-up whose lasers may be up returns to its wait before them. -/
def unlight (s : State) : State := (s.darken.fset 0 MODULE.BOOT_STAT_stage 3).fset 0 MODULE.BOOT_STAT_optics 0

/-- Whether the module is in RUN or IDLE, or moving between RUN, IDLE and SLEEP. -/
def inService (s : State) : Bool :=
  s.ready && (if s.pwrMoving then decide (s.pwrState ≤ 2) && decide (s.pwrTarget ≤ 2) else decide (s.pwrState ≤ 1))

/-- The open sensor trips. A start-up or an exit from DEEP raises nothing: it waits, its combs dark (R440). So does every
other state but RUN and IDLE, and those with the module indicator steady blue (R439). -/
def latchOpens (s : State) : State :=
  let steadyBlue := decide (s.moduleColour = (3, false))
  let s' := s.fset 0 MODULE.SVC_STAT_latch 0
  if s.booting then
    if 3 ≤ s.bootStage then
      let s' := if 4 ≤ s.bootStage then s'.unlight else s'
      { s' with svc := { s'.svc with waits := true } }
    else s'
  else if 1 ≤ s.svc.exit then
    let s' := if s.svc.exit = 2 then s'.darken.fset 0 MODULE.BOOT_STAT_optics 0 else s'
    { s' with svc := { s'.svc with waits := true, exit := 1 } }
  else if s.inService && !steadyBlue then
    (noteShutters s (s'.fatal .module 0 0xC8 0)).svcEvent MODULE.SVC_EVT_latch_open
  else s'

end State

/-- BOOT_STAGE_DONE (R412). -/
def execBootStageDone (stage : Nat) (b : BootInfo) (s : State) : Host.Outcome State Fault Refusal :=
  .next (if s.stageMay stage then (if b.ok then s.start.stageDone stage b else s.start.stageFails stage) else s.start)

/-- FUSE_CHECK (R417): every 10 s in RUN and IDLE. -/
def execFuseCheck (ok : Bool) (s : State) : Host.Outcome State Fault Refusal :=
  .next (if s.ready ∧ s.pwrState ≤ 1 then
      let s := (s.start.addWrap (pageNum .fuse 0) FUSE.INTEG_CNT_count 1).fset (pageNum .fuse 0) FUSE.INTEG_ok ok.toNat
      if ok then s else s.fatal .fuse 0 0xC7 0
    else s.start)

/-- PCIE_RESET (R406). -/
def execPcieReset (kind : PcieReset) (s : State) : Host.Outcome State Fault Refusal :=
  .next (if s.pcieUp then s.start.pcieReset kind else s.start)

/-- LATCH_SENSOR_OPEN (17 R439, R440). The XSC-1-72 has no latch of this manual. -/
def execLatchSensorOpen (s : State) : Host.Outcome State Fault Refusal :=
  .next (if s.member ≠ .xsc1 ∧ s.latchClosed = true then s.start.latchOpens else s.start)

/-- LATCH_SENSOR_CLOSE (17 R439, R440): a held start-up or exit continues, an exit at its step 6. -/
def execLatchSensorClose (s : State) : Host.Outcome State Fault Refusal :=
  .next (if s.member ≠ .xsc1 then
      let s := s.start.fset 0 MODULE.SVC_STAT_latch 1
      let s : State := { s with svc := { s.svc with waits := false } }
      if s.svc.exit = 1 ∧ s.host.recovery = false then s.exitLit else s
    else s.start)

end Sys2Proof.Machine
end

