-- ==== Sys2Proof/Machine/Service.lean ====
section
/-!
DEFINITION. The service face and the stack PHYs: parks (17 R435 to R438, R444) and interface checks (18 R465), with the
commands SERVICE_BUTTON, PARK_FENCE, PARK_TIMEOUT, PHY_CHECK and PHY_RETRAIN_DONE.
-/
namespace Sys2Proof.Machine
namespace State

/-! ### Parks -/

/-- Whether a module takes part in a job's heartbeats; the XSC-1-72 parks as one that does not (R445). -/
def inJob (s : State) : Bool := s.flag snapP SNAP.HB_CFG_en && decide (s.member ≠ .xsc1)

/-- Whether no queue is active and no collective context is open (R437). -/
def nothingInFlight (s : State) : Bool :=
  s.coll.ctxs.isEmpty &&
    (List.range (Member.tiles s.member)).all fun t => (List.range 8).all fun q => s.qIdle t q

/-- What stands in a port's queues leaves, as far as its channels and its credit let it. -/
def flushPort (s : State) (p : Nat) : State :=
  let x := s.portOf p
  (List.range (x.ctrl.length + x.waiting.length + x.replay.length)).foldl (fun (s : State) _ => s.transmit p) s

/-- Steps 5 and 6 (R436): heartbeats stop, the tree neighbours are told, collectives end with their ABORTs, and once these
frames have left, combs go to bias and shutters close. -/
def parkNow (s : State) (notice plain : Bool) : State :=
  let old := s
  let s := s.fset snapP SNAP.HB_CFG_en 0
  let s := (if notice then s.parkNotices else s).endCtxs (fun _ => true) stAborted 0 (fun _ => 0)
  let s := (s.net.ports.map fun x => x.1).foldl (fun (s : State) p => s.flushPort p) s
  let s := s.engines.foldl (fun (s : State) p => (s.holdEngine p).fset (peP p) PE.PAGE_STAT_lit 0) s
  let s := s.fset 0 MODULE.SVC_STAT_park_state 3
  let s : State := { s with svc := { s.svc with plain := plain }, snap := { s.snap with parkDone := false } }
  (noteShutters old s).svcEvent MODULE.SVC_EVT_blue

/-- A park is requested: step 1, and with nothing to wait for the rest at once (R436, R437); during a plan load or a restore
it waits for the next CLEARING (R444). -/
def parkRequest (s : State) : State :=
  let s := (s.fset snapP SNAP.PAGE_STAT_park 1).fset 0 MODULE.SVC_STAT_park_state 1
  let s := s.svcEvent MODULE.SVC_EVT_park_requested
  if !s.inJob && s.nothingInFlight && decide (s.net.stage = 0) && s.snap.restore.isNone then s.parkNow false true else s

/-- Whether a park may be requested: in RUN or IDLE, ready, the firebreak open, none requested (R435, R444). -/
def mayPark (s : State) : Bool :=
  s.ready && decide (s.pwrState ≤ 1) && decide (s.fget 0 MODULE.FIREBREAK_state = 0) && decide (s.parkState = 0)

/-- Ends a park that has no clearing under way. -/
def leavePark (s : State) : State :=
  ((s.fset snapP SNAP.PAGE_STAT_park 0).fset 0 MODULE.SVC_STAT_park_state 0).setHold 4 false

/-- Cancels a park before its clearing reaches phase 1 (R435). -/
def cancelPark (s : State) : State :=
  if s.parkState = 1 then s.leavePark.svcEvent MODULE.SVC_EVT_cancel else s

/-- Leaves a park made without a clearing (R438). -/
def unpark (s : State) : State :=
  if s.parkState = 3 ∧ s.svc.plain = true then
    let s := s.leavePark
    let s : State := { s with svc := { s.svc with plain := false } }
    s.lightEngines
  else s.ctrlIgnored .module 0 MODULE.SVC_CTRL_unpark.off

/-- A write of SVC_CTRL (R445). -/
def svcWrite (s : State) (v : Nat) : State :=
  let s := (s.fset 0 MODULE.SVC_CTRL_button_en (natBits v 3 1)).fset 0 MODULE.SVC_CTRL_locate (natBits v 4 1)
  let s := if natBits v 0 1 = 1 ∧ s.mayPark = true then s.parkRequest else s
  let s := if natBits v 1 1 = 1 then s.cancelPark else s
  if natBits v 2 1 = 1 then s.unpark else s

/-! ### Stack PHYs (R465) -/

def phyP (k : Nat) : Nat := pageNum .stkphy k
def phyTraining (s : State) (k : Nat) : Bool := s.flag (phyP k) STKPHY.PAGE_STAT_training
def phyFailsOf (s : State) (k : Nat) : Nat := sparseGet (fun _ => 0) s.host.phyFails k
def setPhyFails (s : State) (k n : Nat) : State :=
  { s with host := { s.host with phyFails := sparsePut (fun _ => 0) k n s.host.phyFails } }

/-- Whether a stack's interface is trained, on both of its pages. -/
def setTrained (s : State) (k v : Nat) : State :=
  (s.fset (phyP k) STKPHY.PAGE_STAT_trained v).fset (stkP k) STK.PAGE_STAT_trained v

/-- A retrain starts. -/
def phyRetrain (s : State) (k : Nat) : State :=
  ((s.setTrained k 0).fset (phyP k) STKPHY.PAGE_STAT_training 1).count (phyP k) STKPHY.PHY_RETRAIN_CNT_count

/-- soft_reset: a retrain, accepted only while the stack is quiesced; absorbed while the bit still reads 1. A retrain that a
check began starts again (R451, R465). -/
def phyReset (s : State) (k : Nat) : State :=
  if s.flag (stkP k) STK.PAGE_CTRL_quiesce = false then s.ctrlIgnored .stkphy k STKPHY.PAGE_CTRL_soft_reset.off
  else if s.flag (phyP k) STKPHY.PAGE_CTRL_soft_reset then s
  else (s.fset (phyP k) STKPHY.PAGE_CTRL_soft_reset 1).phyRetrain k

/-- A retrain ends; one that does not pass is repeated at once, and the third failure in succession loses the stack. -/
def phyDone (s : State) (k : Nat) (ok : Bool) (us : Nat) : State :=
  let s := s.noteTraining k us
  let ended (s : State) : State :=
    (s.fset (phyP k) STKPHY.PAGE_STAT_training 0).fset (phyP k) STKPHY.PAGE_CTRL_soft_reset 0
  if ok then
    let s := (((ended s).setTrained k 1).setPhyFails k 0).event .stkphy k STKPHY.PAGE_EVT_trained
    (s.drainSnap s.snap.inbox).topUpVc 7
  else
    let n := s.phyFailsOf k + 1
    let s := s.event .stkphy k STKPHY.PAGE_EVT_train_fail
    if 3 ≤ n then ((ended s).setPhyFails k 0).fatal .stk k 0xC5 k else (s.setPhyFails k n).phyRetrain k

end State

/-- SERVICE_BUTTON (R435, R444): a press held for 2 s requests a park, or cancels one; in SLEEP and DEEP, and with the
firebreak closed, it is ignored. The button reads held until time goes on (DESIGN CHOICE, notes/assumptions/64.md). The
XSC-1-72 has no service button of this manual. -/
def execServiceButton (s : State) : Host.Outcome State Fault Refusal :=
  .next (if s.member = .xsc1 then s.start
    else
      let s := s.start.fset 0 MODULE.SVC_STAT_button 1
      if s.flag 0 MODULE.SVC_CTRL_button_en = false then s
      else if s.mayPark then (s.svcEvent MODULE.SVC_EVT_button).parkRequest
      else if s.parkState = 1 ∧ s.fireClosed = false ∧ s.pwrState ≤ 1 then
        (s.svcEvent MODULE.SVC_EVT_button).cancelPark
      else s)

/-- PARK_FENCE (R436 steps 4 to 6). -/
def execParkFence (s : State) : Host.Outcome State Fault Refusal :=
  .next (if s.parkState = 2 ∧ s.snap.parkDone = true then s.start.parkNow true false else s.start)

/-- PARK_TIMEOUT (R436). -/
def execParkTimeout (s : State) : Host.Outcome State Fault Refusal :=
  .next (if s.parkState = 1 then s.start.leavePark.svcEvent MODULE.SVC_EVT_park_timeout else s.start)

/-- PHY_CHECK (R465): every 100 ms in RUN and IDLE. -/
def execPhyCheck (stack : Nat) (ok : Bool) (s : State) : Host.Outcome State Fault Refusal :=
  .next (if stack < Member.stacks s.member ∧ s.pwrState ≤ 1 ∧ s.domainOn .stkphy stack = true ∧
      s.flag (State.phyP stack) STKPHY.PAGE_STAT_trained = true then
      let s := s.start.addWrap (State.phyP stack) STKPHY.PHY_CHECK_CNT_count 1
      if ok then s
      else ((s.count (State.phyP stack) STKPHY.PHY_FAIL_CNT_count).phyRetrain stack).event .stkphy stack
        STKPHY.PAGE_EVT_retrain
    else s.start)

/-- PHY_RETRAIN_DONE (R465). -/
def execPhyRetrainDone (stack : Nat) (ok : Bool) (us : Nat) (s : State) : Host.Outcome State Fault Refusal :=
  .next (if stack < Member.stacks s.member ∧ s.phyTraining stack = true ∧ s.domainOn .stkphy stack = true then s.start.phyDone stack ok us else s.start)

end Sys2Proof.Machine
end

