-- ==== Sys2Proof/Machine/Write.lean ====
section
/-!
DEFINITION. What a 4-byte write of a register does once it reaches its page: locks, ranges, staged pairs and the write
rules of every page (16 R411, R419, R420; 18 R447 to R459 and the block tables).
-/
namespace Sys2Proof.Machine

def portNum : Port → Nat | .pcie => 0 | .mgmt => 1 | .ranger => 2

/-- Whether an offset is the low, or the high, half of a pair of its page. -/
def PageType.pairLow (ty : PageType) (off : Nat) : Bool := ty.pairLows.contains (ty.canon off)
def PageType.pairHigh (ty : PageType) (off : Nat) : Bool := decide (4 ≤ ty.canon off) && ty.pairLows.contains (ty.canon off - 4)

/-- The RW bits of a register. -/
def PageType.rwBits (ty : PageType) (off : Nat) : Nat := match ty.row off with | some r => r.rw | none => 0

/-- Whether a value is outside a stated range (R455). -/
def RegRow.outside (r : RegRow) (v : Nat) : Bool :=
  r.ranges.any fun x => decide (natBits v x.1 x.2.1 < x.2.2.1) || decide (x.2.2.2 < natBits v x.1 x.2.1)

namespace State

/-! ### Latches and staged halves (R458, R459) -/

def portKey (port : Port) (page off : Nat) : Nat := 3 * regKey page off + portNum port
def stagedOf (s : State) (port : Port) (page off : Nat) : Option Word :=
  sparseGet (fun _ => none) s.rf.staged (portKey port page off)
def setStaged (s : State) (port : Port) (page off : Nat) (v : Option Word) : State :=
  { s with rf := { s.rf with staged := sparsePut (fun _ => none) (portKey port page off) v s.rf.staged } }
def pairLatch (s : State) (port : Port) (page off : Nat) : Option Word :=
  (s.rf.latches.find? fun x => decide (x.1 = portKey port page off)).map (·.2)
def setPairLatch (s : State) (port : Port) (page off : Nat) (v : Option Word) : State :=
  let k := portKey port page off
  { s with rf := { s.rf with latches := match v with
      | some w => sparseInsert k w (sparseErase k s.rf.latches)
      | none => sparseErase k s.rf.latches } }

/-! ### Plain writes -/

/-- The RW bits take the written value, W1C bits written 1 clear; every other bit stays. -/
def plainWrite (s : State) (ty : PageType) (i off v : Nat) : State :=
  match ty.row off with
  | some r =>
    let old := s.reg (pageNum ty i) off
    let rw := BitVec.ofNat 32 r.rw
    let clr := BitVec.ofNat 32 r.w1c &&& BitVec.ofNat 32 v
    s.setReg (pageNum ty i) off (((old &&& ~~~rw) ||| (BitVec.ofNat 32 v &&& rw)) &&& ~~~clr)
  | none => s

/-- A pair's plain write. -/
def plainPair (s : State) (ty : PageType) (i low lo hi : Nat) : State :=
  (s.plainWrite ty i low lo).plainWrite ty i (low + 4) hi

/-- A write of PAGE_EVT_EN: an enable set over a set event bit raises the vector at once (R452). -/
def evtEnWrite (s : State) (ty : PageType) (i v : Nat) : State :=
  let page := pageNum ty i
  let old := s.reg page 0x014
  let s := s.plainWrite ty i 0x014 v
  if s.reg page 0x014 &&& ~~~old &&& s.reg page 0x010 = 0 then s else s.raiseVector (ty.vector i)

/-- A write of SVC_EVT_EN follows R452 (17 R445). -/
def svcEnWrite (s : State) (v : Nat) : State :=
  let old := s.reg 0 0x0E0
  let s := s.plainWrite .module 0 0x0E0 v
  if s.reg 0 0x0E0 &&& ~~~old &&& s.reg 0 0x0DC = 0 then s else s.raiseVector 0

/-! ### Debug (16 R420) -/

def fuseP : Nat := pageNum .fuse 0
def dbgRefuse (s : State) (err : Nat) : State :=
  ((s.fset fuseP FUSE.DBG_STAT_state 3).fset fuseP FUSE.DBG_STAT_err err).event .fuse 0 FUSE.PAGE_EVT_dbg_refused

/-- DBG_REQ.go. -/
def dbgRequest (s : State) : State :=
  let scope := s.fget fuseP FUSE.DBG_REQ_scope
  let s : State := { s with host := { s.host with chal := none, resp := [] } }
  if s.fuses.dbgOff then s.dbgRefuse 1
  else if scope = 2 ∧ (s.collQuiesced = false ∨ s.flag snapP SNAP.HB_CFG_en = true) then s.dbgRefuse 4
  else
    let words := Config.debugChallenge s.host.chals
    let s : State := { s with host := { s.host with chal := some (words, scope, s.now), chals := s.host.chals + 1 } }
    (s.fset fuseP FUSE.DBG_STAT_state 1).fset fuseP FUSE.DBG_STAT_err 0

/-- DBG_SUBMIT.go. -/
def dbgSubmit (s : State) : State :=
  match s.host.chal with
  | none => s
  | some (words, scope, at') =>
    let resp := (List.range 24).map fun k => sparseGet (fun _ => (0 : Word)) s.host.resp k
    let s : State := { s with host := { s.host with chal := none, resp := [] } }
    if at' + 60000000 < s.now then s.dbgRefuse 3
    else if Config.debugOk s.fuses.dbgHash words resp s.fuses.serial scope = false then s.dbgRefuse 2
    else
      (((s.fset fuseP FUSE.DBG_STAT_state 2).fset fuseP FUSE.DBG_STAT_scope scope).fset fuseP FUSE.DBG_STAT_err 0).event
        .fuse 0 FUSE.PAGE_EVT_dbg_open

/-! ### Write rules -/

/-- Whether a tile's tables may move: its TSEQ is quiesced or has no queue enabled (06 R170, 07 R201, 08 R204). -/
def tableFree (s : State) (t : Nat) : Bool :=
  s.tseqQuiesced t || (List.range 8).all fun q => !s.qEnabled t q

/-- An ignored write of a tile's table register on another page: the ctrl_err bit is TSEQ's. -/
def tileIgnored (s : State) (ty : PageType) (t off : Nat) : State :=
  (s.errEvent ty t 0xB2 off 0).event .tseq t TSEQ.PAGE_EVT_ctrl_err

/-- Retrains every channel of a link (12 R322). -/
def retrainLink (s : State) (l : Nat) : State :=
  let s := s.untrain (linkChans l)
  let port := ((List.range 16).map fun k => s.txPort l k).foldl min 0xFF
  let s := s.count (linkP l) LINK.RETRAIN_CNT_count
  (s.errEvent .link l 0xA4 port ((s.portPeer port).getD 0)).event .link l LINK.PAGE_EVT_retrain

/-- What the soft_reset bit, or a change of enable, does on each page type. -/
def afterCtrl (s : State) (ty : PageType) (i v : Nat) : State :=
  let reset := natBits v 1 1 == 1
  match ty with
  | .tseq =>
    let s := if reset then s.resetTseq i else s
    if natBits v 3 1 = 1 then s.clearSems i else s
  | .te => if reset then s.resetTe i else s
  | .ve => if reset then s.resetVe i else s
  | .dma => if reset then s.resetDma i else s
  | .spad => if reset then s.resetSpad i else s
  | .rng => if reset then s.resetRng i else s
  | .scale => if reset then s.resetScale i else s
  | .watch =>
    if reset then { s with scale := { s.scale with watch := s.scale.watch.filter fun x => decide (x.1 / 4096 ≠ i) } } else s
  | .scrub => if reset then s.resetScrub i else s
  | .stk =>
    let s := if reset then s.resetStk i else s
    (s.drainSnap s.snap.inbox).topUpVc 7
  | .stkphy => if reset then s.phyReset i else s
  | .link => if reset then s.retrainLink i else s
  | .pe =>
    let s := s.serveEngine i
    if reset then s.restartEngine i else s
  | .pech =>
    let s := s.serveLink i
    if reset then s.restartLink i else s
  | .coll => if reset then s.resetColl else s
  | .snap => if reset then s.abortClearing else s
  | .trail => if reset then s.resetTrail else s
  | _ => s

/-- A write of PAGE_CTRL. Shutters that close raise their event (11 R292), but for those of a connector that host software
frees by its links' enable bits; a link whose enable bit is set again trains anew (17 R442). -/
def ctrlWrite (s : State) (ty : PageType) (i v : Nat) : State :=
  let s' := (s.plainWrite ty i 0x008 v).afterCtrl ty i v
  match ty with
  | .pe => noteShutters s s'
  | .pech =>
    if natBits v 0 1 = 0 then s'
    else noteShutters s (if s.flag (pechP i) PECH.PAGE_CTRL_enable then s' else s'.untrain (linkChans i))
  | _ => s'

/-- A write of COMB_CTRL (11 R272): naming the other comb runs the switch; an unhealthy comb is not taken. -/
def combWrite (s : State) (p v : Nat) : State :=
  let s := s.fset (peP p) PE.COMB_CTRL_auto (natBits v 1 1)
  let sel := natBits v 0 1
  if sel = s.combSel p then s.fset (peP p) PE.COMB_CTRL_select sel
  else if s.combOk p sel then (s.fset (peP p) PE.COMB_CTRL_select sel).switchComb p
  else s

/-- A write of MESH_CODE: only in raw mode, for the next commit; φ stays 0 but for cells (11 R287, R299). -/
def meshCodeWrite (s : State) (p v : Nat) : State :=
  if s.flag (peP p) PE.MESH_CTRL_raw then
    let k := 64 * p + s.fget (peP p) PE.MESH_IDX_elem
    let v := if s.fget (peP p) PE.MESH_IDX_elem < 28 then v % 2 ^ 32 else v % 2 ^ 16
    let raws := sparseInsert k v (sparseErase k s.optics.raws)
    { s with optics := { s.optics with raws := raws } }
  else s.ctrlIgnored .pe p PE.MESH_CODE_theta.off

/-- A write of MESH_CTRL. -/
def meshCtrlWrite (s : State) (p v : Nat) : State :=
  let s := s.fset (peP p) PE.MESH_CTRL_raw (natBits v 1 1)
  let s := if natBits v 0 1 = 1 then s.meshCommit p else s
  if natBits v 2 1 = 1 then s.meshCal p else s

/-- A write of LINK_OPT_CTRL. -/
def linkOptWrite (s : State) (l v : Nat) : State :=
  noteShutters s ((s.plainWrite .pech l PECH.LINK_OPT_CTRL_test.off v).serveLink l)

/-- A write of CH_CTRL: targets move only while the link is out of service; revive acts in any case (11 R278, R299). -/
def chWrite (s : State) (l k off v : Nat) : State :=
  let tx := natBits v 0 6
  let txe := natBits v 6 1
  let rx := natBits v 8 6
  let rxe := natBits v 14 1
  let same := decide (v % 2 ^ 16 % 2 ^ 7 = (s.reg (pechP l) off).toNat % 2 ^ 7) &&
    decide (natBits v 8 7 = natBits (s.reg (pechP l) off).toNat 8 7)
  if s.flag (pechP l) PECH.PAGE_CTRL_enable ∧ same = false then s.ctrlIgnored .pech l off
  else
    let s := if same then s else s.target l k tx txe rx rxe
    if natBits v 16 1 = 1 then s.revive l k else s

/-- A write of GROUP_LOAD (10 R240); a go during a validation is absorbed. -/
def groupLoad (s : State) (v : Nat) : State :=
  let s := s.fset collP COLL.GROUP_LOAD_idx (natBits v 0 12)
  if natBits v 31 1 = 1 ∧ s.coll.loading = none then
    { s with coll := { s.coll with loading := some (natBits v 0 12) } }
  else s

/-- A write of WATCH_IDX: the slot's counts are latched, and cleared in the same step (08 R219). -/
def watchWrite (s : State) (t v : Nat) : State :=
  let slot := natBits v 0 12
  let s := s.fset (pageNum .watch t) WATCH.WATCH_IDX_slot slot
  let snap := (s.scale.snap.filter fun x => decide (x.1 ≠ t)) ++ [(t, s.watchOf t slot)]
  let watch := if natBits v 31 1 = 1 then sparseErase (4096 * t + slot) s.scale.watch else s.scale.watch
  { s with scale := { s.scale with snap := snap, watch := watch } }

/-- A write of RESTORE_CTRL (13 R347 to R349). -/
def restoreWrite (s : State) (v : Nat) : State :=
  let s := s.plainWrite .snap 0 SNAP.RESTORE_CTRL_src.off v
  let s := if natBits v 4 1 = 1 then s.restoreGo else s
  let s := if natBits v 5 1 = 1 then s.restoreRealign else s
  if natBits v 6 1 = 1 then s.restoreAccept else s

/-- Unmasking an MSI-X entry whose vector is pending sends it (PCIe base specification; notes/assumptions/15.md). -/
def msixWrite (s : State) (off v : Nat) : State :=
  let n := (off - 0x800) / 16
  let s := s.plainWrite .pcie 0 off v
  let pend : Fd := ⟨PCIE.MSIX_PEND_vec.off, n, 1⟩
  if natBits v 0 1 = 0 ∧ s.flag pcieP pend = true then (s.fset pcieP pend 0).raiseVector n else s

/-- A doorbell, which in SLEEP may also wake the module (15 R378, R396). -/
def doorbellWrite (s : State) (t q v : Nat) : State :=
  let s := s.doorbell t q v
  if s.flag pwrP PWR.WAKE_EN_doorbell ∧ s.canWake = true ∧ s.pwrState ≠ 3 then s.request 0 6 else s

/-- A write of ERR_CFG: a threshold of 0 reads as 4 (14 R360). -/
def errCfgWrite (s : State) (v : Nat) : State :=
  let fix (n : Nat) : Nat := if n = 0 then 4 else n
  ((s.fset 0 MODULE.ERR_CFG_int_min (fix (natBits v 0 3))).fset 0 MODULE.ERR_CFG_ce_fifo (natBits v 3 1)).fset 0
    MODULE.ERR_CFG_alert_min (fix (natBits v 4 3))

/-! ### Single registers -/

/-- The 4-byte write of a register of a TSEQ page. -/
def tseqWrite (s : State) (t off v : Nat) : State :=
  let q := (off - 0x100) / 0x40
  if off = 0x048 then (if s.tableFree t then s.plainWrite .tseq t off v else s.ctrlIgnored .tseq t off)
  else if off = 0x054 then s.setSem t (s.fget (tseqP t) TSEQ.SEM_IDX_sem) v
  else if off = 0x058 then
    s.setSem t (s.fget (tseqP t) TSEQ.SEM_IDX_sem) (s.sem t (s.fget (tseqP t) TSEQ.SEM_IDX_sem) + v)
  else
    match PageType.tseq.canon off with
    | 0x110 => s.writeQCtrl t q v
    | 0x114 => s.doorbellWrite t q v
    | _ => s.plainWrite .tseq t off v

def snapWrite (s : State) (off v : Nat) : State :=
  match off with
  | 0x048 | 0x04C | 0x050 | 0x08C =>
    if s.flag snapP SNAP.PAGE_STAT_busy then s.ctrlIgnored .snap 0 off else s.plainWrite .snap 0 off v
  | 0x054 =>
    let s := s.plainWrite .snap 0 off v
    if natBits v 31 1 = 1 then s.pairGo else s
  | 0x088 => if natBits v 0 1 = 1 then s.releasePin else s
  | 0x098 => s.restoreWrite v
  | 0x0B8 => if natBits v 0 1 = 1 then s.lostClr else s
  | _ => s.plainWrite .snap 0 off v

def trailQuiesced (s : State) : Bool := natBits (s.liveTrail 0x00C 0) TRAIL.PAGE_STAT_quiesced.lo 1 == 1

/-- The 4-byte write of a register, the pairs apart. MBX_CMD.go runs `go` (16 R410). -/
def wordWrite (s : State) (go : State → State) (port : Port) (ty : PageType) (i off v : Nat) : State :=
  if off = 0x008 then s.ctrlWrite ty i v
  else if off = 0x014 then s.evtEnWrite ty i v
  else
    match ty, off with
    | .module, 0x064 => if natBits v 0 1 = 1 then s.censusGo else s
    | .module, 0x084 => if natBits v 0 1 = 1 then s.ackErrors else s
    | .module, 0x088 => s.errCfgWrite v
    | .module, 0x0A0 => if natBits v 0 1 = 1 then s.popEntry port else s
    | .module, 0x0B0 => if natBits v 0 1 = 1 then s.fatal .module 0 0xC9 0 else s
    | .module, 0x0D0 => s.svcWrite v
    | .module, 0x0E0 => s.svcEnWrite v
    | .fuse, 0x060 =>
      let s := s.plainWrite .fuse 0 off v
      if natBits v 4 1 = 1 then s.dbgRequest else s
    | .fuse, 0x06C =>
      let k := s.fget fuseP FUSE.DBG_IDX_resp
      { s with host := { s.host with resp := sparsePut (fun _ => 0) k (BitVec.ofNat 32 v) s.host.resp } }
    | .fuse, 0x070 => if natBits v 0 1 = 1 then s.dbgSubmit else s
    | .ranger, 0x040 =>
      let s := s.plainWrite .ranger 0 off v
      if natBits v 31 1 = 1 then go s else s
    | .pwr, 0x040 => s.powerReq port (natBits v 0 3)
    | .pwr, 0x044 => s.capWrite (natBits v 0 13)
    | .clk, 0x040 => s.tclkWrite (natBits v 0 16)
    | .flash, 0x040 =>
      let s := s.plainWrite .flash 0 off v
      if natBits v 31 1 = 1 then s.flashGo else s
    | .snap, _ => s.snapWrite off v
    | .trail, 0x048 =>
      if s.trailQuiesced then s.plainWrite .trail 0 off v else s.ctrlIgnored .trail 0 off
    | .trail, 0x06C =>
      let s := if natBits v 0 1 = 1 then s.replayStart else s
      if natBits v 1 1 = 1 then s.endVerify else s
    | .tseq, _ => s.tseqWrite i off v
    | .rng, 0x04C =>
      if natBits v 0 1 = 1 then
        let s := (List.range 8).foldl (fun (s : State) n =>
          if s.fget (pageNum .rng i) (RNG.SEQ_CFG_per_step.plus (16 * n)) ≠ 0 then s.setDraw i n (s.drawExpected i n) else s) s
        s.event .rng i RNG.PAGE_EVT_realign_done
      else s
    | .watch, 0x040 => s.watchWrite i v
    | .spad, 0x070 => s.selectClass i (natBits v 0 3)
    | .pe, 0x040 => s.combWrite i v
    | .pe, 0x058 => noteShutters s (s.plainWrite .pe i off v)
    | .pe, 0x060 => s.meshCtrlWrite i v
    | .pe, 0x068 => s.meshCodeWrite i v
    | .pech, 0x040 => s.linkOptWrite i v
    | .coll, 0x048 =>
      if s.collQuiesced then
        let s := s.plainWrite .coll 0 off v
        { s with coll := { s.coll with valid := [] } }
      else s.ctrlIgnored .coll 0 off
    | .coll, 0x04C => s.groupLoad v
    | .plan, 0x04C => if natBits v 0 1 = 1 then s.planGo else s
    | .pech, _ =>
      if PageType.pech.canon off = 0x100 then s.chWrite i ((off - 0x100) / 16) off v else s.plainWrite .pech i off v
    | .pcie, _ =>
      if PageType.pcie.canon off = 0x80C then s.msixWrite off v else s.plainWrite .pcie i off v
    | _, _ => s.plainWrite ty i off v

/-! ### Pairs (R459) -/

/-- A pair takes both halves; its rule is judged now. `low` is the low half's offset. -/
def pairWrite (s : State) (ty : PageType) (i low lo hi : Nat) : State :=
  let a := lo + 2 ^ 32 * natBits hi 0 16
  let off := low + 4
  let put (s : State) : State := s.plainPair ty i low lo hi
  match ty, ty.canon low with
  | .tseq, 0x040 => if s.tableFree i && decide (a % 64 = 0) then put s else s.ctrlIgnored .tseq i off
  | .tseq, 0x100 =>
    let q := (low - 0x100) / 0x40
    if s.qEnabled i q = false ∧ s.qIdle i q = true then put s else s.ctrlIgnored .tseq i off
  | .tseq, 0x108 =>
    let q := (low - 0x100) / 0x40
    if s.qEnabled i q = false ∧ s.qIdle i q = true then put s else s.ctrlIgnored .tseq i off
  | .ve, 0x040 => if s.tableFree i && decide (a % 32 = 0) then put s else s.tileIgnored .ve i off
  | .rng, 0x040 => if s.tableFree i then put s else s.tileIgnored .rng i off
  | .rng, 0x080 => if s.unitBusy i .rng then s.ctrlIgnored .rng i off else put s
  | .coll, 0x040 =>
    if s.collQuiesced && decide (a % 16 = 0) then
      let s := put s
      { s with coll := { s.coll with valid := [] } }
    else s.ctrlIgnored .coll 0 off
  | .coll, 0x054 => if s.collQuiesced && decide (a % 32 = 0) then put s else s.ctrlIgnored .coll 0 off
  | .coll, 0x05C => if s.collQuiesced then put s else s.ctrlIgnored .coll 0 off
  | .snap, 0x040 =>
    if !s.flag snapP SNAP.PAGE_STAT_busy && decide (a % 16 = 0) then put s else s.ctrlIgnored .snap 0 off
  | .trail, 0x040 => if s.trailQuiesced && decide (a % 2 ^ 20 = 0) then put s else s.ctrlIgnored .trail 0 off
  | .pcie, 0x044 =>
    if a % 2 ^ s.fget pcieP PCIE.BAR2_SIZE_log2 = 0 then put s else s.ctrlIgnored .pcie 0 off
  | _, _ => put s

/-! ### A write at its page -/

/-- Whether a page's registers are locked against a port (16 R418, R419). -/
def lockedFor (s : State) (port : Port) (ty : PageType) : Bool :=
  match port with
  | .pcie => s.fuses.hostLock.getLsbD ty.group
  | .mgmt => s.fuses.mgmtLock.getLsbD ty.group
  | .ranger => false

/-- Whether a lock stops a write of this register: its table gives RW, W1S or WO. -/
def lockStops (s : State) (port : Port) (ty : PageType) (off : Nat) : Bool :=
  match ty.row off with
  | some r => s.lockedFor port ty && decide (r.rw + r.w1s + r.wo ≠ 0)
  | none => false

/-- A full-width aligned write that has reached a present page. -/
def pageWrite (s : State) (go : State → State) (port : Port) (ty : PageType) (i off v : Nat) : State :=
  let page := pageNum ty i
  if s.inertPage ty then s
  else if ty = .module ∧ (off = 0x040 ∨ off = 0x044) then
    (if port = .pcie then s.ctrlIgnored .module 0 off else s)
  else
    match ty.row off with
    | none => s
    | some r =>
      if s.lockStops port ty off then s.errEvent ty i 0xB3 off 0
      else if r.outside v then s.ctrlIgnored ty i off
      else if ty.pairLow off && decide (ty.rwBits off ≠ 0) then s.setStaged port page off (some (BitVec.ofNat 32 v))
      else if ty.pairHigh off && decide (ty.rwBits (off - 4) ≠ 0) then
        let lo := match s.stagedOf port page (off - 4) with | some w => w | none => s.reg page (off - 4)
        (s.setStaged port page (off - 4) none).pairWrite ty i (off - 4) lo.toNat v
      else s.wordWrite go port ty i off v

/-- A write narrower than 4 bytes, or misaligned: ignored, with an event where a full one would have met a register
(R447). -/
def narrowWrite (s : State) (ty : PageType) (i off : Nat) : State :=
  if s.inertPage ty then s
  else if (ty.row (off / 4 * 4)).isSome ∨ (off / 4 * 4 = 0 ∨ off / 4 * 4 = 0x020) then s.ctrlIgnored ty i (off / 4 * 4)
  else s

end State
end Sys2Proof.Machine
end

