-- ==== Sys2Proof/Machine/Access.lean ====
section
/-!
DEFINITION. Register accesses from the three ports: reads with their effects, what reaches a page when, stopped domains
and their watchdog, and the two mailboxes with the ranger's commands (15 R396, R397; 16 R402, R408 to R411, R413 to R415;
18 R446 to R460).
-/
namespace Sys2Proof.Machine
namespace State

/-! ### Reads (R424, R447, R453, R458) -/

/-- The effects of a read on its register: RC bits clear, a peak's with them (DESIGN CHOICE as to what it then reads,
notes/assumptions/68.md); PAGE_ERR_CNT clears PAGE_ERR with itself;
CLAMP_CNT clears FIRST_CLAMP.valid (08 R225); CAL_DATA advances its address. -/
def readEffect (s : State) (port : Port) (ty : PageType) (i off : Nat) : State :=
  let page := pageNum ty i
  let rc (o : Nat) : Word := match ty.row o with | some r => BitVec.ofNat 32 r.rc | none => 0
  let clear (s : State) (o : Nat) : State := if rc o = 0 then s else s.setReg page o (s.reg page o &&& ~~~rc o)
  if off = 0x01C then (s.setReg page 0x01C 0).setReg page 0x018 0
  else
    let s := if ty.pairLow off then
        s.setPairLatch port page (off + 4) (some (s.lookReg port ty i (off + 4)))
      else s
    let s := clear s off
    let s := if ty.pairLow off && decide (rc off ≠ 0) then clear s (off + 4) else s
    let again (s : State) (k : Nat) : State :=
      { s with pwr := { s.pwr with temps := sparsePut (fun _ => (0, none)) k ((s.tempOf k).1, none) s.pwr.temps } }
    match ty, off with
    | .pwr, 0x074 => again s (s.fget pwrP PWR.TEMP_IDX_sensor)
    | .pe, 0x074 => again s (0x19 + i)
    | .scale, 0x054 => s.fset page SCALE.FIRST_CLAMP_valid 0
    | .pecal, 0x044 => s.addWrap page PECAL.CAL_ADDR_addr 1
    | _, _ => s

/-- A 4-byte read of a register of a present page: the word, and the state after. -/
def pageRead (s : State) (port : Port) (ty : PageType) (i off : Nat) : State × Word :=
  if ty = .module ∧ off = 0x090 ∧ s.err.fifo = [] then (s, 0)
  else
    let s := if ty = .module ∧ off = 0x090 then s.latchEntry port else s
    let r := s.readWord port ty i off
    match ty.pairHigh off, s.pairLatch port (pageNum ty i) off with
    | true, some w => (r.1.setPairLatch port (pageNum ty i) off none, w)
    | _, _ => if s.inertPage ty && decide (off ≠ 0x01C) then r else (r.1.readEffect port ty i off, r.2)

/-- The addressed bytes of a register's word (R447). -/
def bytesOfWord (w : Word) (off n : Nat) : BitVec 64 := BitVec.ofNat 64 (natBits w.toNat (8 * (off % 4)) (8 * min n 4))

/-! ### Which accesses reach a page (R396, R397, R408, R456; 15 R372) -/

/-- What becomes of an access: nothing answers; it reads 0 and is discarded (an absent page, or one not yet served); it
may go to its page. -/
inductive Reach where
  | none | zero | early | page (ty : PageType) (i : Nat)
  deriving DecidableEq, Repr

/-- The pages that PCIe reaches before the module is ready (R408). -/
def earlyPage (p : Nat) : Bool := decide (p = 0) || decide (p = 1) || decide (p = 2) || decide (p = 5) || decide (p = 8)

/-- Whether an access may wait for a page during an exit from DEEP: one of the pages that no access wakes, which answers
once its domain runs again or not at all (15 R397; 11 R298). -/
def exitWait (s : State) (p : Nat) : Bool :=
  s.pwrMoving && decide (s.pwrState = 3) && decide (s.pwrTarget < 3) &&
    (match pageAt s.member p with
    | some (ty, _) => ty.nonWaking
    | Option.none => false)

def reachOf (s : State) (port : Port) (p : Nat) : Reach :=
  if !s.pwr.powered || (decide (3 ≤ s.pwrState) && (decide (port = .pcie) || !s.exitWait p)) || (decide (port = .pcie) && !s.pcieUp) then .none
  else if port = .pcie ∧ (s.bootStage < 3 ∨ (s.ready = false ∧ earlyPage p = false)) then .early
  else
    match pageAt s.member p with
    | some (ty, i) => .page ty i
    | Option.none => .zero

/-- Whether the domain of a page runs for an access: by itself, or woken by an access to any of its pages (R396). -/
def domainRuns (s : State) (ty : PageType) (i : Nat) : Bool := s.domainOn ty i || s.woken.contains (ty.domain i)

/-- The domain that a waiting access waits for is one that an access wakes. -/
def pageRuns (s : State) (p : Nat) : Bool :=
  match pageAt s.member p with
  | some (ty, i) => s.domainRuns ty i
  | Option.none => true

/-- Whether what a waiting access waits for lets it go: its page's domain runs, or its stack accepts accesses. -/
def waitRuns (s : State) (w : WaitAcc) : Bool :=
  match w.mem with
  | some m => decide (s.pwrState ≤ 1) && s.memOpen m.addr
  | Option.none => s.pageRuns w.page

def portWaits (s : State) (port : Port) : Bool := s.waits.any fun w => decide (w.port = port)
/-- The number of the next access that waits. -/
def waitId (s : State) : Nat := s.waits.foldl (fun m w => max m (w.id + 1)) 0
def pushWait (s : State) (port : Port) (mbx : Bool) (page off n : Nat) (v : Option Word) : State :=
  { s with waits := s.waits ++ [⟨s.waitId, port, mbx, page, off, n, v, Option.none⟩] }
/-- A host memory request waits: posted writes and doorbells of the host keep their order (01 R21). -/
def pushMem (s : State) (m : MemAcc) : State :=
  { s with waits := s.waits ++ [⟨s.waitId, .pcie, false, 0x1000, 0, 0, Option.none, some m⟩] }

/-! ### Host requests to module memory (05 R120) -/

/-- A write received with EP set: every word it covers is written poisoned with data 0 (R120). -/
def epWrite (s : State) (a n : Nat) : State :=
  let s := (s.count pcieP PCIE.EP_RX_CNT_count).errEvent .pcie 0 0x91 (a / 65536) 0
  s.store ((wordsOf a n).flatMap fun w => wbytes w 0 true 8)

/-- A host write to module memory. A partial write that meets a poisoned word raises no event: R28 names the event on the
page of the unit that issues the write, and the PCIE page has none (DESIGN CHOICE, notes/assumptions/115.md). -/
def memWrite (s : State) (a : Nat) (bytes : List Nat) (ep : Bool) : State :=
  let s := (s.stackBytes STK.STK_WR_BYTES_LO_count a bytes.length).crossFabric [(a, bytes.length)]
  if ep then s.epWrite a bytes.length
  else s.store ((bytes.zip (List.range bytes.length)).map fun x => ⟨a + x.2, x.1, false⟩)

/-- A host read of module memory: the words' data, EP if any is poisoned (R120). -/
def memRead (s : State) (a n : Nat) : State :=
  let bytes := (List.range n).map fun i => BitVec.ofNat 8 (s.mem.readByte (a + i))
  let ep := s.mem.poisonedN a n
  let s := s.hubTouch a n
  let s := if ep then s.count pcieP PCIE.EP_TX_CNT_count else s
  s.emit (.readBytes bytes ep)

/-- Makes a host request to module memory. -/
def memServe (s : State) (m : MemAcc) : State :=
  match m.data with
  | some (bytes, ep) => s.memWrite m.addr bytes ep
  | Option.none => s.memRead m.addr m.n

/-! ### The mailbox register block (R429) -/

def putWords (s : State) (off : Nat) : List Word → State
  | [] => s
  | w :: r => (s.setReg rangerP off w).putWords (off + 4) r

/-- A host mailbox command has ended: result code, result words, mbx_done. -/
def mbxEnd (s : State) (code : Nat) (ws : List Word) : State :=
  let s := (s.fset rangerP RANGER.MBX_STAT_busy 0).fset rangerP RANGER.MBX_STAT_result code
  let s := s.putWords 0x058 ((ws ++ List.replicate 4 0).take 4)
  s.event .ranger 0 RANGER.PAGE_EVT_mbx_done

/-- A NAK on the management bus; unknown commands, holes and locked pages raise MGMT_NAK (14 R367). -/
def mgmtNak (s : State) (cmd code : Nat) (logged : Bool) : State :=
  let s := s.count rangerP RANGER.MGMT_NAK_CNT_count
  let s := if logged then s.errEvent .ranger 0 0xB8 cmd 0 else s
  s.emit (.nak .mgmt code)

/-- The answer of an access that has been made. -/
def answer (s : State) (w : WaitAcc) (v : Word) : State :=
  match w.mbx, w.port, w.write with
  | true, .mgmt, some _ => s.emit (.result .mgmt [])
  | true, .mgmt, Option.none => s.emit (.result .mgmt [bytesOfWord v w.off 4])
  | true, _, some _ => s.mbxEnd 0 []
  | true, _, Option.none => s.mbxEnd 0 [(bytesOfWord v w.off 4).setWidth 32]
  | false, _, some _ => s
  | false, p, Option.none => s.emit (.readData p (bytesOfWord v w.off w.n))

/-- The answer of an access whose watchdog ended it (R397). -/
def answerTimeout (s : State) (w : WaitAcc) : State :=
  match w.mbx, w.port, w.write with
  | true, .mgmt, x => s.mgmtNak (if x.isSome then 0x06 else 0x05) 3 false
  | true, _, _ => s.mbxEnd 3 []
  | false, .pcie, Option.none => s.emit .completerAbort
  | false, .pcie, some _ => s
  | false, .mgmt, _ => s.mgmtNak 0x05 3 false
  | false, .ranger, _ => s.emit .accessError

/-- Makes an access at its page, or a request to memory. -/
def perform (s : State) (go : State → State) (w : WaitAcc) : State :=
  match w.mem, pageAt s.member w.page with
  | some m, _ => s.memServe m
  | Option.none, Option.none => s.answer w 0
  | Option.none, some (ty, i) =>
    match w.write with
    | some v =>
      let s := if w.n = 4 ∧ w.off % 4 = 0 then s.pageWrite go w.port ty i w.off v.toNat else s.narrowWrite ty i w.off
      s.answer w 0
    | Option.none =>
      let r := s.pageRead w.port ty i (w.off / 4 * 4)
      r.1.answer w r.2

/-- Makes the accesses of a port that its first has been holding, as far as what they wait for lets them. -/
def drainGo (s : State) (go : State → State) (port : Port) : Nat → State
  | 0 => s
  | n + 1 =>
    match s.waits.find? fun w => decide (w.port = port) with
    | some w =>
      if s.waitRuns w then
        let s : State := { s with waits := s.waits.filter fun x => decide (x.id ≠ w.id) }
        (s.perform go w).drainGo go port n
      else s
    | Option.none => s

/-- Makes an access that nothing holds; the host's requests to a stack that it opens follow. -/
def performNow (s : State) (go : State → State) (w : WaitAcc) : State :=
  let s := s.perform go w
  match s.waits.find? fun x => decide (x.port = .pcie) with
  | some x => if x.mem.isSome then s.drainGo go .pcie s.waits.length else s
  | Option.none => s

/-- Sends an access on its way: it is made at once, or waits for its domain or behind an earlier one of its port. -/
def access (s : State) (go : State → State) (port : Port) (mbx : Bool) (p off n : Nat) (v : Option Word) : State :=
  let a : WaitAcc := ⟨0, port, mbx, p, off, n, v, Option.none⟩
  match s.reachOf (if mbx then .mgmt else port) p with
  | .none => s
  | .early => (s.count pcieP PCIE.EARLY_CNT_count).answer a 0
  | .zero => if s.portWaits port then s.pushWait port mbx p off n v else s.answer a 0
  | .page ty i =>
    if s.portWaits port || !s.domainRuns ty i then
      let s := s.pushWait port mbx p off n v
      if mbx && decide (port ≠ .mgmt) then s.fset rangerP RANGER.MBX_STAT_busy 1 else s
    else s.performNow go a

/-! ### The ranger's commands (R410, R411, R415) -/

/-- How a command ends: an answer with its words, an answer that will come, or none because the module is reset. -/
inductive MbxOut where
  | done (code : Nat) (ws : List Word)
  | later
  | gone
  deriving DecidableEq, Repr

def arg (as : List Nat) (k : Nat) : Nat := as.getD k 0 % 2 ^ 32

/-- Commands of the management bus only, those DEEP answers, and those the trailhead takes from the host mailbox
(R410, R414). -/
def mgmtOnly (code : Nat) : Bool :=
  decide (code = 2) || decide (code = 3) || decide (code = 4) || decide (code = 0x0A) || decide (code = 0x0B)
def inDeep (code : Nat) : Bool := decide (code = 1) || decide (code = 5) || decide (code = 7) || decide (code = 8)
def inRecovery (code : Nat) : Bool := decide (code = 1) || decide (code = 5) || decide (code = 0x0D)

/-- Whether the table of R410 excludes a state for a command. -/
def badState (s : State) (port : Port) (code : Nat) : Bool :=
  let p := s.pwrState
  if p = 3 then !inDeep code
  else if s.host.recovery && decide (port ≠ .mgmt) then !inRecovery code
  else
    match code with
    | 0x02 => s.coordValid
    | 0x03 => decide (Member.ranks s.member ≤ s.rank)
    | 0x06 | 0x0A | 0x0B => decide (2 < p)
    | 0x09 | 0x0D | 0x0E => decide (1 < p)
    | _ => false

/-- An image's bytes in module memory. -/
def imageBytes (s : State) (a n : Nat) : List Nat := (s.readVia (fun i => a + i) n).bytes

/-- FW_WRITE (R415): the image is checked and written to the inactive slot; the result is 0 or the failing check. -/
def fwWrite (s : State) (a n : Nat) : State × Nat :=
  let img := s.imageBytes a n
  let s := s.touchVia (fun i => a + i) n
  let f := s.imageFault img
  if f ≠ 0 then (s, f)
  else
    let slot := 1 - s.fget rangerP RANGER.FW_SLOT_active
    let host : HostSt := if slot = 0 then { s.host with imageA := img } else { s.host with imageB := img }
    let s : State := { s with host := host }
    let s := s.wearFlash.fset rangerP (if slot = 0 then RANGER.FW_SLOT_a_ok else RANGER.FW_SLOT_b_ok) 1
    (if s.host.recovery then s.fset rangerP RANGER.FW_SLOT_active slot else s, 0)

/-- CLR_VALID: links stop and every channel trains anew, a clearing under way and a plan load end (R411, R426; 12 R302). -/
def clearValid (s : State) : State :=
  let s := (s.fset 0 MODULE.PAGE_STAT_coord_valid 0).event .module 0 MODULE.PAGE_EVT_coord_change
  let s := s.planCoordLost.untrain allChans
  match s.snap.clr with
  | some c => if c.phase < 6 ∧ c.ended = false ∧ 1 < c.ranks.length then s.failClearing c stClrPeerLost else s
  | Option.none => s

/-- The words of the ranger's latched entry (R362). -/
def readErr (s : State) : State × List Word :=
  match s.err.fifo with
  | [] => (s, [0, 0, 0, 0])
  | _ =>
    let s := s.latchEntry .ranger
    let ws := match s.latchOf .ranger with
      | some e => (List.range 4).map fun k => BitVec.ofNat 32 (entryWord e k)
      | Option.none => []
    (s.popEntry .ranger, ws)

/-- Whether a written image's place and length are arguments the command takes. -/
def fwArgs (s : State) (as : List Nat) : Bool :=
  let a := arg as 0 + 2 ^ 32 * natBits (arg as 1) 0 16
  decide (0 < arg as 2) && decide (arg as 2 ≤ 2 ^ 26) && memRange s.member a (arg as 2)

/-- Whether READ_REG names a register that DEEP does not answer for: one outside the retained set, of which the error FIFO is
read through its four words (15 R377; R410). -/
def deepReg (s : State) (code : Nat) (as : List Nat) : Bool :=
  let off := arg as 1 / 4 * 4
  decide (code = 5) && decide (s.pwrState = 3) && decide (arg as 0 ≤ 0xFFF) && decide (arg as 1 ≤ 0xFFF) &&
    !s.exitWait (arg as 0) && !keepsKey (regKey (arg as 0) off) &&
    !(decide (arg as 0 = 0) && decide (0x090 ≤ off) && decide (off < 0x0A0))

/-- A command's arguments are refused (R410). -/
def badArg (s : State) (code : Nat) (as : List Nat) : Bool :=
  match code with
  | 0x02 => decide (0xFFFF < arg as 0) || decide (0xFFFF < arg as 1)
  | 0x05 | 0x06 =>
    decide (0xFFF < arg as 0) || decide (0xFFF < arg as 1)
  | 0x07 => decide (4 < arg as 0)
  | 0x0C => decide (arg as 0 ≠ 0x5253)
  | 0x0D => !s.fwArgs as
  | 0x0E =>
    decide (1 < arg as 0) ||
      decide (s.fget rangerP (if arg as 0 = 0 then RANGER.FW_SLOT_a_ok else RANGER.FW_SLOT_b_ok) = 0)
  | _ => false

/-- Whether a command names a hole: a register past the register region, or an image's memory that is not populated
(01 R26). -/
def cmdHole (s : State) (code : Nat) (as : List Nat) : Bool :=
  match code with
  | 0x05 | 0x06 => decide (2 ^ 24 ≤ 4096 * arg as 0 + arg as 1)
  | 0x0D => !memRange s.member (arg as 0 + 2 ^ 32 * natBits (arg as 1) 0 16) (arg as 2)
  | _ => false

/-- Whether a fuse lock forbids the write a command makes (R410, R419). -/
def lockedCmd (s : State) (port : Port) (code : Nat) (as : List Nat) : Bool :=
  match code with
  | 0x06 =>
    match pageAt s.member (arg as 0) with
    | some (ty, _) => s.lockStops port ty (arg as 1)
    | Option.none => false
  | 0x0C => s.lockedFor port .module
  | _ => false

/-- A command that the table allows. `go` runs the host mailbox if WRITE_REG writes its go. -/
def runCmd (s : State) (go : State → State) (port : Port) (code : Nat) (as : List Nat) : State × MbxOut :=
  let w32 (n : Nat) : Word := BitVec.ofNat 32 n
  match code with
  | 0x01 =>
    (s, .done 0 [w32 s.fuses.serial.toNat, w32 (s.fuses.serial.toNat / 2 ^ 32), w32 (Member.code s.member), s.reg 0 0x050])
  | 0x02 =>
    let s := (s.fset 0 MODULE.COORD_rank (arg as 0)).fset 0 MODULE.FEED_id (arg as 1)
    (s.event .module 0 MODULE.PAGE_EVT_coord_change, .done 0 [])
  | 0x03 =>
    let s := s.fset 0 MODULE.PAGE_STAT_coord_valid 1
    (s.event .module 0 MODULE.PAGE_EVT_coord_change, .done 0 [])
  | 0x04 => (s.clearValid, .done 0 [])
  | 0x05 =>
    if s.pwrState = 3 ∧ s.exitWait (arg as 0) = false then
      match pageAt s.member (arg as 0) with
      | some (ty, i) =>
        let r := s.pageRead port ty i (arg as 1 / 4 * 4)
        (r.1, .done 0 [(bytesOfWord r.2 (arg as 1) 4).setWidth 32])
      | Option.none => (s, .done 0 [0])
    else (s.access go port true (arg as 0) (arg as 1) 4 Option.none, .later)
  | 0x06 => (s.access go port true (arg as 0) (arg as 1) 4 (some (w32 (arg as 2))), .later)
  | 0x07 => (s.powerReq port (arg as 0), .done 0 [])
  | 0x08 =>
    (s, .done 0 [s.reg pwrP PWR.WAKE_REC0_source.off, s.reg pwrP PWR.WAKE_REC1_seconds.off,
      s.reg pwrP PWR.WAKE_REC2_us10.off])
  | 0x09 => (s.censusGo, .done 0 [])
  | 0x0A =>
    let r := s.readErr
    (r.1, .done 0 r.2)
  | 0x0B => (s.ackErrors, .done 0 [])
  | 0x0C => (s.moduleReset 8, .gone)
  | 0x0D =>
    let r := s.fwWrite (arg as 0 + 2 ^ 32 * natBits (arg as 1) 0 16) (arg as 2)
    (r.1, .done 0 [w32 r.2])
  | 0x0E => (s.fset rangerP RANGER.FW_SLOT_active (arg as 0), .done 0 [])
  | _ => (s, .done 1 [])

/-- The answer code of a command before it does anything: 1 unknown, 2 port or lock, 3 state, 4 argument; 0 runs. -/
def cmdFault (s : State) (port : Port) (code : Nat) (as : List Nat) : Nat :=
  if code = 0 ∨ 0x0E < code then 1
  else if port ≠ .mgmt ∧ mgmtOnly code = true then 2
  else if s.lockedCmd port code as then 2
  else if s.badState port code || s.deepReg code as then 3
  else if s.badArg code as then 4
  else 0

/-- A WRITE_REG that a fuse lock forbids raises LOCKED_WRITE on its page (R419). -/
def lockedCmdEvent (s : State) (f code : Nat) (as : List Nat) : State :=
  if f = 2 ∧ code = 6 then
    match pageAt s.member (arg as 0) with
    | some (ty, i) => s.errEvent ty i 0xB3 (arg as 1) 0
    | Option.none => s
  else s

/-- The host mailbox (R410, R429): the command and arguments of its registers. A go while a command runs is absorbed. -/
def hostMailbox (s : State) : State :=
  if s.flag rangerP RANGER.MBX_STAT_busy then s
  else
    let code := s.fget rangerP RANGER.MBX_CMD_code
    let as := (List.range 4).map fun k => (s.reg rangerP (0x044 + 4 * k)).toNat
    let f := s.cmdFault .pcie code as
    if f ≠ 0 then (s.lockedCmdEvent f code as).mbxEnd f []
    else
      let r := s.runCmd id .pcie code as
      match r.2 with
      | .done c ws => r.1.mbxEnd c ws
      | .later => r.1
      | .gone => r.1

/-- Whether the ranger, or basecamp in DEEP, answers on the management bus. -/
def mgmtUp (s : State) : Bool := s.pwr.powered && decide (3 ≤ s.bootStage) && decide (s.pwrState ≤ 3)

/-- The mailbox of the management bus (R409, R410). -/
def mgmtMailbox (s : State) (code : Nat) (as : List Nat) (pecOk : Bool) : State :=
  if !s.mgmtUp then s
  else if !pecOk then
    let s := (s.count rangerP RANGER.MGMT_PEC_CNT_count).errEvent .ranger 0 0xB9 code 0
    s.mgmtNak code 0 false
  else
    let f := s.cmdFault .mgmt code as
    if f ≠ 0 then
      (s.lockedCmdEvent f code as).mgmtNak code f (decide (f = 1) || decide (f = 2) || s.cmdHole code as)
    else
      let r := s.runCmd hostMailbox .mgmt code as
      match r.2 with
      | .done _ ws => r.1.emit (.result .mgmt (ws.map fun w => BitVec.ofNat 64 w.toNat))
      | .later => r.1
      | .gone => r.1.emit (.result .mgmt [])

/-! ### The ports -/

/-- Successive 4-byte writes from an offset on, and reads (R447). -/
def writeWords (s : State) (port : Port) (p off v : Nat) : Nat → State
  | 0 => s
  | k + 1 =>
    (s.access hostMailbox port false (p + off / 4096) (off % 4096) 4 (some (BitVec.ofNat 32 v))).writeWords port p (off + 4) (v / 2 ^ 32) k
def readWords (s : State) (port : Port) (p off : Nat) : Nat → State
  | 0 => s
  | k + 1 => (s.access hostMailbox port false (p + off / 4096) (off % 4096) 4 Option.none).readWords port p (off + 4) k

/-- Whether an access covers several whole registers: a pair in 8 bytes, or several in one TLP (R447). -/
def manyWords (off n : Nat) : Bool := decide (4 < n) && decide (n % 4 = 0) && decide (off % 4 = 0)

/-- A write of n bytes from a port, by page number. -/
def hostWrite (s : State) (port : Port) (p off n v : Nat) : State :=
  if manyWords off n then s.writeWords port p off v (n / 4)
  else s.access hostMailbox port false p off n (some (BitVec.ofNat 32 v))
/-- A read of n bytes from a port. -/
def hostRead (s : State) (port : Port) (p off n : Nat) : State :=
  if manyWords off n then s.readWords port p off (n / 4) else s.access hostMailbox port false p off n Option.none

/-- A 4-byte write of a unit's register. A unit past the page map has no page. -/
def unitWrite (s : State) (port : Port) (ty : PageType) (i off v : Nat) : State :=
  if pagePresent s.member ty i then s.hostWrite port (pageNum ty i) off 4 v else s

def drainPort (s : State) (port : Port) (n : Nat) : State := s.drainGo hostMailbox port n

/-- The first waiting access of a port, if it is this one. -/
def firstWait (s : State) (id : Nat) : Option WaitAcc :=
  match s.waits.find? fun w => decide (w.id = id) with
  | some w => if (s.waits.find? fun x => decide (x.port = w.port)) = some w then some w else Option.none
  | Option.none => Option.none

end State

/-! ### The commands of a port -/

/-- A ranger command through a mailbox (R410). From the host it is the writes of MBX_ARG and MBX_CMD over PCIe. -/
def State.rangerCommand (s : State) (port : Port) (pecOk : Bool) (code : Nat) (as : List Nat) : State :=
  match port with
  | .mgmt => s.mgmtMailbox code as pecOk
  | .pcie =>
    let s := (List.range as.length).foldl (fun (s : State) k =>
      s.hostWrite .pcie State.rangerP (0x044 + 4 * k) 4 (as.getD k 0)) s
    s.hostWrite .pcie State.rangerP 0x040 4 (2 ^ 31 + code)
  | .ranger => s

/-- DOMAIN_WAKE_ACCESS (15 R396): the domain that a waiting access needs runs; the access is made, and those behind it. A
memory request that waits goes once its stack accepts accesses. -/
def execDomainWakeAccess (id : Nat) (s : State) : Host.Outcome State Fault Refusal :=
  match s.firstWait id with
  | some w =>
    match pageAt s.member w.page with
    | some (ty, i) =>
      .next (if s.waitRuns w then s.start.drainPort w.port s.waits.length
        else if ty.nonWaking || !s.railsUp ty || w.mem.isSome then s.start
        else
          let s := s.start.addWrap State.clkP CLK.WAKE_ACC_CNT_count 1
          let s : State := { s with woken := s.woken ++ [ty.domain i] }
          s.drainPort w.port s.waits.length)
    | none => .next (s.start.drainPort w.port s.waits.length)
  | none => .next s.start

/-- DOMAIN_IDLE_STOP (15 R396): the domain of a page stops again. -/
def execDomainIdleStop (page : Nat) (s : State) : Host.Outcome State Fault Refusal :=
  match pageAt s.member page with
  | some (ty, i) =>
    let s := s.start
    .next { s with woken := s.woken.filter fun d => decide (d ≠ ty.domain i) }
  | none => .next s.start

/-- ACCESS_TIMEOUT (15 R397): a port's first waiting access, to a stopped page that an access does not wake, ends. -/
def execAccessTimeout (id : Nat) (s : State) : Host.Outcome State Fault Refusal :=
  match s.firstWait id with
  | some w =>
    match pageAt s.member w.page with
    | some (ty, i) =>
      .next (if ty.nonWaking && !s.domainRuns ty i then
          let s := s.start
          let s : State := { s with waits := s.waits.filter fun x => decide (x.id ≠ id) }
          let s := (s.errEvent ty i 0xB4 w.off 0).addFree State.clkP CLK.TIMEOUT_CNT_count 1
          let port := if w.mbx && decide (w.port = .pcie) then 2 else portNum w.port
          let s := ((s.fset State.clkP CLK.LAST_TIMEOUT_page w.page).fset State.clkP CLK.LAST_TIMEOUT_port port).fset
            State.clkP CLK.LAST_TIMEOUT_offset w.off
          let s := (s.event .clk 0 CLK.PAGE_EVT_timeout).answerTimeout w
          s.drainPort w.port s.waits.length
        else s.start)
    | none => .next s.start
  | none => .next s.start

/-- MGMT_TIMEOUT (14 R367): the transaction is discarded. -/
def execMgmtTimeout (s : State) : Host.Outcome State Fault Refusal :=
  .next (if s.mgmtUp ∧ s.pwrState ≤ 2 then s.start.errEvent .ranger 0 0xBA 0 0 else s.start)

/-- A microsecond of nothing (notes/assumptions/2.md): which links carry is noted (17 R433), and a button held is let go
(notes/assumptions/64.md). -/
def State.idle (s : State) : State :=
  let s := if s.flag 0 MODULE.SVC_STAT_button then s.fset 0 MODULE.SVC_STAT_button 0 else s
  s.noteCarry.tick

/-- ALERT_RESPONSE (R409): the module answers with its address while it asserts ALERT#. -/
def execAlertResponse (s : State) : Host.Outcome State Fault Refusal :=
  .next (if s.mgmtUp ∧ s.err.alert = true then s.start.emit (.smbusAddress (0x58 + s.host.strap % 8)) else s.start)

end Sys2Proof.Machine
end

