-- ==== Sys2Proof/Machine/Pcie.lean ====
section
/-!
DEFINITION. The host's memory and configuration requests (01 R26; 05 R120; 16 R403 to R408; 15 R372), with the commands
PCIE_MEMORY_WRITE, PCIE_MEMORY_READ and PCIE_CONFIG_ACCESS.
-/
namespace Sys2Proof.Machine
namespace State

/-- What a BAR2 request meets: nothing answers, Unsupported Request before the module is ready or outside RUN and IDLE, a
hole, or module memory. -/
inductive Bar2 where
  | none | early | closed | hole (a : Nat) | mem (a : Nat)
  deriving DecidableEq, Repr

def bar2 (s : State) (off n : Nat) : Bar2 :=
  let a := s.pair pcieP PCIE.WIN_BASE_LO_addr + off
  if !s.pcieUp then .none
  else if !s.ready then .early
  else if 2 ≤ s.pwrState then .closed
  else if 2 ^ s.fget pcieP PCIE.BAR2_SIZE_log2 < off + n ∨ memRange s.member a n = false then .hole a
  else .mem a

/-- A request to a hole or to the register region (R26). -/
def pcieHole (s : State) (a : Nat) : State :=
  ((s.count pcieP PCIE.HOLE_CNT_count).errEvent .pcie 0 0xB0 (a / 65536) 0).event .pcie 0 PCIE.PAGE_EVT_hole

/-- A host request to populated memory: a stack that accepts no access holds it, and so do the host's earlier accesses that
wait (01 R21; 05 R136). -/
def hostMem (s : State) (m : MemAcc) : State :=
  if s.memOpen m.addr && !s.portWaits .pcie then s.memServe m else s.pushMem m

end State

/-- PCIE_MEMORY_WRITE (R404, R120): bytes at an offset of BAR2. -/
def execPcieMemoryWrite (off : Nat) (bytes : List Nat) (ep : Bool) (s : State) : Host.Outcome State Fault Refusal :=
  .next (match s.bar2 off bytes.length with
    | .none => s.start
    | .early => s.start.count State.pcieP PCIE.EARLY_CNT_count
    | .closed => s.start
    | .hole a => s.start.pcieHole a
    | .mem a => s.start.hostMem ⟨a, bytes.length, some (bytes, ep)⟩)

/-- PCIE_MEMORY_READ (R120): n bytes at an offset of BAR2. `upsets` are stored bits that have flipped since. -/
def execPcieMemoryRead (off n : Nat) (upsets : List (Nat × Nat)) (s : State) : Host.Outcome State Fault Refusal :=
  .next (match s.bar2 off n with
    | .none => s.start
    | .early => (s.start.count State.pcieP PCIE.EARLY_CNT_count).emit .unsupportedRequest
    | .closed => s.start.emit .unsupportedRequest
    | .hole a => (s.start.pcieHole a).emit .unsupportedRequest
    | .mem a => (s.start.upset upsets).hostMem ⟨a, n, none⟩)

/-- PCIe errors that are uncorrectable and raise no module event count in the PCIE page (R407, R430). -/
def State.pcieErrors (s : State) (n : Nat) : State := if n = 0 then s else s.addFree pcieP PCIE.ERR_CNT_count n

/-- Whether configuration space holds a capability (*PCIe 6.0 features*). -/
def State.hasCap : PcieCap → Bool
  | .flitMode | .tags10 | .msix | .aer | .ecrc | .poisoning | .flr | .resizableBar | .aspmL1 | .laneMargining => true
  | .msi | .aspmL0s | .l1Substates | .ats | .pri | .pasid | .sriov | .doe | .ide => false

/-- What a configuration request answers: the word at an address, which is the PCIe base specification's; whether a
capability is there; a BAR2 size of 2^36 to 2^41 bytes is taken (notes/assumptions/55.md). -/
def State.configAnswer (s : State) : ConfigReq → State
  | .read _ => (s.emit (.configData (BitVec.ofNat 64 s.freeVal))).useFree
  | .capability c => s.emit (.configCap (hasCap c))
  | .resize k => if 36 ≤ k ∧ k ≤ 41 then s.fset pcieP PCIE.BAR2_SIZE_log2 k else s

/-- PCIE_CONFIG_ACCESS (R403, R408): retried before the firmware stage ends; then answered. The errors found
since the last request are counted (R407; notes/assumptions/55.md). -/
def execPcieConfigAccess (access : ConfigAccess) (s : State) : Host.Outcome State Fault Refusal :=
  .next (if s.pcieUp = false then s.start
    else
      let s := s.start.pcieErrors access.errors
      if s.bootStage < 3 then (s.count State.pcieP PCIE.EARLY_CNT_count).emit .requestRetry
      else s.configAnswer access.req)

end Sys2Proof.Machine
end

