-- ==== Sys2Proof/Machine/Recv.lean ====
section
/-!
DEFINITION. The commands by which frames arrive: each takes the receive checks (12 R321) and, for a frame of its own
type that passes them, does what that type asks. A frame of another type is another command's and changes nothing.
-/
namespace Sys2Proof.Machine

/-- Runs the receive checks on a frame that `mine` names, and acts on it once it is delivered; as far as that consumes it, its
credit returns (12 R320). -/
def recvRun (mine : Frame → Bool) (act : State → Nat → Frame → State) (rx : Rx) (s : State) :
    Host.Outcome State Fault Refusal :=
  if mine rx.frame then
    match s.start.receive rx with
    | (s', some (p, f)) => .next (if linkControl f.typ then act s' p f else (act s' p f).topUp p f.vc)
    | (s', none) => .next s'
  else .next s.start

/-- Whether a frame belongs to the snapshot unit's own stream (13 R333). -/
def snapFrameId (f : Frame) : Bool := decide (f.vc = 7) && decide (f.bucket = 0xFFFE)

/-- OPEN_RECEIVE (10 R259). -/
def execOpenReceive (rx : Rx) (s : State) : Host.Outcome State Fault Refusal :=
  recvRun (fun f => decide (f.typ = 1))
    (fun s _ f => match f.pay with | .openRec r => s.gotOpen rx f r | _ => s) rx s

/-- ACCEPT_RECEIVE (10 R259). -/
def execAcceptReceive (rx : Rx) (s : State) : Host.Outcome State Fault Refusal :=
  recvRun (fun f => decide (f.typ = 2)) (fun s _ f => s.gotAccept f) rx s

/-- NAK_RECEIVED (10 R263; 13 R347 for a restore request). -/
def execNakReceived (rx : Rx) (s : State) : Host.Outcome State Fault Refusal :=
  recvRun (fun f => decide (f.typ = 3))
    (fun s _ f => match f.pay with
      | .nak code => if snapFrameId f then s.gotSnapNak f else s.gotNak f code
      | _ => s) rx s

/-- RETRY_RECEIVE (10 R259). -/
def execRetryReceive (rx : Rx) (s : State) : Host.Outcome State Fault Refusal :=
  recvRun (fun f => decide (f.typ = 4)) (fun s _ f => s.gotRetry f) rx s

/-- Whether a frame carries collective data, or is of no type of the table. -/
def plainData (f : Frame) : Bool :=
  !frameType f.typ || (decide (f.typ = 0) &&
    (match f.pay with
      | .barrier .. | .verdict .. | .pair .. | .slotPart .. | .trailPart .. | .slotAck .. | .trailRec .. | .trailAck ..
      | .restoreReq .. | .restoreSlot .. | .restoreTrail .. => false
      | _ => true))

/-- DATA_RECEIVE (10 R251). -/
def execDataReceive (rx : Rx) (s : State) : Host.Outcome State Fault Refusal :=
  recvRun plainData
    (fun s _ f => match f.pay with | .data b p => s.gotData rx f ⟨b, p⟩ | _ => s) rx s

/-- CLOSE_RECEIVE (10 R261). -/
def execCloseReceive (rx : Rx) (s : State) : Host.Outcome State Fault Refusal :=
  recvRun (fun f => decide (f.typ = 6)) (fun s _ f => s.gotClose rx f) rx s

/-- ABORT_RECEIVE (10 R264). -/
def execAbortReceive (rx : Rx) (s : State) : Host.Outcome State Fault Refusal :=
  recvRun (fun f => decide (f.typ = 5)) (fun s _ f => s.gotAbort f) rx s

/-- CREDIT_RECEIVE (12 R320): bits 15..0 of the frame's offset count the frames granted. -/
def execCreditReceive (rx : Rx) (s : State) : Host.Outcome State Fault Refusal :=
  recvRun (fun f => decide (f.typ = 18))
    (fun s p f =>
      let x := s.portOf p
      s.setPort p { x with credit := bump x.credit f.vc (· + f.offset % 2 ^ 16) }) rx s

/-- ACK_RECEIVE (12 R319): the receive checks take the acknowledgement itself. -/
def execAckReceive (rx : Rx) (s : State) : Host.Outcome State Fault Refusal :=
  recvRun (fun f => decide (f.typ = 16)) (fun s _ _ => s) rx s

/-- REPLAY_REQ_RECEIVE (12 R318, R322). -/
def execReplayReqReceive (rx : Rx) (s : State) : Host.Outcome State Fault Refusal :=
  recvRun (fun f => decide (f.typ = 17)) (fun s p f => (s.replayFrom p f.seq).portReq p) rx s

/-- SIGNAL_RECEIVE (06 R155). -/
def execSignalReceive (rx : Rx) (s : State) : Host.Outcome State Fault Refusal :=
  recvRun (fun f => decide (f.typ = 7))
    (fun s _ f => match f.pay with
      | .signal id tile sem set value => s.gotSignal rx f id tile (sem % 4096) set value
      | _ => s) rx s

/-- SIGNAL_ACK_RECEIVE (06 R155). -/
def execSignalAckReceive (rx : Rx) (s : State) : Host.Outcome State Fault Refusal :=
  recvRun (fun f => decide (f.typ = 8))
    (fun s _ f => match f.pay with
      | .signalAck id ok => s.gotSignalAck f id ok
      | _ => s) rx s

/-- MGMT_FRAME_RECEIVE (12 R315): the frame goes to the ranger. -/
def execMgmtFrameReceive (rx : Rx) (s : State) : Host.Outcome State Fault Refusal :=
  recvRun (fun f => decide (f.typ = 10))
    (fun s _ f => match f.pay with
      | .mgmt bytes => s.emit (.toRanger f.src bytes)
      | _ => s) rx s

/-- BARRIER_RECORD_RECEIVE (13 R330). -/
def execBarrierRecordReceive (rx : Rx) (s : State) : Host.Outcome State Fault Refusal :=
  recvRun (fun f => match f.pay with | .barrier .. => true | _ => false)
    (fun s _ f => match f.pay with
      | .barrier phase bad r => s.gotBarrier f phase bad r
      | _ => s) rx s

/-- BARRIER_VERDICT_RECEIVE (13 R330). -/
def execBarrierVerdictReceive (rx : Rx) (s : State) : Host.Outcome State Fault Refusal :=
  recvRun (fun f => match f.pay with | .verdict .. => true | _ => false)
    (fun s _ f => match f.pay with
      | .verdict phase _ code => s.gotVerdict f phase code
      | _ => s) rx s

/-- L1_ACK_RECEIVE (13 R333). -/
def execL1AckReceive (rx : Rx) (s : State) : Host.Outcome State Fault Refusal :=
  recvRun (fun f => match f.pay with | .slotAck _ => true | _ => false)
    (fun s _ f => match f.pay with
      | .slotAck number => s.gotSlotAck f number
      | _ => s) rx s

/-- SNAPSHOT_FRAME_RECEIVE (13 R333). -/
def execSnapshotFrameReceive (rx : Rx) (s : State) : Host.Outcome State Fault Refusal :=
  recvRun (fun f => match f.pay with | .slotPart .. | .trailPart .. => true | _ => false)
    (fun s _ f => s.gotSnap f) rx s

/-- TRAIL_MIRROR_RECEIVE (13 R340). -/
def execTrailMirrorReceive (rx : Rx) (s : State) : Host.Outcome State Fault Refusal :=
  recvRun (fun f => match f.pay with | .trailRec .. => true | _ => false)
    (fun s _ f => s.gotSnap f) rx s

/-- PAIR_RECORD_RECEIVE (13 R335). -/
def execPairRecordReceive (rx : Rx) (s : State) : Host.Outcome State Fault Refusal :=
  recvRun (fun f => match f.pay with | .pair .. => true | _ => false)
    (fun s _ f => match f.pay with
      | .pair rank feed ap cap names => s.gotPair ⟨rank, feed, ap, cap, names⟩
      | _ => s) rx s

/-- MIRROR_ACK_RECEIVE (13 R340). -/
def execMirrorAckReceive (rx : Rx) (s : State) : Host.Outcome State Fault Refusal :=
  recvRun (fun f => match f.pay with | .trailAck _ => true | _ => false)
    (fun s _ f => match f.pay with
      | .trailAck pos => s.gotTrailAck f pos
      | _ => s) rx s

/-- HEARTBEAT_RECEIVE (13 R342). -/
def execHeartbeatReceive (rx : Rx) (s : State) : Host.Outcome State Fault Refusal :=
  recvRun (fun f => decide (f.typ = 9) && (match f.pay with | .lost .. => false | _ => true))
    (fun s _ f => s.gotHeartbeat f.src) rx s

/-- LOST_NOTICE_RECEIVE (13 R343). -/
def execLostNoticeReceive (rx : Rx) (s : State) : Host.Outcome State Fault Refusal :=
  recvRun (fun f => match f.pay with | .lost .. => true | _ => false)
    (fun s _ f => match f.pay with
      | .lost rank code => s.gotLost f rank code
      | _ => s) rx s

/-- RESTORE_REQUEST_RECEIVE (13 R347). -/
def execRestoreRequestReceive (rx : Rx) (s : State) : Host.Outcome State Fault Refusal :=
  recvRun (fun f => match f.pay with | .restoreReq .. => true | _ => false)
    (fun s _ f => match f.pay with
      | .restoreReq rank number => s.gotRestoreReq f rank number
      | _ => s) rx s

/-- RESTORE_FRAME_RECEIVE (13 R347). -/
def execRestoreFrameReceive (rx : Rx) (s : State) : Host.Outcome State Fault Refusal :=
  recvRun (fun f => match f.pay with | .restoreSlot .. | .restoreTrail .. => true | _ => false)
    (fun s _ f => s.gotSnap f) rx s

end Sys2Proof.Machine
end

