-- ==== Sys2Proof/Machine/Rows.lean ====
section
/-!
DEFINITION. The rows that are one access of a port: each register write or read of the opcode table that has a row of its
own, and each command of the ranger, over the shared access path.
-/
namespace Sys2Proof.Machine
namespace State

/-- A 4-byte read of a unit's register from a port. -/
def unitRead (s : State) (port : Port) (ty : PageType) (i off : Nat) : State :=
  if pagePresent s.member ty i then s.hostRead port (pageNum ty i) off 4 else s

/-- A write of a register that changes one field, writes every other RW field as it stands and 0 elsewhere. -/
def setBits (s : State) (port : Port) (ty : PageType) (i : Nat) (f : Fd) (b : Nat) : State :=
  s.unitWrite port ty i f.off
    (putBits (s.reg (pageNum ty i) f.off &&& BitVec.ofNat 32 (ty.rwBits f.off)).toNat f.lo f.w b)

/-- Both halves of a pair, low first (18 R459). -/
def unitPair (s : State) (port : Port) (ty : PageType) (i low v : Nat) : State :=
  (s.unitWrite port ty i low (v % 2 ^ 32)).unitWrite port ty i (low + 4) (v / 2 ^ 32)

/-- A write of a queue's ring registers. -/
def ringWrite (s : State) (port : Port) (t q : Nat) (which : RingReg) (v : Nat) : State :=
  match which with
  | .base => s.unitPair port .tseq t (0x100 + 0x40 * q) v
  | .sbase => s.unitPair port .tseq t (0x108 + 0x40 * q) v
  | .size => s.setBits port .tseq t (qfd TSEQ.Q_CTRL_size_log2 q) v

/-- Flash blocks that can no longer be corrected. -/
def deadBlocks (s : State) (bs : List Nat) : State :=
  { s with flash := { s.flash with dead := s.flash.dead ++ bs.filter fun b => !s.flash.dead.contains b } }

end State


/-- REGISTER_WRITE. A write from a port to a register, by page and offset (18 R446, R447, R454, R455): n bytes;
aligned words write, one after another. -/
def execRegisterWrite (port : Port) (page off n v : Nat) (s : State) : Host.Outcome State Fault Refusal :=
  .next (s.start.hostWrite port page off n v)

/-- RC_READ. A read from a port (18 R447): the addressed bytes of the register's word; the whole register's RC bits
clear. -/
def execRcRead (port : Port) (page off n : Nat) (s : State) : Host.Outcome State Fault Refusal :=
  .next (s.start.hostRead port page off n)

/-- PAIR_LOW_READ. A read of a pair's low half (18 R458): the high half is latched for the port; an RC pair clears. -/
def execPairLowRead (port : Port) (page off : Nat) (s : State) : Host.Outcome State Fault Refusal :=
  .next (s.start.hostRead port page off 4)

/-- PAIR_LOW_WRITE. A write of an RW pair's low half (18 R459): staged for the port. -/
def execPairLowWrite (port : Port) (page off v : Nat) (s : State) : Host.Outcome State Fault Refusal :=
  .next (s.start.hostWrite port page off 4 v)

/-- PAIR_HIGH_WRITE. A write of a pair's high half (18 R459): both halves take effect, the pair's rule judged now. -/
def execPairHighWrite (port : Port) (page off v : Nat) (s : State) : Host.Outcome State Fault Refusal :=
  .next (s.start.hostWrite port page off 4 v)

/-- PAGE_ERR_CNT_READ. A read of PAGE_ERR_CNT (18 R453). -/
def execPageErrCntRead (port : Port) (page : Nat) (s : State) : Host.Outcome State Fault Refusal :=
  .next (s.start.hostRead port page 0x01C 4)

/-- PAGE_EVT_EN_WRITE. A write of PAGE_EVT_EN (18 R452). -/
def execPageEvtEnWrite (port : Port) (page v : Nat) (s : State) : Host.Outcome State Fault Refusal :=
  .next (s.start.hostWrite port page 0x014 4 v)

/-- CAL_DATA_READ. A read of CAL_DATA (11 R298, R299). -/
def execCalDataRead (port : Port) (engine : Nat) (s : State) : Host.Outcome State Fault Refusal :=
  .next (s.start.unitRead port .pecal engine PECAL.CAL_DATA_data.off)

/-- SPAD_SOFT_RESET. A write of SPAD soft_reset (05 R134). -/
def execSpadSoftReset (port : Port) (tile : Nat) (s : State) : Host.Outcome State Fault Refusal :=
  .next (s.start.setBits port .spad tile SPAD.PAGE_CTRL_soft_reset 1)

/-- SPAD_CLASS_SEL. A write of SPAD_CLASS_SEL (05 R134). -/
def execSpadClassSel (port : Port) (tile cls : Nat) (s : State) : Host.Outcome State Fault Refusal :=
  .next (s.start.unitWrite port .spad tile SPAD.SPAD_CLASS_SEL_cls.off cls)

/-- SCRUB_ENABLE. A write of SCRUB enable (05 R135). -/
def execScrubEnable (port : Port) (tile : Nat) (on : Bool) (s : State) : Host.Outcome State Fault Refusal :=
  .next (s.start.setBits port .scrub tile SCRUB.PAGE_CTRL_enable on.toNat)

/-- SCRUB_SOFT_RESET. A write of SCRUB soft_reset (05 R135). -/
def execScrubSoftReset (port : Port) (tile : Nat) (s : State) : Host.Outcome State Fault Refusal :=
  .next (s.start.setBits port .scrub tile SCRUB.PAGE_CTRL_soft_reset 1)

/-- SCRUB_QUIESCE. A write of SCRUB quiesce (05 R135). -/
def execScrubQuiesce (port : Port) (tile : Nat) (on : Bool) (s : State) : Host.Outcome State Fault Refusal :=
  .next (s.start.setBits port .scrub tile SCRUB.PAGE_CTRL_quiesce on.toNat)

/-- STK_SOFT_RESET. A write of STK soft_reset (05 R136). -/
def execStkSoftReset (port : Port) (stack : Nat) (s : State) : Host.Outcome State Fault Refusal :=
  .next (s.start.setBits port .stk stack STK.PAGE_CTRL_soft_reset 1)

/-- STK_QUIESCE. A write of STK quiesce (05 R136). -/
def execStkQuiesce (port : Port) (stack : Nat) (on : Bool) (s : State) : Host.Outcome State Fault Refusal :=
  .next (s.start.setBits port .stk stack STK.PAGE_CTRL_quiesce on.toNat)

/-- QUEUE_RING_WRITE. A write of Q_BASE, Q_SBASE or Q_CTRL.size_log2 (06 R138). -/
def execQueueRingWrite (port : Port) (tile queue : Nat) (which : RingReg) (v : Nat) (s : State) :
    Host.Outcome State Fault Refusal :=
  .next (s.start.ringWrite port tile queue which v)

/-- QUEUE_ENABLE. A write of 1 to Q_CTRL.enable (06 R138). -/
def execQueueEnable (port : Port) (tile queue : Nat) (s : State) : Host.Outcome State Fault Refusal :=
  .next (s.start.setBits port .tseq tile (qfd TSEQ.Q_CTRL_enable queue) 1)

/-- QUEUE_DISABLE. A write of 0 to Q_CTRL.enable (06 R139). -/
def execQueueDisable (port : Port) (tile queue : Nat) (s : State) : Host.Outcome State Fault Refusal :=
  .next (s.start.setBits port .tseq tile (qfd TSEQ.Q_CTRL_enable queue) 0)

/-- QUEUE_RESET. A write of Q_CTRL.reset (06 R139). -/
def execQueueReset (port : Port) (tile queue : Nat) (s : State) : Host.Outcome State Fault Refusal :=
  .next (s.start.setBits port .tseq tile (qfd TSEQ.Q_CTRL_reset queue) 1)

/-- DOORBELL. A write of Q_DOORBELL (06 R140; 15 R378, R396). -/
def execDoorbell (port : Port) (tile queue tail : Nat) (s : State) : Host.Outcome State Fault Refusal :=
  .next (s.start.unitWrite port .tseq tile (0x114 + 0x40 * queue) tail)

/-- SEM_SET. A write of SEM_VAL (06 R154). -/
def execSemSet (port : Port) (tile v : Nat) (s : State) : Host.Outcome State Fault Refusal :=
  .next (s.start.unitWrite port .tseq tile TSEQ.SEM_VAL_value.off v)

/-- SEM_ADD. A write of SEM_ADD (06 R154). -/
def execSemAdd (port : Port) (tile v : Nat) (s : State) : Host.Outcome State Fault Refusal :=
  .next (s.start.unitWrite port .tseq tile TSEQ.SEM_ADD_value.off v)

/-- TSEQ_ENABLE. A write of TSEQ enable (06 R170). -/
def execTseqEnable (port : Port) (tile : Nat) (on : Bool) (s : State) : Host.Outcome State Fault Refusal :=
  .next (s.start.setBits port .tseq tile TSEQ.PAGE_CTRL_enable on.toNat)

/-- TSEQ_QUIESCE. A write of TSEQ quiesce (06 R170). -/
def execTseqQuiesce (port : Port) (tile : Nat) (on : Bool) (s : State) : Host.Outcome State Fault Refusal :=
  .next (s.start.setBits port .tseq tile TSEQ.PAGE_CTRL_quiesce on.toNat)

/-- TSEQ_SOFT_RESET. A write of TSEQ soft_reset (06 R170). -/
def execTseqSoftReset (port : Port) (tile : Nat) (s : State) : Host.Outcome State Fault Refusal :=
  .next (s.start.setBits port .tseq tile TSEQ.PAGE_CTRL_soft_reset 1)

/-- SEM_CLEAR. A write of sem_clear (06 R150). -/
def execSemClear (port : Port) (tile : Nat) (s : State) : Host.Outcome State Fault Refusal :=
  .next (s.start.setBits port .tseq tile TSEQ.PAGE_CTRL_sem_clear 1)

/-- TE_ENABLE. A write of a tensor engine's enable (03 R94); engine is 4·tile + number. -/
def execTeEnable (port : Port) (engine : Nat) (on : Bool) (s : State) : Host.Outcome State Fault Refusal :=
  .next (s.start.setBits port .te engine TE.PAGE_CTRL_enable on.toNat)

/-- TE_QUIESCE. A write of a tensor engine's quiesce (03 R94). -/
def execTeQuiesce (port : Port) (engine : Nat) (on : Bool) (s : State) : Host.Outcome State Fault Refusal :=
  .next (s.start.setBits port .te engine TE.PAGE_CTRL_quiesce on.toNat)

/-- TE_SOFT_RESET. A write of a tensor engine's soft_reset (03 R94). -/
def execTeSoftReset (port : Port) (engine : Nat) (s : State) : Host.Outcome State Fault Refusal :=
  .next (s.start.setBits port .te engine TE.PAGE_CTRL_soft_reset 1)

/-- DMA_ENABLE. A write of DMA enable (18 R463). -/
def execDmaEnable (port : Port) (tile : Nat) (on : Bool) (s : State) : Host.Outcome State Fault Refusal :=
  .next (s.start.setBits port .dma tile DMA.PAGE_CTRL_enable on.toNat)

/-- DMA_QUIESCE. A write of DMA quiesce (18 R463). -/
def execDmaQuiesce (port : Port) (tile : Nat) (on : Bool) (s : State) : Host.Outcome State Fault Refusal :=
  .next (s.start.setBits port .dma tile DMA.PAGE_CTRL_quiesce on.toNat)

/-- DMA_SOFT_RESET. A write of DMA soft_reset (18 R463). -/
def execDmaSoftReset (port : Port) (tile : Nat) (s : State) : Host.Outcome State Fault Refusal :=
  .next (s.start.setBits port .dma tile DMA.PAGE_CTRL_soft_reset 1)

/-- VE_ENABLE. A write of VE enable (07 R200). -/
def execVeEnable (port : Port) (tile : Nat) (on : Bool) (s : State) : Host.Outcome State Fault Refusal :=
  .next (s.start.setBits port .ve tile VE.PAGE_CTRL_enable on.toNat)

/-- VE_QUIESCE. A write of VE quiesce (07 R200). -/
def execVeQuiesce (port : Port) (tile : Nat) (on : Bool) (s : State) : Host.Outcome State Fault Refusal :=
  .next (s.start.setBits port .ve tile VE.PAGE_CTRL_quiesce on.toNat)

/-- VE_SOFT_RESET. A write of VE soft_reset (07 R200). -/
def execVeSoftReset (port : Port) (tile : Nat) (s : State) : Host.Outcome State Fault Refusal :=
  .next (s.start.setBits port .ve tile VE.PAGE_CTRL_soft_reset 1)

/-- RNG_JOB_KEY_WRITE. A write of RNG.JOB_KEY, both halves (08 R204). -/
def execRngJobKeyWrite (port : Port) (tile key : Nat) (s : State) : Host.Outcome State Fault Refusal :=
  .next (s.start.unitPair port .rng tile RNG.JOB_KEY_LO_key.off key)

/-- RNG_STEP_WRITE. A write of RNG.STEP (08 R204). -/
def execRngStepWrite (port : Port) (tile v : Nat) (s : State) : Host.Outcome State Fault Refusal :=
  .next (s.start.unitWrite port .rng tile RNG.STEP_value.off v)

/-- RNG_DRAW_WRITE. A write of DRAW[n], both halves (08 R211). -/
def execRngDrawWrite (port : Port) (tile n v : Nat) (s : State) : Host.Outcome State Fault Refusal :=
  .next (s.start.unitPair port .rng tile (RNG.DRAW_LO_count.off + 16 * n) v)

/-- RNG_REALIGN. A write of REALIGN (08 R211). -/
def execRngRealign (port : Port) (tile : Nat) (s : State) : Host.Outcome State Fault Refusal :=
  .next (s.start.unitWrite port .rng tile RNG.REALIGN_go.off 1)

/-- RNG_ENABLE. A write of RNG enable (08 R225). -/
def execRngEnable (port : Port) (tile : Nat) (on : Bool) (s : State) : Host.Outcome State Fault Refusal :=
  .next (s.start.setBits port .rng tile RNG.PAGE_CTRL_enable on.toNat)

/-- RNG_QUIESCE. A write of RNG quiesce (08 R225). -/
def execRngQuiesce (port : Port) (tile : Nat) (on : Bool) (s : State) : Host.Outcome State Fault Refusal :=
  .next (s.start.setBits port .rng tile RNG.PAGE_CTRL_quiesce on.toNat)

/-- RNG_SOFT_RESET. A write of RNG soft_reset (08 R225). -/
def execRngSoftReset (port : Port) (tile : Nat) (s : State) : Host.Outcome State Fault Refusal :=
  .next (s.start.setBits port .rng tile RNG.PAGE_CTRL_soft_reset 1)

/-- SCALE_ENABLE. A write of SCALE enable (08 R225). -/
def execScaleEnable (port : Port) (tile : Nat) (on : Bool) (s : State) : Host.Outcome State Fault Refusal :=
  .next (s.start.setBits port .scale tile SCALE.PAGE_CTRL_enable on.toNat)

/-- SCALE_QUIESCE. A write of SCALE quiesce (08 R225). -/
def execScaleQuiesce (port : Port) (tile : Nat) (on : Bool) (s : State) : Host.Outcome State Fault Refusal :=
  .next (s.start.setBits port .scale tile SCALE.PAGE_CTRL_quiesce on.toNat)

/-- SCALE_SOFT_RESET. A write of SCALE soft_reset (08 R225). -/
def execScaleSoftReset (port : Port) (tile : Nat) (s : State) : Host.Outcome State Fault Refusal :=
  .next (s.start.setBits port .scale tile SCALE.PAGE_CTRL_soft_reset 1)

/-- WATCH_IDX_WRITE. A write of WATCH_IDX (08 R219). -/
def execWatchIdxWrite (port : Port) (tile slot : Nat) (clear : Bool) (s : State) : Host.Outcome State Fault Refusal :=
  .next (s.start.unitWrite port .watch tile WATCH.WATCH_IDX_slot.off (slot % 4096 + clear.toNat * 2 ^ 31))

/-- WATCH_SOFT_RESET. A write of WATCH soft_reset (08 R225). -/
def execWatchSoftReset (port : Port) (tile : Nat) (s : State) : Host.Outcome State Fault Refusal :=
  .next (s.start.setBits port .watch tile WATCH.PAGE_CTRL_soft_reset 1)

/-- NORM_ENABLE. A write of NORM enable (08 R225). -/
def execNormEnable (port : Port) (on : Bool) (s : State) : Host.Outcome State Fault Refusal :=
  .next (s.start.setBits port .norm 0 NORM.PAGE_CTRL_enable on.toNat)

/-- NORM_QUIESCE. A write of NORM quiesce (08 R225). -/
def execNormQuiesce (port : Port) (on : Bool) (s : State) : Host.Outcome State Fault Refusal :=
  .next (s.start.setBits port .norm 0 NORM.PAGE_CTRL_quiesce on.toNat)

/-- GROUP_LOAD. A write of GROUP_LOAD with go (10 R240). -/
def execGroupLoad (port : Port) (idx : Nat) (s : State) : Host.Outcome State Fault Refusal :=
  .next (s.start.unitWrite port .coll 0 COLL.GROUP_LOAD_idx.off (idx % 4096 + 2 ^ 31))

/-- GROUP_BASE_WRITE. A write of GROUP_BASE, both halves, or of GROUP_COUNT (10 R241). -/
def execGroupBaseWrite (port : Port) (count : Bool) (v : Nat) (s : State) : Host.Outcome State Fault Refusal :=
  .next (if count then s.start.unitWrite port .coll 0 COLL.GROUP_COUNT_entries.off v else s.start.unitPair port .coll 0 COLL.GROUP_BASE_LO_addr.off v)

/-- COLL_JOB_KEY_WRITE. A write of COLL.JOB_KEY, both halves (10 R250). -/
def execCollJobKeyWrite (port : Port) (key : Nat) (s : State) : Host.Outcome State Fault Refusal :=
  .next (s.start.unitPair port .coll 0 COLL.JOB_KEY_LO_key.off key)

/-- REPORT_BASE_WRITE. A write of REPORT_BASE, both halves (10 R269). -/
def execReportBaseWrite (port : Port) (addr : Nat) (s : State) : Host.Outcome State Fault Refusal :=
  .next (s.start.unitPair port .coll 0 COLL.REPORT_BASE_LO_addr.off addr)

/-- COLL_ENABLE. A write of COLL enable (10 R267). -/
def execCollEnable (port : Port) (on : Bool) (s : State) : Host.Outcome State Fault Refusal :=
  .next (s.start.setBits port .coll 0 COLL.PAGE_CTRL_enable on.toNat)

/-- COLL_QUIESCE. A write of COLL quiesce (10 R267). -/
def execCollQuiesce (port : Port) (on : Bool) (s : State) : Host.Outcome State Fault Refusal :=
  .next (s.start.setBits port .coll 0 COLL.PAGE_CTRL_quiesce on.toNat)

/-- COLL_SOFT_RESET. A write of COLL soft_reset (10 R267). -/
def execCollSoftReset (port : Port) (s : State) : Host.Outcome State Fault Refusal :=
  .next (s.start.setBits port .coll 0 COLL.PAGE_CTRL_soft_reset 1)

/-- COMB_SELECT. A write of COMB_CTRL.select (11 R272). -/
def execCombSelect (port : Port) (engine sel : Nat) (s : State) : Host.Outcome State Fault Refusal :=
  .next (s.start.setBits port .pe engine PE.COMB_CTRL_select sel)

/-- CH_REVIVE. A write of CH_CTRL.revive (11 R278). -/
def execChRevive (port : Port) (link chan : Nat) (s : State) : Host.Outcome State Fault Refusal :=
  .next (s.start.setBits port .pech link (PECH.CH_CTRL_revive.plus (16 * chan)) 1)

/-- MESH_COMMIT. A write of MESH_CTRL.commit (11 R287). -/
def execMeshCommit (port : Port) (engine : Nat) (s : State) : Host.Outcome State Fault Refusal :=
  .next (s.start.setBits port .pe engine PE.MESH_CTRL_commit 1)

/-- MESH_CAL. A write of MESH_CTRL.cal (11 R288). -/
def execMeshCal (port : Port) (engine : Nat) (s : State) : Host.Outcome State Fault Refusal :=
  .next (s.start.setBits port .pe engine PE.MESH_CTRL_cal 1)

/-- SHUTTER_FORCE. A write of SHUTTER.force (11 R292). -/
def execShutterForce (port : Port) (engine mask : Nat) (s : State) : Host.Outcome State Fault Refusal :=
  .next (s.start.setBits port .pe engine PE.SHUTTER_force mask)

/-- PE_ENABLE. A write of PE enable (11 R299). -/
def execPeEnable (port : Port) (engine : Nat) (on : Bool) (s : State) : Host.Outcome State Fault Refusal :=
  .next (s.start.setBits port .pe engine PE.PAGE_CTRL_enable on.toNat)

/-- PE_SOFT_RESET. A write of PE soft_reset (11 R299). -/
def execPeSoftReset (port : Port) (engine : Nat) (s : State) : Host.Outcome State Fault Refusal :=
  .next (s.start.setBits port .pe engine PE.PAGE_CTRL_soft_reset 1)

/-- PE_QUIESCE. A write of PE quiesce (11 R299). -/
def execPeQuiesce (port : Port) (engine : Nat) (on : Bool) (s : State) : Host.Outcome State Fault Refusal :=
  .next (s.start.setBits port .pe engine PE.PAGE_CTRL_quiesce on.toNat)

/-- PECH_ENABLE. A write of PECH enable (11 R299). -/
def execPechEnable (port : Port) (link : Nat) (on : Bool) (s : State) : Host.Outcome State Fault Refusal :=
  .next (s.start.setBits port .pech link PECH.PAGE_CTRL_enable on.toNat)

/-- PECH_SOFT_RESET. A write of PECH soft_reset (11 R299). -/
def execPechSoftReset (port : Port) (link : Nat) (s : State) : Host.Outcome State Fault Refusal :=
  .next (s.start.setBits port .pech link PECH.PAGE_CTRL_soft_reset 1)

/-- PECH_QUIESCE. A write of PECH quiesce (11 R299). -/
def execPechQuiesce (port : Port) (link : Nat) (on : Bool) (s : State) : Host.Outcome State Fault Refusal :=
  .next (s.start.setBits port .pech link PECH.PAGE_CTRL_quiesce on.toNat)

/-- LINK_OPT_TEST. A write of LINK_OPT_CTRL.test (11 R299). -/
def execLinkOptTest (port : Port) (link : Nat) (on : Bool) (s : State) : Host.Outcome State Fault Refusal :=
  .next (s.start.setBits port .pech link PECH.LINK_OPT_CTRL_test on.toNat)

/-- LINK_OPT_PARK. A write of LINK_OPT_CTRL.park (11 R299). -/
def execLinkOptPark (port : Port) (link : Nat) (on : Bool) (s : State) : Host.Outcome State Fault Refusal :=
  .next (s.start.setBits port .pech link PECH.LINK_OPT_CTRL_park on.toNat)

/-- LINK_ENABLE. A write of LINK enable (12 R323). -/
def execLinkEnable (port : Port) (link : Nat) (on : Bool) (s : State) : Host.Outcome State Fault Refusal :=
  .next (s.start.setBits port .link link LINK.PAGE_CTRL_enable on.toNat)

/-- LINK_SOFT_RESET. A write of LINK soft_reset (12 R323). -/
def execLinkSoftReset (port : Port) (link : Nat) (s : State) : Host.Outcome State Fault Refusal :=
  .next (s.start.setBits port .link link LINK.PAGE_CTRL_soft_reset 1)

/-- LINK_QUIESCE. A write of LINK quiesce (12 R323). -/
def execLinkQuiesce (port : Port) (link : Nat) (on : Bool) (s : State) : Host.Outcome State Fault Refusal :=
  .next (s.start.setBits port .link link LINK.PAGE_CTRL_quiesce on.toNat)

/-- PLAN_LOAD. A write of PLAN_LOAD.go (12 R309). -/
def execPlanLoad (port : Port) (s : State) : Host.Outcome State Fault Refusal :=
  .next (s.start.unitWrite port .plan 0 PLAN.PLAN_LOAD_go.off 1)

/-- L3_RELEASE. A write of L3_CTRL.release (13 R334). -/
def execL3Release (port : Port) (s : State) : Host.Outcome State Fault Refusal :=
  .next (s.start.unitWrite port .snap 0 SNAP.L3_CTRL_release.off 1)

/-- PAIR_GO. A write of PAIR with go (13 R335). -/
def execPairGo (port : Port) (rank : Nat) (s : State) : Host.Outcome State Fault Refusal :=
  .next (s.start.unitWrite port .snap 0 SNAP.PAIR_rank.off (rank % 2 ^ 16 + 2 ^ 31))

/-- REPLAY_START. A write of REPLAY_CTRL.start (13 R341). -/
def execReplayStart (port : Port) (s : State) : Host.Outcome State Fault Refusal :=
  .next (s.start.unitWrite port .trail 0 TRAIL.REPLAY_CTRL_start.off 1)

/-- REPLAY_STOP. A write of REPLAY_CTRL.stop (13 R341). -/
def execReplayStop (port : Port) (s : State) : Host.Outcome State Fault Refusal :=
  .next (s.start.unitWrite port .trail 0 TRAIL.REPLAY_CTRL_start.off 2)

/-- LOST_CLR. A write of LOST_CLR (13 R344). -/
def execLostClr (port : Port) (s : State) : Host.Outcome State Fault Refusal :=
  .next (s.start.unitWrite port .snap 0 SNAP.LOST_CLR_go.off 1)

/-- RESTORE_GO. A write of RESTORE_CTRL with go (13 R347). -/
def execRestoreGo (port : Port) (src asRank : Nat) (s : State) : Host.Outcome State Fault Refusal :=
  .next (s.start.unitWrite port .snap 0 SNAP.RESTORE_CTRL_src.off (src % 4 + 16 + asRank % 2 ^ 16 * 2 ^ 16))

/-- RESTORE_REALIGN. A write of RESTORE_CTRL.realign (13 R349). -/
def execRestoreRealign (port : Port) (s : State) : Host.Outcome State Fault Refusal :=
  .next (s.start.setBits port .snap 0 SNAP.RESTORE_CTRL_realign 1)

/-- RESTORE_ACCEPT_GEN. A write of RESTORE_CTRL.accept_gen (13 R348). -/
def execRestoreAcceptGen (port : Port) (s : State) : Host.Outcome State Fault Refusal :=
  .next (s.start.setBits port .snap 0 SNAP.RESTORE_CTRL_accept_gen 1)

/-- SNAP_ENABLE. A write of SNAP enable (13 R353). -/
def execSnapEnable (port : Port) (on : Bool) (s : State) : Host.Outcome State Fault Refusal :=
  .next (s.start.setBits port .snap 0 SNAP.PAGE_CTRL_enable on.toNat)

/-- SNAP_SOFT_RESET. A write of SNAP soft_reset (13 R353). -/
def execSnapSoftReset (port : Port) (s : State) : Host.Outcome State Fault Refusal :=
  .next (s.start.setBits port .snap 0 SNAP.PAGE_CTRL_soft_reset 1)

/-- SNAP_QUIESCE. A write of SNAP quiesce (13 R353). -/
def execSnapQuiesce (port : Port) (on : Bool) (s : State) : Host.Outcome State Fault Refusal :=
  .next (s.start.setBits port .snap 0 SNAP.PAGE_CTRL_quiesce on.toNat)

/-- TRAIL_ENABLE. A write of TRAIL enable (13 R353). -/
def execTrailEnable (port : Port) (on : Bool) (s : State) : Host.Outcome State Fault Refusal :=
  .next (s.start.setBits port .trail 0 TRAIL.PAGE_CTRL_enable on.toNat)

/-- TRAIL_SOFT_RESET. A write of TRAIL soft_reset (13 R353). -/
def execTrailSoftReset (port : Port) (s : State) : Host.Outcome State Fault Refusal :=
  .next (s.start.setBits port .trail 0 TRAIL.PAGE_CTRL_soft_reset 1)

/-- TRAIL_QUIESCE. A write of TRAIL quiesce (13 R353). -/
def execTrailQuiesce (port : Port) (on : Bool) (s : State) : Host.Outcome State Fault Refusal :=
  .next (s.start.setBits port .trail 0 TRAIL.PAGE_CTRL_quiesce on.toNat)

/-- ERR_ENTRY_READ. A read of ERR_ENTRY0 (14 R362). -/
def execErrEntryRead (port : Port) (s : State) : Host.Outcome State Fault Refusal :=
  .next (s.start.unitRead port .module 0 MODULE.ERR_ENTRY0_word.off)

/-- ERR_POP. A write of ERR_POP.pop (14 R362). -/
def execErrPop (port : Port) (s : State) : Host.Outcome State Fault Refusal :=
  .next (s.start.unitWrite port .module 0 MODULE.ERR_POP_pop.off 1)

/-- ERR_ACK. A write of ERR_ACK.ack (14 R361). -/
def execErrAck (port : Port) (s : State) : Host.Outcome State Fault Refusal :=
  .next (s.start.unitWrite port .module 0 MODULE.ERR_ACK_ack.off 1)

/-- FIREBREAK_FORCE. A write of FIREBREAK.force (14 R370). -/
def execFirebreakForce (port : Port) (s : State) : Host.Outcome State Fault Refusal :=
  .next (s.start.unitWrite port .module 0 MODULE.FIREBREAK_force.off 1)

/-- PWR_REQ. A write of PWR_REQ (15 R373). -/
def execPwrReq (port : Port) (state : Nat) (s : State) : Host.Outcome State Fault Refusal :=
  .next (s.start.unitWrite port .pwr 0 PWR.PWR_REQ_state.off state)

/-- CAP_WRITE. A write of CAP (15 R381). -/
def execCapWrite (port : Port) (watts : Nat) (s : State) : Host.Outcome State Fault Refusal :=
  .next (s.start.unitWrite port .pwr 0 PWR.CAP_watts.off watts)

/-- TCLK_DIV_WRITE. A write of TCLK_DIV (15 R392). -/
def execTclkDivWrite (port : Port) (v : Nat) (s : State) : Host.Outcome State Fault Refusal :=
  .next (s.start.unitWrite port .clk 0 CLK.TCLK_DIV_div.off v)

/-- SENS_FLAG_CLEAR. A write of 1 to SENS_FLAG.ready (15 R395). -/
def execSensFlagClear (port : Port) (s : State) : Host.Outcome State Fault Refusal :=
  .next (s.start.unitWrite port .ranger 0 RANGER.SENS_FLAG_ready.off 1)

/-- GET_ID. The command GET_ID (16 R410). -/
def execGetId (port : Port) (pecOk : Bool) (s : State) : Host.Outcome State Fault Refusal :=
  .next (s.start.rangerCommand port pecOk 0x01 [])

/-- SET_COORD. The command SET_COORD (16 R411). -/
def execSetCoord (port : Port) (pecOk : Bool) (rank feed : Nat) (s : State) : Host.Outcome State Fault Refusal :=
  .next (s.start.rangerCommand port pecOk 0x02 [rank, feed])

/-- SET_VALID. The command SET_VALID (16 R411). -/
def execSetValid (port : Port) (pecOk : Bool) (s : State) : Host.Outcome State Fault Refusal :=
  .next (s.start.rangerCommand port pecOk 0x03 [])

/-- CLR_VALID. The command CLR_VALID (16 R411; 12 R302). -/
def execClrValid (port : Port) (pecOk : Bool) (s : State) : Host.Outcome State Fault Refusal :=
  .next (s.start.rangerCommand port pecOk 0x04 [])

/-- READ_REG. The command READ_REG (16 R410). -/
def execReadReg (port : Port) (pecOk : Bool) (page off : Nat) (s : State) : Host.Outcome State Fault Refusal :=
  .next (s.start.rangerCommand port pecOk 0x05 [page, off])

/-- WRITE_REG. The command WRITE_REG (16 R410, R419). -/
def execWriteReg (port : Port) (pecOk : Bool) (page off v : Nat) (s : State) : Host.Outcome State Fault Refusal :=
  .next (s.start.rangerCommand port pecOk 0x06 [page, off, v])

/-- MGMT_PWR_REQ. The command PWR_REQ (16 R410; 15 R373). -/
def execMgmtPwrReq (port : Port) (pecOk : Bool) (state : Nat) (s : State) : Host.Outcome State Fault Refusal :=
  .next (s.start.rangerCommand port pecOk 0x07 [state])

/-- READ_WAKE. The command READ_WAKE (16 R410). -/
def execReadWake (port : Port) (pecOk : Bool) (s : State) : Host.Outcome State Fault Refusal :=
  .next (s.start.rangerCommand port pecOk 0x08 [])

/-- CENSUS. The command CENSUS (16 R425). -/
def execCensus (port : Port) (pecOk : Bool) (s : State) : Host.Outcome State Fault Refusal :=
  .next (s.start.rangerCommand port pecOk 0x09 [])

/-- CENSUS_GO. A write of CENSUS_CTRL.go (16 R425). -/
def execCensusGo (port : Port) (s : State) : Host.Outcome State Fault Refusal :=
  .next (s.start.unitWrite port .module 0 MODULE.CENSUS_CTRL_go.off 1)

/-- READ_ERR. The command READ_ERR (14 R362; 16 R410). -/
def execReadErr (port : Port) (pecOk : Bool) (s : State) : Host.Outcome State Fault Refusal :=
  .next (s.start.rangerCommand port pecOk 0x0A [])

/-- ACK_ERR. The command ACK_ERR (14 R361; 16 R410). -/
def execAckErr (port : Port) (pecOk : Bool) (s : State) : Host.Outcome State Fault Refusal :=
  .next (s.start.rangerCommand port pecOk 0x0B [])

/-- RESET. The command RESET (16 R402, R410, R419). -/
def execReset (port : Port) (pecOk : Bool) (key : Nat) (s : State) : Host.Outcome State Fault Refusal :=
  .next (s.start.rangerCommand port pecOk 0x0C [key])

/-- FW_WRITE. The command FW_WRITE (16 R415). -/
def execFwWrite (port : Port) (pecOk : Bool) (addr len : Nat) (s : State) : Host.Outcome State Fault Refusal :=
  .next (s.start.rangerCommand port pecOk 0x0D [addr % 2 ^ 32, addr / 2 ^ 32, len])

/-- FW_ACTIVATE. The command FW_ACTIVATE (16 R415). -/
def execFwActivate (port : Port) (pecOk : Bool) (slot : Nat) (s : State) : Host.Outcome State Fault Refusal :=
  .next (s.start.rangerCommand port pecOk 0x0E [slot])

/-- DBG_REQUEST. A write of DBG_REQ with go (16 R420). -/
def execDbgRequest (port : Port) (scope : Nat) (s : State) : Host.Outcome State Fault Refusal :=
  .next (s.start.unitWrite port .fuse 0 FUSE.DBG_REQ_scope.off (scope % 4 + 16))

/-- DBG_SUBMIT. A write of DBG_SUBMIT (16 R420). -/
def execDbgSubmit (port : Port) (s : State) : Host.Outcome State Fault Refusal :=
  .next (s.start.unitWrite port .fuse 0 FUSE.DBG_SUBMIT_go.off 1)

/-- FLASH_READ. A write of FC_CMD that starts a READ (16 R422, R423); `dead` are blocks that have become uncorrectable
since. -/
def execFlashRead (port : Port) (dead : List Nat) (s : State) : Host.Outcome State Fault Refusal :=
  .next ((s.start.deadBlocks dead).unitWrite port .flash 0 FLASH.FC_CMD_op.off (1 + 2 ^ 31))

/-- FLASH_WRITE. A write of FC_CMD that starts a WRITE (16 R422). -/
def execFlashWrite (port : Port) (s : State) : Host.Outcome State Fault Refusal :=
  .next (s.start.unitWrite port .flash 0 FLASH.FC_CMD_op.off (2 + 2 ^ 31))

/-- FLASH_TRIM. A write of FC_CMD that starts a TRIM (16 R422). -/
def execFlashTrim (port : Port) (s : State) : Host.Outcome State Fault Refusal :=
  .next (s.start.unitWrite port .flash 0 FLASH.FC_CMD_op.off (3 + 2 ^ 31))

/-- FLASH_FLUSH. A write of FC_CMD that starts a FLUSH (16 R422). -/
def execFlashFlush (port : Port) (s : State) : Host.Outcome State Fault Refusal :=
  .next (s.start.unitWrite port .flash 0 FLASH.FC_CMD_op.off (4 + 2 ^ 31))

/-- SVC_PARK. A write of SVC_CTRL.park (17 R435). -/
def execSvcPark (port : Port) (s : State) : Host.Outcome State Fault Refusal :=
  .next (s.start.setBits port .module 0 MODULE.SVC_CTRL_park 1)

/-- SVC_CANCEL. A write of SVC_CTRL.cancel (17 R435). -/
def execSvcCancel (port : Port) (s : State) : Host.Outcome State Fault Refusal :=
  .next (s.start.setBits port .module 0 MODULE.SVC_CTRL_cancel 1)

/-- SVC_UNPARK. A write of SVC_CTRL.unpark (17 R438). -/
def execSvcUnpark (port : Port) (s : State) : Host.Outcome State Fault Refusal :=
  .next (s.start.setBits port .module 0 MODULE.SVC_CTRL_unpark 1)

/-- STKPHY_SOFT_RESET. A write of STKPHY soft_reset (18 R465). -/
def execStkphySoftReset (port : Port) (stack : Nat) (s : State) : Host.Outcome State Fault Refusal :=
  .next (s.start.setBits port .stkphy stack STKPHY.PAGE_CTRL_soft_reset 1)

end Sys2Proof.Machine
end

