-- ==== Sys2Proof/Machine/Vector.lean ====
section
/-!
DEFINITION. The vector engine: lanes, masks, reductions, TOPK and the optimizer updates, with the VEC commands
(07 R171 to R200).
-/
namespace Sys2Proof.Machine

/-- A VEC occurrence's fixed parts: memory as it stands when the descriptor begins, its descriptor and windows, the
conversion word, and the key and step of stochastic rounding. -/
structure VecJob where
  mem  : MemSt
  desc : BitVec 512
  wins : List (Option Window)
  cvt  : Cvt
  key  : Nat
  step : Nat
  deriving DecidableEq, Repr

namespace VecJob

def op (j : VecJob) : Nat := vecOp j.desc
def count (j : VecJob) : Nat := vecCount j.desc
def aux (j : VecJob) : Nat := vecAux j.desc
def wide (j : VecJob) : Bool := vecWide j.desc
/-- A window by its place in the list of `vecRoles`. -/
def win (j : VecJob) (i : Nat) : Option Window := j.wins.getD i none

/-- An element of a window; an unnamed window gives +0 that no operation reads. -/
def elem (j : VecJob) (i v l : Nat) : Elem :=
  match j.win i with
  | some w => j.mem.elem w.fmt (w.addr v l)
  | none => ⟨.zero false, false⟩

/-- A bit of a mask window and whether its word is poisoned (07 R174). -/
def maskBit (j : VecJob) (i v l : Nat) : Bool × Bool :=
  match j.win i with
  | some w => (j.mem.bit (w.maskByte v l) l, j.mem.poisoned (w.maskByte v l))
  | none => (false, false)

/-- Whether a lane is active, and whether its mask bit poisons it (07 R182). -/
def lane (j : VecJob) (v l : Nat) : Bool × Bool :=
  if vecMaskEn j.desc then
    let b := j.maskBit 4 v l
    (b.1 || b.2, b.2)
  else (true, false)

/-- The scale exponent of a lane's block in a scale window, and its poison (07 R187). -/
def scaleAt (j : VecJob) (i v l : Nat) : Int × Bool :=
  match j.win i with
  | some w =>
    let a := w.base + (1024 * v + l) / 32
    (signedOf 8 (j.mem.readByte a), j.mem.poisoned a)
  | none => (0, false)

/-- The immediate of R181, at the lane width. -/
def imm (j : VecJob) : Val :=
  if j.wide then bin64Fmt.decode (vecImm j.desc) else fp32Fmt.decode (natBits (vecImm j.desc) 0 32)

end VecJob

/-- What one lane, or one result, writes: the elements, its flags, its watcher class and amax when counted, and whether
it is poisoned. -/
structure LaneOut where
  vec   : Nat
  elems : List WElem
  flags : Nat
  cls   : Option Nat
  amax  : Nat
  poison : Bool
  deriving DecidableEq, Repr

/-- Converts one result to element `l` of vector `v` of the target (07 R178 step 3, R185; 02 R58). -/
def vecWrite (j : VecJob) (dst : Window) (scale : Int) (v l : Nat) (x : LaneVal) (poison : Bool) (at_ : Nat) : LaneOut :=
  let c := convertFmt dst.fmt scale (j.cvt.mode j.key j.step (dst.pos v l)) j.cvt.ieee x.val
  { vec := at_, elems := [⟨dst.addr v l, dst.size, c.code, poison⟩],
    flags := Nat.lor (Nat.lor x.flags c.flags) (bitIf poison flagPoison),
    cls := if poison then none else some (watchClass dst.fmt c x.sat), amax := if poison then 0 else amaxOf x.val,
    poison := poison }

/-- CVT between equal formats that are no wire formats copies the code to element `l` of vector `v`, NaN payloads included,
and raises nothing; the copied element is counted by its class (02 R34, R59; DEDUCED, notes/assumptions/26.md). -/
def vecCopy (j : VecJob) (dst src : Window) (v l : Nat) (x : Val) (poison : Bool) : LaneOut :=
  let code := j.mem.code src.fmt (src.addr v l)
  { vec := v, elems := [⟨dst.addr v l, dst.size, code, poison⟩], flags := bitIf poison flagPoison,
    cls := if poison then none else some (watchClass dst.fmt ⟨code, false, false, false, false⟩ false),
    amax := if poison then 0 else amaxOf x, poison := poison }

/-- Every active lane of every vector, in order. -/
def vecLanes (j : VecJob) (f : Nat → Nat → Bool → LaneOut) : List LaneOut :=
  (List.range (j.count + 1)).flatMap fun v =>
    ((List.range 1024).filter fun l => (j.lane v l).1).map fun l => f v l (j.lane v l).2

/-- An exact- or function-class lane (07 R178 to R181, R186, R187). -/
def elementLane (j : VecJob) (dst : Window) (v l : Nat) (maskPoison : Bool) : LaneOut :=
  let op := j.op
  if op = 0x0B then
    let m := j.maskBit 3 v l
    let b : Elem := if vecImmB j.desc then ⟨j.imm, false⟩ else j.elem 2 v l
    let e := if m.1 then j.elem 1 v l else b
    let other := if m.1 then b else j.elem 1 v l
    let o := vecWrite j dst 0 v l (.pure e.val) (maskPoison || m.2 || e.poison) v
    -- the operand not chosen is read too: its poison is consumed, but goes into no result (05 R118)
    if other.poison then { o with flags := Nat.lor o.flags flagPoison, poison := true } else o
  else if op = 0x0C then
    let sa := j.scaleAt 6 v l
    let sd := j.scaleAt 7 v l
    let e := j.elem 1 v l
    let poison := maskPoison || e.poison || sa.2 || sd.2
    match j.win 1 with
    | some a =>
      if a.fmt = dst.fmt ∧ fmtWire a.fmt = false then vecCopy j dst a v l e.val poison
      else vecWrite j dst sd.1 v l (.pure (e.val.scale2 sa.1)) poison v
    | none => vecWrite j dst sd.1 v l (.pure (e.val.scale2 sa.1)) poison v
  else if op = 0x0D then vecWrite j dst 0 v l (exactOp op (.zero false) j.imm (.zero false)) maskPoison v
  else
    let a := j.elem 1 v l
    let b : Elem := if vecImmB j.desc then ⟨j.imm, false⟩ else j.elem 2 v l
    let c := j.elem 3 v l
    let d : Elem := if op = 0x19 then j.elem 0 v l else ⟨.zero false, false⟩
    let x := if op < 0x10 then exactOp op a.val b.val c.val else functionOp j.cvt.ieee op d.val a.val b.val c.val
    vecWrite j dst 0 v l x (maskPoison || a.poison || b.poison || c.poison || d.poison) v

/-! ### Masks (07 R174, R183, R186) -/

/-- The bit a mask-writing operation gives a lane, and whether a source is poisoned. -/
def maskLane (j : VecJob) (v l : Nat) : Bool × Bool :=
  let a := j.maskBit 1 v l
  let b := j.maskBit 2 v l
  match j.op with
  | 0x20 =>
    let x := j.elem 1 v l
    let y := j.elem 2 v l
    let y : Elem := if vecImmB j.desc then ⟨j.imm, false⟩ else y
    (cmpPred (natBits j.aux 0 3) x.val y.val, x.poison || (decide (natBits j.aux 0 3 ≠ 7) && y.poison))
  | 0x21 =>
    match j.win 1 with
    | some w =>
      let bits := j.mem.code 2 (w.addr v l)
      (decide (Nat.land bits (natBits (vecImm j.desc) 32 32) = natBits (vecImm j.desc) 0 32),
        j.mem.poisonedN (w.addr v l) 4)
    | none => (false, false)
  | 0x22 => (a.1 && b.1, a.2 || b.2)
  | 0x23 => (a.1 || b.1, a.2 || b.2)
  | 0x24 => (a.1 != b.1, a.2 || b.2)
  | _ => (a.1 && !b.1, a.2 || b.2)

/-- One 64-bit word of a written mask: the bits of its active lanes replaced; a poisoned lane, or a word already poisoned
that is written in part, is written poisoned. -/
def maskWord (j : VecJob) (dst : Window) (v k : Nat) : Option LaneOut :=
  let wa := dst.maskByte v (64 * k)
  let ls := (List.range 64).filter fun i => (j.lane v (64 * k + i)).1
  if ls.isEmpty then none
  else
    let p := ls.any fun i => (j.lane v (64 * k + i)).2 || (maskLane j v (64 * k + i)).2
    let kept := decide (ls.length < 64) && j.mem.wordPoison wa
    let data := ls.foldl (fun n i => putBits n i 1 (if (maskLane j v (64 * k + i)).1 then 1 else 0)) (j.mem.wordData wa)
    some { vec := v, elems := [⟨wa, 8, data, p || kept⟩], flags := bitIf (p || kept) flagPoison, cls := none, amax := 0,
           poison := p || kept }

def maskOuts (j : VecJob) (dst : Window) : List LaneOut :=
  (List.range (j.count + 1)).flatMap fun v => (List.range 16).filterMap fun k => maskWord j dst v k

/-! ### Reductions (07 R188 to R190) -/

/-- A leaf of a vector's sum: absent, or a binary64 value with its flags. -/
abbrev Leaf := Option LaneVal

/-- Joins two leaves; an absent one passes the other (03 R72). -/
def joinLeaf : Leaf → Leaf → Leaf
  | some a, some b => some ⟨(add64f a.val b.val).val, Nat.lor (Nat.lor a.flags b.flags) (add64f a.val b.val).flags, false⟩
  | some a, none => some a
  | none, b => b

def pairLeaves : List Leaf → List Leaf
  | a :: b :: r => joinLeaf a b :: pairLeaves r
  | l => l

/-- The balanced tree over 2^n leaves. -/
def leafTree : Nat → List Leaf → Leaf
  | 0, l => l.headD none
  | n + 1, l => leafTree n (pairLeaves l)

/-- A vector's sum for RSUM. -/
def vectorSum (j : VecJob) (v : Nat) : Leaf :=
  leafTree 10 ((List.range 1024).map fun l =>
    if (j.lane v l).1 then
      let x := (j.elem 1 v l).val
      some (if natBits j.aux 25 1 = 1 then mul64f x x else .pure x)
    else none)

/-- One step of RMAX, RMIN or RAMAX: NaN is left out. -/
def reduceStep (op : Nat) (acc x : Val) : Val :=
  if x.isNan then acc
  else
    match op with
    | 0x31 => valMax acc x
    | 0x32 => valMin acc x
    | _ => valMax acc x.abs

/-- The identity of a reduction (07 R188). -/
def reduceIdentity : Nat → Val
  | 0x31 => .inf true
  | 0x32 => .inf false
  | _ => .zero false

/-- Result `r` of a reduction, and the flags raised in each vector of its group before the final conversion. -/
def reduceResult (j : VecJob) (r : Nat) : LaneVal × List (Nat × Nat) :=
  let g := vecGroup j.desc
  let vs := (List.range g).map fun i => r * g + i
  let start : Val := if natBits j.aux 24 1 = 1 then (j.elem 0 (r / 1024) (r % 1024)).val else reduceIdentity j.op
  if j.op = 0x30 then
    let acc := vs.foldl (fun (st : LaneVal × List (Nat × Nat)) v =>
      match vectorSum j v with
      | some x =>
        let y := add64f st.1.val x.val
        (⟨y.val, 0, false⟩, st.2 ++ [(v, Nat.lor x.flags y.flags)])
      | none => st) (LaneVal.pure start, [])
    acc
  else
    let begin_ := if start.isNan then reduceIdentity j.op else start
    let startFlag := if start.isNan then [(r * g, flagInvalid)] else []
    vs.foldl (fun (st : LaneVal × List (Nat × Nat)) v =>
      let xs := ((List.range 1024).filter fun l => (j.lane v l).1).map fun l => (j.elem 1 v l).val
      (⟨xs.foldl (reduceStep j.op) st.1.val, 0, false⟩,
        if xs.any (fun x => x.isNan) then st.2 ++ [(v, flagInvalid)] else st.2)) (LaneVal.pure begin_, startFlag)

/-- A flag raised apart from any write. -/
def flagOut (x : Nat × Nat) : LaneOut := ⟨x.1, [], x.2, none, 0, false⟩

/-- A poisoned word read in a vector, apart from any write (05 R118, 07 R184). -/
def poisonOut (v : Nat) : LaneOut := ⟨v, [], flagPoison, none, 0, true⟩

/-- The vectors in which result `r` reads a poisoned word; a starting value is read with its group's first. -/
def reducePoisonVecs (j : VecJob) (r : Nat) : List Nat :=
  let g := vecGroup j.desc
  (if natBits j.aux 24 1 = 1 ∧ (j.elem 0 (r / 1024) (r % 1024)).poison = true then [r * g] else []) ++
  ((List.range g).map fun i => r * g + i).filter fun v => (List.range 1024).any fun l =>
    let a := j.lane v l
    a.1 && (a.2 || (j.elem 1 v l).poison)

/-- A reduction's results. A flag of the final conversion counts as arisen in the last vector of the group (DESIGN CHOICE,
notes/assumptions/110.md). -/
def reduceOuts (j : VecJob) (dst : Window) : List LaneOut :=
  (List.range (vecResults j.desc)).flatMap fun r =>
    let x := reduceResult j r
    let ps := reducePoisonVecs j r
    x.2.map flagOut ++ ps.map poisonOut ++
      [vecWrite j dst 0 (r / 1024) (r % 1024) x.1 (!ps.isEmpty) (r * vecGroup j.desc + (vecGroup j.desc - 1))]

/-! ### TOPK (07 R191 to R193) -/

/-- A candidate: its value and its logical position. -/
structure Cand where
  val : Val
  pos : Nat
  deriving DecidableEq, Repr

/-- Whether a candidate ranks before another (07 R192). -/
def Cand.before (smallest : Bool) (a b : Cand) : Bool :=
  let up := if smallest then a.val.below b.val else b.val.below a.val
  let down := if smallest then b.val.below a.val else a.val.below b.val
  up || (!down && decide (a.pos < b.pos))

/-- Inserts a candidate into a ranked list. -/
def rankInsert (smallest : Bool) (c : Cand) : List Cand → List Cand
  | [] => [c]
  | d :: r => if c.before smallest d then c :: d :: r else d :: rankInsert smallest c r

/-- The k first of a list of candidates. -/
def topOf (smallest : Bool) (k : Nat) (cs : List Cand) : List Cand :=
  cs.foldl (fun best c => (rankInsert smallest c best).take k) []

/-- The lanes of a segment, as (vector, lane). -/
def segLanes (j : VecJob) (sg : Nat) : List (Nat × Nat) :=
  if topkSegLog j.desc = 0 then
    (List.range (j.count + 1)).flatMap fun v => (List.range 1024).map fun l => (v, l)
  else
    let n := 2 ^ topkSegLog j.desc
    let per := 1024 / n
    (List.range n).map fun i => (sg / per, sg % per * n + i)

/-- The element of a linear result. -/
def linElem (w : Window) (i : Nat) : Nat := w.addr (i / 1024) (i % 1024)

/-- A segment's results. A flag of a final conversion, or of a candidate that was held already, counts as arisen in the last
vector of the segment (DESIGN CHOICE, notes/assumptions/110.md). -/
def topkSegment (j : VecJob) (dst posw a : Window) (sg : Nat) : List LaneOut :=
  let k := topkK j.desc
  let smallest := natBits j.aux 13 1 == 1
  let merge := natBits j.aux 12 1 == 1
  let lanes := (segLanes j sg).filter fun x => (j.lane x.1 x.2).1
  let vals := lanes.map fun x => (x.1, j.elem 1 x.1 x.2, a.pos x.1 x.2)
  let old : List (Elem × Nat × Bool) :=
    if merge then
      (List.range k).map fun i =>
        let n := sg * k + i
        (j.mem.elem dst.fmt (linElem dst n), j.mem.code 2 (linElem posw n), j.mem.poisonedN (linElem posw n) 4)
    else []
  let fillVal : Val := .inf (!smallest)
  let isFill (x : Elem × Nat × Bool) : Bool := decide (x.2.1 = 0xFFFFFFFF) && decide (x.1.val = fillVal)
  let cands := ((vals.filter fun x => !x.2.1.val.isNan).map fun x => Cand.mk x.2.1.val x.2.2) ++
    ((old.filter fun x => !isFill x && !x.1.val.isNan).map fun x => Cand.mk x.1.val x.2.1)
  let reads := lanes.filter fun x => (j.lane x.1 x.2).2 || (j.elem 1 x.1 x.2).poison
  let poison := !reads.isEmpty || old.any (fun x => x.1.poison || x.2.2)
  let best := topOf smallest k cands
  let last := if topkSegLog j.desc = 0 then j.count else sg / (1024 / 2 ^ topkSegLog j.desc)
  let flags := ((vals.filter fun x => x.2.1.val.isNan).map fun x => flagOut (x.1, flagInvalid)) ++
    (if old.any (fun x => x.1.val.isNan) then [flagOut (last, flagInvalid)] else [])
  flags ++ reads.map (fun x => poisonOut x.1) ++ (List.range k).flatMap fun i =>
    let c := best.getD i ⟨fillVal, 0xFFFFFFFF⟩
    let n := sg * k + i
    [vecWrite j dst 0 (n / 1024) (n % 1024) (.pure c.val) poison last,
      { vec := last, elems := [⟨linElem posw n, 4, c.pos, poison⟩], flags := 0, cls := none, amax := 0, poison := poison }]

def topkOuts (j : VecJob) (dst : Window) : List LaneOut :=
  match j.win 5, j.win 1 with
  | some posw, some a => (List.range (topkSegs j.desc)).flatMap fun sg => topkSegment j dst posw a sg
  | _, _ => []

/-! ### Optimizers (07 R196, R197) -/

/-- The parameter record, decoded exactly. -/
structure OptParam where
  lr : Val
  beta1 : Val
  beta2 : Val
  eps : Val
  wd : Val
  bc1 : Val
  bc2 : Val
  clip : Val
  deriving DecidableEq, Repr

def OptParam.ofBits (w : Nat) : OptParam :=
  let f (i : Nat) : Val := fp32Fmt.decode (natBits w (32 * i) 32)
  ⟨f 0, f 1, f 2, f 3, f 4, f 5, f 6, bin64Fmt.decode (natBits w 256 64)⟩

/-- The flags of a list of steps. -/
def orFlags (xs : List LaneVal) : Nat := xs.foldl (fun n x => Nat.lor n x.flags) 0

/-- The new moments and the exact-in-binary64 weight of one lane, with the flags of every step. -/
structure OptOut where
  w : LaneVal
  m : Val
  v : Val
  deriving DecidableEq, Repr

def adamw (ieee : Bool) (p : OptParam) (w g m v : Val) : OptOut :=
  let g1 := mul64f g p.clip
  let t1 := mul64f p.beta1 m
  let t2 := sub64f .one p.beta1
  let t3 := mul64f t2.val g1.val
  let t4 := add64f t1.val t3.val
  let m1 := round32f ieee t4.val
  let u1 := mul64f p.beta2 v
  let u2 := sub64f .one p.beta2
  let u3 := mul64f g1.val g1.val
  let u4 := mul64f u2.val u3.val
  let u5 := add64f u1.val u4.val
  let v1 := round32f ieee u5.val
  let n1 := mul64f m1.val p.bc1
  let d1 := mul64f v1.val p.bc2
  let d2 := sqrt64f d1.val
  let d3 := add64f d2.val p.eps
  let u := div64f n1.val d3.val
  let x1 := mul64f p.wd w
  let x2 := add64f u.val x1.val
  let x3 := mul64f p.lr x2.val
  let x4 := sub64f w x3.val
  ⟨⟨x4.val, orFlags [g1, t1, t2, t3, t4, m1, u1, u2, u3, u4, u5, v1, n1, d1, d2, d3, u, x1, x2, x3, x4], false⟩,
    m1.val, v1.val⟩

def sgdm (ieee : Bool) (p : OptParam) (w g m : Val) : OptOut :=
  let g1 := mul64f g p.clip
  let t1 := mul64f p.beta1 m
  let t2 := add64f t1.val g1.val
  let m1 := round32f ieee t2.val
  let x1 := mul64f p.wd w
  let x2 := add64f m1.val x1.val
  let x3 := mul64f p.lr x2.val
  let x4 := sub64f w x3.val
  ⟨⟨x4.val, orFlags [g1, t1, t2, m1, x1, x2, x3, x4], false⟩, m1.val, .zero false⟩

def optLane (j : VecJob) (dst : Window) (p : OptParam) (recPoison : Bool) (v l : Nat) (maskPoison : Bool) : LaneOut :=
  let adam := decide (j.op = 0x38)
  let w := j.elem 0 v l
  let g := j.elem 1 v l
  let m := j.elem 2 v l
  let vv : Elem := if adam then j.elem 3 v l else ⟨.zero false, false⟩
  let poison := maskPoison || recPoison || w.poison || g.poison || m.poison || vv.poison
  let x := if adam then adamw j.cvt.ieee p w.val g.val m.val vv.val else sgdm j.cvt.ieee p w.val g.val m.val
  let o := vecWrite j dst 0 v l x.w poison v
  let extra (i : Nat) (y : Val) : List WElem :=
    match j.win i with
    | some b => [⟨b.addr v l, b.size, fp32Fmt.ofVal y, poison⟩]
    | none => []
  { o with elems := o.elems ++ extra 2 x.m ++ (if adam then extra 3 x.v else []) }

def optOuts (j : VecJob) (dst : Window) : List LaneOut :=
  match j.win 5 with
  | some pw =>
    let p := OptParam.ofBits (j.mem.readN pw.base 64)
    let bad := j.mem.poisonedN pw.base 64
    (if bad then [poisonOut 0] else []) ++ vecLanes j fun v l mp => optLane j dst p bad v l mp
  | none => []

/-! ### A whole descriptor -/

/-- The scale bytes read for the check of their range, poisoned or not (07 R176, R187). -/
def scalePoison (j : VecJob) : Bool :=
  [6, 7].any fun i => match j.win i with
    | some w => j.mem.poisonedN w.base (32 * (j.count + 1))
    | none => false

/-- Everything a VEC writes and raises. -/
def vecOuts (j : VecJob) : List LaneOut :=
  match j.win 0, vop j.op with
  | some dst, some o =>
    match o.cls with
    | .exact | .func =>
      (if scalePoison j then [⟨0, [], 0, none, 0, true⟩] else []) ++ vecLanes j fun v l mp => elementLane j dst v l mp
    | .mask => maskOuts j dst
    | .reduce => reduceOuts j dst
    | .topk => topkOuts j dst
    | .opt => optOuts j dst
  | _, _ => []

/-- The byte ranges a VEC reads. Its lane mask is read whole; of another mask, the words that hold an active lane. -/
def vecReads (j : VecJob) : List (Nat × Nat) :=
  let lanes (w : Window) : List (Nat × Nat) :=
    (List.range (j.count + 1)).flatMap fun v =>
      ((List.range 1024).filter fun l => (j.lane v l).1).map fun l => (w.addr v l, w.size)
  let masks (i : Nat) (w : Window) : List (Nat × Nat) :=
    (List.range (j.count + 1)).flatMap fun v =>
      ((List.range 16).filter fun k => decide (i = 4) || (List.range 64).any fun l => (j.lane v (64 * k + l)).1).map
        fun k => (w.maskByte v (64 * k), 8)
  (vecRoles j.desc (j.win 6).isSome (j.win 7).isSome).flatMap fun r =>
    match j.win r.1 with
    | none => []
    | some w =>
      match r.2.kind with
      | .mask => if r.2.wr then [] else masks r.1 w
      | .scales => [(w.base, 32 * (j.count + 1))]
      | .param => [(w.base, 64)]
      | .results n =>
        if (j.op = 0x34 ∧ natBits j.aux 12 1 = 1) ∨ (j.op ≠ 0x34 ∧ natBits j.aux 24 1 = 1) then
          (List.range n).map fun i => (linElem w i, w.size)
        else []
      | .elems => if r.2.wr && decide (j.op < 0x38) && decide (j.op ≠ 0x19) then [] else lanes w

/-- VE_CUR_VEC shows the last vector that the engine has taken (07 R201). -/
def State.showVec (s : State) (t v : Nat) : State := s.fset (pageNum .ve t) VE.VE_CUR_VEC_vec v

/-- Applies what a VEC writes: one write of all its elements, the watcher counts and the amax. -/
def vecApply (s : State) (o : Occ) (outs : List LaneOut) : State :=
  let s := s.showVec o.tile (vecCount o.desc)
  let bytes := wElems (outs.flatMap fun x => x.elems)
  let partialPoison := s.mem.writeMeetsPoison bytes
  let s := s.store bytes
  let perVec := (List.range (vecCount o.desc + 1)).map fun v =>
    (outs.filter fun x => decide (x.vec = v)).foldl (fun n x => Nat.lor n x.flags) 0
  let poison := outs.any (fun x => x.poison) || partialPoison
  let s :=
    match o.win 0 with
    | some dst =>
      if dst.slotEn then
        let s := s.watchAdd o.tile dst.slot (outs.filterMap fun (x : LaneOut) => x.cls)
        if dst.amaxEn then s.mergeAmax o.tile dst.slot (outs.foldl (fun (n : Nat) (x : LaneOut) => max n x.amax) 0) else s
      else s
    | none => s
  s.putOcc { o with place := .done, poison := o.poison || poison, uflags := stickyWord perVec }

namespace State

/-- The job of a VEC occurrence. -/
def vecJob (s : State) (o : Occ) : VecJob :=
  ⟨s.mem, o.desc, o.wins, Cvt.ofWord (o.f 256 32), s.jobKey o.tile, o.step⟩

/-- The vector engine's next occurrence, when it is a VEC that has not run. -/
def veFront (s : State) (t : Nat) : Option Occ :=
  match s.unitFront t .ve with
  | some o => if o.place = .input then some o else none
  | none => none

/-- Runs the VEC in front when it has this operation and the tile's clock runs. -/
def runVec (s : State) (t op : Nat) : State :=
  match s.veFront t with
  | some o =>
    if o.opcode = 0x03 ∧ vecOp o.desc = op ∧ s.domainOn .ve t = true then
      let j := s.vecJob o
      vecApply (s.touchReads (vecReads j)) o (vecOuts j)
    else s
  | none => s

end State

/-! ### The commands -/

/-- VEC_ADD (07 R178, R180). -/
def execVecAdd (t : Nat) (s : State) : Host.Outcome State Fault Refusal := .next (s.start.runVec t 0x01)

/-- VEC_SUB (07 R178, R180). -/
def execVecSub (t : Nat) (s : State) : Host.Outcome State Fault Refusal := .next (s.start.runVec t 0x02)

/-- VEC_MUL (07 R178, R180). -/
def execVecMul (t : Nat) (s : State) : Host.Outcome State Fault Refusal := .next (s.start.runVec t 0x03)

/-- VEC_FMA (07 R178, R180). -/
def execVecFma (t : Nat) (s : State) : Host.Outcome State Fault Refusal := .next (s.start.runVec t 0x04)

/-- VEC_DIV (07 R178, R180). -/
def execVecDiv (t : Nat) (s : State) : Host.Outcome State Fault Refusal := .next (s.start.runVec t 0x05)

/-- VEC_SQRT (07 R178, R180). -/
def execVecSqrt (t : Nat) (s : State) : Host.Outcome State Fault Refusal := .next (s.start.runVec t 0x06)

/-- VEC_MAX (07 R178, R180). -/
def execVecMax (t : Nat) (s : State) : Host.Outcome State Fault Refusal := .next (s.start.runVec t 0x07)

/-- VEC_MIN (07 R178, R180). -/
def execVecMin (t : Nat) (s : State) : Host.Outcome State Fault Refusal := .next (s.start.runVec t 0x08)

/-- VEC_ABS (07 R178, R180). -/
def execVecAbs (t : Nat) (s : State) : Host.Outcome State Fault Refusal := .next (s.start.runVec t 0x09)

/-- VEC_NEG (07 R178, R180). -/
def execVecNeg (t : Nat) (s : State) : Host.Outcome State Fault Refusal := .next (s.start.runVec t 0x0A)

/-- VEC_SEL (07 R186). -/
def execVecSel (t : Nat) (s : State) : Host.Outcome State Fault Refusal := .next (s.start.runVec t 0x0B)

/-- VEC_CVT (07 R187). -/
def execVecCvt (t : Nat) (s : State) : Host.Outcome State Fault Refusal := .next (s.start.runVec t 0x0C)

/-- VEC_FILL (07 R181). -/
def execVecFill (t : Nat) (s : State) : Host.Outcome State Fault Refusal := .next (s.start.runVec t 0x0D)

/-- VEC_RSQRT (07 R179). -/
def execVecRsqrt (t : Nat) (s : State) : Host.Outcome State Fault Refusal := .next (s.start.runVec t 0x10)

/-- VEC_EXP2 (07 R179). -/
def execVecExp2 (t : Nat) (s : State) : Host.Outcome State Fault Refusal := .next (s.start.runVec t 0x11)

/-- VEC_LOG2 (07 R179). -/
def execVecLog2 (t : Nat) (s : State) : Host.Outcome State Fault Refusal := .next (s.start.runVec t 0x12)

/-- VEC_TANH (07 R179). -/
def execVecTanh (t : Nat) (s : State) : Host.Outcome State Fault Refusal := .next (s.start.runVec t 0x13)

/-- VEC_GELU (07 R179). -/
def execVecGelu (t : Nat) (s : State) : Host.Outcome State Fault Refusal := .next (s.start.runVec t 0x14)

/-- VEC_SILU (07 R179). -/
def execVecSilu (t : Nat) (s : State) : Host.Outcome State Fault Refusal := .next (s.start.runVec t 0x15)

/-- VEC_GELU_BWD (07 R179). -/
def execVecGeluBwd (t : Nat) (s : State) : Host.Outcome State Fault Refusal := .next (s.start.runVec t 0x16)

/-- VEC_SILU_BWD (07 R179). -/
def execVecSiluBwd (t : Nat) (s : State) : Host.Outcome State Fault Refusal := .next (s.start.runVec t 0x17)

/-- VEC_EXP2SUB (07 R194). -/
def execVecExp2sub (t : Nat) (s : State) : Host.Outcome State Fault Refusal := .next (s.start.runVec t 0x18)

/-- VEC_RESCALE_ADD (07 R195). -/
def execVecRescaleAdd (t : Nat) (s : State) : Host.Outcome State Fault Refusal := .next (s.start.runVec t 0x19)

/-- VEC_CMP (07 R183, R186). -/
def execVecCmp (t : Nat) (s : State) : Host.Outcome State Fault Refusal := .next (s.start.runVec t 0x20)

/-- VEC_BITTEST (07 R183, R186). -/
def execVecBittest (t : Nat) (s : State) : Host.Outcome State Fault Refusal := .next (s.start.runVec t 0x21)

/-- VEC_MAND (07 R183, R186). -/
def execVecMand (t : Nat) (s : State) : Host.Outcome State Fault Refusal := .next (s.start.runVec t 0x22)

/-- VEC_MOR (07 R183, R186). -/
def execVecMor (t : Nat) (s : State) : Host.Outcome State Fault Refusal := .next (s.start.runVec t 0x23)

/-- VEC_MXOR (07 R183, R186). -/
def execVecMxor (t : Nat) (s : State) : Host.Outcome State Fault Refusal := .next (s.start.runVec t 0x24)

/-- VEC_MANDN (07 R183, R186). -/
def execVecMandn (t : Nat) (s : State) : Host.Outcome State Fault Refusal := .next (s.start.runVec t 0x25)

/-- VEC_RSUM (07 R189). -/
def execVecRsum (t : Nat) (s : State) : Host.Outcome State Fault Refusal := .next (s.start.runVec t 0x30)

/-- VEC_RMAX (07 R190). -/
def execVecRmax (t : Nat) (s : State) : Host.Outcome State Fault Refusal := .next (s.start.runVec t 0x31)

/-- VEC_RMIN (07 R190). -/
def execVecRmin (t : Nat) (s : State) : Host.Outcome State Fault Refusal := .next (s.start.runVec t 0x32)

/-- VEC_RAMAX (07 R190). -/
def execVecRamax (t : Nat) (s : State) : Host.Outcome State Fault Refusal := .next (s.start.runVec t 0x33)

/-- VEC_TOPK (07 R191). -/
def execVecTopk (t : Nat) (s : State) : Host.Outcome State Fault Refusal := .next (s.start.runVec t 0x34)

/-- OPT_ADAMW (07 R196). -/
def execOptAdamw (t : Nat) (s : State) : Host.Outcome State Fault Refusal := .next (s.start.runVec t 0x38)

/-- OPT_SGDM (07 R196). -/
def execOptSgdm (t : Nat) (s : State) : Host.Outcome State Fault Refusal := .next (s.start.runVec t 0x39)

end Sys2Proof.Machine
end

