-- ==== Sys2Proof/Machine/Dispatch.lean ====
section
/-!
DEFINITION. The meaning of each command: one arm per row of the opcode table, each a direct call.
-/
namespace Sys2Proof.Machine

def exec (i : Instr) (s : State) : Host.Outcome State Fault Refusal :=
  match i with
  | .registerWrite port page off n v => Sys2Proof.Machine.execRegisterWrite port page off n v s
  | .rcRead port page off n => Sys2Proof.Machine.execRcRead port page off n s
  | .pairLowRead port page off => Sys2Proof.Machine.execPairLowRead port page off s
  | .pairLowWrite port page off v => Sys2Proof.Machine.execPairLowWrite port page off v s
  | .pairHighWrite port page off v => Sys2Proof.Machine.execPairHighWrite port page off v s
  | .pageErrCntRead port page => Sys2Proof.Machine.execPageErrCntRead port page s
  | .pageEvtEnWrite port page v => Sys2Proof.Machine.execPageEvtEnWrite port page v s
  | .calDataRead port engine => Sys2Proof.Machine.execCalDataRead port engine s
  | .pcieMemoryWrite off bytes ep => Sys2Proof.Machine.execPcieMemoryWrite off bytes ep s
  | .pcieMemoryRead off n upsets => Sys2Proof.Machine.execPcieMemoryRead off n upsets s
  | .pcieConfigAccess access => Sys2Proof.Machine.execPcieConfigAccess access s
  | .pcieReset kind => Sys2Proof.Machine.execPcieReset kind s
  | .corrqRewrite addr => Sys2Proof.Machine.execCorrqRewrite addr s
  | .scrubAccess tile stack minutes upsets => Sys2Proof.Machine.execScrubAccess tile stack minutes upsets s
  | .scrubLate tile stack => Sys2Proof.Machine.execScrubLate tile stack s
  | .stackTempRead stack temp => Sys2Proof.Machine.execStackTempRead stack temp s
  | .spadSoftReset port tile => Sys2Proof.Machine.execSpadSoftReset port tile s
  | .spadClassSel port tile cls => Sys2Proof.Machine.execSpadClassSel port tile cls s
  | .scrubEnable port tile on => Sys2Proof.Machine.execScrubEnable port tile on s
  | .scrubSoftReset port tile => Sys2Proof.Machine.execScrubSoftReset port tile s
  | .scrubQuiesce port tile on => Sys2Proof.Machine.execScrubQuiesce port tile on s
  | .stkSoftReset port stack => Sys2Proof.Machine.execStkSoftReset port stack s
  | .stkQuiesce port stack on => Sys2Proof.Machine.execStkQuiesce port stack on s
  | .queueRingWrite port tile queue which v => Sys2Proof.Machine.execQueueRingWrite port tile queue which v s
  | .queueEnable port tile queue => Sys2Proof.Machine.execQueueEnable port tile queue s
  | .queueDisable port tile queue => Sys2Proof.Machine.execQueueDisable port tile queue s
  | .queueReset port tile queue => Sys2Proof.Machine.execQueueReset port tile queue s
  | .doorbell port tile queue tail => Sys2Proof.Machine.execDoorbell port tile queue tail s
  | .descFetch t q => Sys2Proof.Machine.execDescFetch t q s
  | .dispatch t q => Sys2Proof.Machine.execDispatch t q s
  | .handOver t q => Sys2Proof.Machine.execHandOver t q s
  | .contextGrant vc => Sys2Proof.Machine.execContextGrant vc s
  | .descComplete t n => Sys2Proof.Machine.execDescComplete t n s
  | .nop t q => Sys2Proof.Machine.execNop t q s
  | .wait t q => Sys2Proof.Machine.execWait t q s
  | .signal t q => Sys2Proof.Machine.execSignal t q s
  | .fence t q => Sys2Proof.Machine.execFence t q s
  | .fenceComplete t q => Sys2Proof.Machine.execFenceComplete t q s
  | .repeatLoop t q => Sys2Proof.Machine.execRepeat t q s
  | .repeatComplete t q => Sys2Proof.Machine.execRepeatComplete t q s
  | .qWaitLimitExpire t q => Sys2Proof.Machine.execQWaitLimitExpire t q s
  | .semSet port tile v => Sys2Proof.Machine.execSemSet port tile v s
  | .semAdd port tile v => Sys2Proof.Machine.execSemAdd port tile v s
  | .tseqEnable port tile on => Sys2Proof.Machine.execTseqEnable port tile on s
  | .tseqQuiesce port tile on => Sys2Proof.Machine.execTseqQuiesce port tile on s
  | .tseqSoftReset port tile => Sys2Proof.Machine.execTseqSoftReset port tile s
  | .semClear port tile => Sys2Proof.Machine.execSemClear port tile s
  | .matmul t e n => Sys2Proof.Machine.execMatmul t e n s
  | .drain t e => Sys2Proof.Machine.execDrain t e s
  | .blockDrain t e => Sys2Proof.Machine.execBlockDrain t e s
  | .teEnable port engine on => Sys2Proof.Machine.execTeEnable port engine on s
  | .teQuiesce port engine on => Sys2Proof.Machine.execTeQuiesce port engine on s
  | .teSoftReset port engine => Sys2Proof.Machine.execTeSoftReset port engine s
  | .move t upsets => Sys2Proof.Machine.execMove t upsets s
  | .stash t => Sys2Proof.Machine.execStash t s
  | .unstash t => Sys2Proof.Machine.execUnstash t s
  | .gatherAhead t seq => Sys2Proof.Machine.execGatherAhead t seq s
  | .dmaEnable port tile on => Sys2Proof.Machine.execDmaEnable port tile on s
  | .dmaQuiesce port tile on => Sys2Proof.Machine.execDmaQuiesce port tile on s
  | .dmaSoftReset port tile => Sys2Proof.Machine.execDmaSoftReset port tile s
  | .vecAdd t => Sys2Proof.Machine.execVecAdd t s
  | .vecSub t => Sys2Proof.Machine.execVecSub t s
  | .vecMul t => Sys2Proof.Machine.execVecMul t s
  | .vecFma t => Sys2Proof.Machine.execVecFma t s
  | .vecDiv t => Sys2Proof.Machine.execVecDiv t s
  | .vecSqrt t => Sys2Proof.Machine.execVecSqrt t s
  | .vecMax t => Sys2Proof.Machine.execVecMax t s
  | .vecMin t => Sys2Proof.Machine.execVecMin t s
  | .vecAbs t => Sys2Proof.Machine.execVecAbs t s
  | .vecNeg t => Sys2Proof.Machine.execVecNeg t s
  | .vecSel t => Sys2Proof.Machine.execVecSel t s
  | .vecCvt t => Sys2Proof.Machine.execVecCvt t s
  | .vecFill t => Sys2Proof.Machine.execVecFill t s
  | .vecRsqrt t => Sys2Proof.Machine.execVecRsqrt t s
  | .vecExp2 t => Sys2Proof.Machine.execVecExp2 t s
  | .vecLog2 t => Sys2Proof.Machine.execVecLog2 t s
  | .vecTanh t => Sys2Proof.Machine.execVecTanh t s
  | .vecGelu t => Sys2Proof.Machine.execVecGelu t s
  | .vecSilu t => Sys2Proof.Machine.execVecSilu t s
  | .vecGeluBwd t => Sys2Proof.Machine.execVecGeluBwd t s
  | .vecSiluBwd t => Sys2Proof.Machine.execVecSiluBwd t s
  | .vecExp2sub t => Sys2Proof.Machine.execVecExp2sub t s
  | .vecRescaleAdd t => Sys2Proof.Machine.execVecRescaleAdd t s
  | .vecCmp t => Sys2Proof.Machine.execVecCmp t s
  | .vecBittest t => Sys2Proof.Machine.execVecBittest t s
  | .vecMand t => Sys2Proof.Machine.execVecMand t s
  | .vecMor t => Sys2Proof.Machine.execVecMor t s
  | .vecMxor t => Sys2Proof.Machine.execVecMxor t s
  | .vecMandn t => Sys2Proof.Machine.execVecMandn t s
  | .vecRsum t => Sys2Proof.Machine.execVecRsum t s
  | .vecRmax t => Sys2Proof.Machine.execVecRmax t s
  | .vecRmin t => Sys2Proof.Machine.execVecRmin t s
  | .vecRamax t => Sys2Proof.Machine.execVecRamax t s
  | .vecTopk t => Sys2Proof.Machine.execVecTopk t s
  | .optAdamw t => Sys2Proof.Machine.execOptAdamw t s
  | .optSgdm t => Sys2Proof.Machine.execOptSgdm t s
  | .veEnable port tile on => Sys2Proof.Machine.execVeEnable port tile on s
  | .veQuiesce port tile on => Sys2Proof.Machine.execVeQuiesce port tile on s
  | .veSoftReset port tile => Sys2Proof.Machine.execVeSoftReset port tile s
  | .rngBits t => Sys2Proof.Machine.execRngBits t s
  | .rngUniform t => Sys2Proof.Machine.execRngUniform t s
  | .rngNormal t => Sys2Proof.Machine.execRngNormal t s
  | .rngBernoulli t => Sys2Proof.Machine.execRngBernoulli t s
  | .rngSetStep t => Sys2Proof.Machine.execRngSetStep t s
  | .rngJobKeyWrite port tile key => Sys2Proof.Machine.execRngJobKeyWrite port tile key s
  | .rngStepWrite port tile v => Sys2Proof.Machine.execRngStepWrite port tile v s
  | .rngDrawWrite port tile n v => Sys2Proof.Machine.execRngDrawWrite port tile n v s
  | .rngRealign port tile => Sys2Proof.Machine.execRngRealign port tile s
  | .rngEnable port tile on => Sys2Proof.Machine.execRngEnable port tile on s
  | .rngQuiesce port tile on => Sys2Proof.Machine.execRngQuiesce port tile on s
  | .rngSoftReset port tile => Sys2Proof.Machine.execRngSoftReset port tile s
  | .scaleExport t => Sys2Proof.Machine.execScaleExport t s
  | .scalePush t => Sys2Proof.Machine.execScalePush t s
  | .scaleSetTarget t => Sys2Proof.Machine.execScaleSetTarget t s
  | .scaleSave t => Sys2Proof.Machine.execScaleSave t s
  | .scaleLoad t => Sys2Proof.Machine.execScaleLoad t s
  | .scaleWatchExport t => Sys2Proof.Machine.execScaleWatchExport t s
  | .scaleEnable port tile on => Sys2Proof.Machine.execScaleEnable port tile on s
  | .scaleQuiesce port tile on => Sys2Proof.Machine.execScaleQuiesce port tile on s
  | .scaleSoftReset port tile => Sys2Proof.Machine.execScaleSoftReset port tile s
  | .watchIdxWrite port tile slot clear => Sys2Proof.Machine.execWatchIdxWrite port tile slot clear s
  | .watchSoftReset port tile => Sys2Proof.Machine.execWatchSoftReset port tile s
  | .normClear t => Sys2Proof.Machine.execNormClear t s
  | .normAccumulate t => Sys2Proof.Machine.execNormAccumulate t s
  | .normExchange t => Sys2Proof.Machine.execNormExchange t s
  | .normFinal t => Sys2Proof.Machine.execNormFinal t s
  | .normEnable port on => Sys2Proof.Machine.execNormEnable port on s
  | .normQuiesce port on => Sys2Proof.Machine.execNormQuiesce port on s
  | .collAllreduce vc seq bucket => Sys2Proof.Machine.execCollAllreduce vc seq bucket s
  | .collReduceScatter vc seq bucket => Sys2Proof.Machine.execCollReduceScatter vc seq bucket s
  | .collAllgather vc seq bucket => Sys2Proof.Machine.execCollAllgather vc seq bucket s
  | .collBroadcast vc seq bucket => Sys2Proof.Machine.execCollBroadcast vc seq bucket s
  | .collAlltoall vc seq bucket => Sys2Proof.Machine.execCollAlltoall vc seq bucket s
  | .collSend vc seq bucket => Sys2Proof.Machine.execCollSend vc seq bucket s
  | .collRecv vc seq bucket => Sys2Proof.Machine.execCollRecv vc seq bucket s
  | .chainPass vc seq bucket => Sys2Proof.Machine.execChainPass vc seq bucket s
  | .groupLoad port idx => Sys2Proof.Machine.execGroupLoad port idx s
  | .groupValidateDone => Sys2Proof.Machine.execGroupValidateDone s
  | .groupBaseWrite port count v => Sys2Proof.Machine.execGroupBaseWrite port count v s
  | .collJobKeyWrite port key => Sys2Proof.Machine.execCollJobKeyWrite port key s
  | .reportBaseWrite port addr => Sys2Proof.Machine.execReportBaseWrite port addr s
  | .openReceive rx => Sys2Proof.Machine.execOpenReceive rx s
  | .acceptReceive rx => Sys2Proof.Machine.execAcceptReceive rx s
  | .nakReceived rx => Sys2Proof.Machine.execNakReceived rx s
  | .retryReceive rx => Sys2Proof.Machine.execRetryReceive rx s
  | .openRetryTimeout vc seq bucket pos => Sys2Proof.Machine.execOpenRetryTimeout vc seq bucket pos s
  | .dataReceive rx => Sys2Proof.Machine.execDataReceive rx s
  | .portDownEnd port => Sys2Proof.Machine.execPortDownEnd port s
  | .closeReceive rx => Sys2Proof.Machine.execCloseReceive rx s
  | .abortReceive rx => Sys2Proof.Machine.execAbortReceive rx s
  | .creditReceive rx => Sys2Proof.Machine.execCreditReceive rx s
  | .ackReceive rx => Sys2Proof.Machine.execAckReceive rx s
  | .replayReqReceive rx => Sys2Proof.Machine.execReplayReqReceive rx s
  | .signalReceive rx => Sys2Proof.Machine.execSignalReceive rx s
  | .signalAckReceive rx => Sys2Proof.Machine.execSignalAckReceive rx s
  | .mgmtFrameReceive rx => Sys2Proof.Machine.execMgmtFrameReceive rx s
  | .frameTransmit port => Sys2Proof.Machine.execFrameTransmit port s
  | .frameIncompleteTimeout link chan corrected lost => Sys2Proof.Machine.execFrameIncompleteTimeout link chan corrected lost s
  | .ackTimer port => Sys2Proof.Machine.execAckTimer port s
  | .replayTimeout port => Sys2Proof.Machine.execReplayTimeout port s
  | .collWaitLimitExpire => Sys2Proof.Machine.execCollWaitLimitExpire s
  | .collEnable port on => Sys2Proof.Machine.execCollEnable port on s
  | .collQuiesce port on => Sys2Proof.Machine.execCollQuiesce port on s
  | .collSoftReset port => Sys2Proof.Machine.execCollSoftReset port s
  | .combFailover engine => Sys2Proof.Machine.execCombFailover engine s
  | .combSelect port engine sel => Sys2Proof.Machine.execCombSelect port engine sel s
  | .lineFailed engine line => Sys2Proof.Machine.execLineFailed engine line s
  | .lockLost link chan r => Sys2Proof.Machine.execLockLost link chan r s
  | .ringAcquireDone link chan r => Sys2Proof.Machine.execRingAcquireDone link chan r s
  | .ringAcquireFail link chan r => Sys2Proof.Machine.execRingAcquireFail link chan r s
  | .ringScanDone link chan r => Sys2Proof.Machine.execRingScanDone link chan r s
  | .ringVerifyDone link chan r line => Sys2Proof.Machine.execRingVerifyDone link chan r line s
  | .ringLightLost link chan r => Sys2Proof.Machine.execRingLightLost link chan r s
  | .ringLightRestored link chan r => Sys2Proof.Machine.execRingLightRestored link chan r s
  | .chRetired link chan rx => Sys2Proof.Machine.execChRetired link chan rx s
  | .chRevive port link chan => Sys2Proof.Machine.execChRevive port link chan s
  | .pilotWindow link chan r line => Sys2Proof.Machine.execPilotWindow link chan r line s
  | .thermalHoldEnd engine => Sys2Proof.Machine.execThermalHoldEnd engine s
  | .meshCommit port engine => Sys2Proof.Machine.execMeshCommit port engine s
  | .meshCommitDone engine => Sys2Proof.Machine.execMeshCommitDone engine s
  | .meshCal port engine => Sys2Proof.Machine.execMeshCal port engine s
  | .meshCalDone engine ok => Sys2Proof.Machine.execMeshCalDone engine ok s
  | .meshTrim engine trims => Sys2Proof.Machine.execMeshTrim engine trims s
  | .monitorLow link chan stage level many => Sys2Proof.Machine.execMonitorLow link chan stage level many s
  | .plugSensorChange engine mated => Sys2Proof.Machine.execPlugSensorChange engine mated s
  | .lossOfSignal link => Sys2Proof.Machine.execLossOfSignal link s
  | .probePulse link => Sys2Proof.Machine.execProbePulse link s
  | .probeLightDetect link own => Sys2Proof.Machine.execProbeLightDetect link own s
  | .probeResponseEnd link => Sys2Proof.Machine.execProbeResponseEnd link s
  | .shutterForce port engine mask => Sys2Proof.Machine.execShutterForce port engine mask s
  | .peEnable port engine on => Sys2Proof.Machine.execPeEnable port engine on s
  | .peSoftReset port engine => Sys2Proof.Machine.execPeSoftReset port engine s
  | .peQuiesce port engine on => Sys2Proof.Machine.execPeQuiesce port engine on s
  | .pechEnable port link on => Sys2Proof.Machine.execPechEnable port link on s
  | .pechSoftReset port link => Sys2Proof.Machine.execPechSoftReset port link s
  | .pechQuiesce port link on => Sys2Proof.Machine.execPechQuiesce port link on s
  | .linkOptTest port link on => Sys2Proof.Machine.execLinkOptTest port link on s
  | .linkOptPark port link on => Sys2Proof.Machine.execLinkOptPark port link on s
  | .trainSend link chan => Sys2Proof.Machine.execTrainSend link chan s
  | .trainReceive link chan r => Sys2Proof.Machine.execTrainReceive link chan r s
  | .linkEnable port link on => Sys2Proof.Machine.execLinkEnable port link on s
  | .linkSoftReset port link => Sys2Proof.Machine.execLinkSoftReset port link s
  | .linkQuiesce port link on => Sys2Proof.Machine.execLinkQuiesce port link on s
  | .planLoad port => Sys2Proof.Machine.execPlanLoad port s
  | .planDrainDone => Sys2Proof.Machine.execPlanDrainDone s
  | .planDrainTimeout => Sys2Proof.Machine.execPlanDrainTimeout s
  | .planReady => Sys2Proof.Machine.execPlanReady s
  | .heartbeatGraceEnd => Sys2Proof.Machine.execHeartbeatGraceEnd s
  | .portFailover dest vc => Sys2Proof.Machine.execPortFailover dest vc s
  | .portFailback dest vc => Sys2Proof.Machine.execPortFailback dest vc s
  | .clearing => Sys2Proof.Machine.execClearing s
  | .clearingHoldDrained => Sys2Proof.Machine.execClearingHoldDrained s
  | .clrHoldTimeout => Sys2Proof.Machine.execClrHoldTimeout s
  | .barrierRecordReceive rx => Sys2Proof.Machine.execBarrierRecordReceive rx s
  | .barrierVerdictReceive rx => Sys2Proof.Machine.execBarrierVerdictReceive rx s
  | .captureDone => Sys2Proof.Machine.execCaptureDone s
  | .l1AckReceive rx => Sys2Proof.Machine.execL1AckReceive rx s
  | .l2WriteDone ok => Sys2Proof.Machine.execL2WriteDone ok s
  | .snapshotFrameReceive rx => Sys2Proof.Machine.execSnapshotFrameReceive rx s
  | .trailMirrorReceive rx => Sys2Proof.Machine.execTrailMirrorReceive rx s
  | .l3Release port => Sys2Proof.Machine.execL3Release port s
  | .pairGo port rank => Sys2Proof.Machine.execPairGo port rank s
  | .pairRecordReceive rx => Sys2Proof.Machine.execPairRecordReceive rx s
  | .mark => Sys2Proof.Machine.execMark s
  | .mirrorAckReceive rx => Sys2Proof.Machine.execMirrorAckReceive rx s
  | .markMirrorTimeout => Sys2Proof.Machine.execMarkMirrorTimeout s
  | .replayStart port => Sys2Proof.Machine.execReplayStart port s
  | .replayStop port => Sys2Proof.Machine.execReplayStop port s
  | .heartbeatSend => Sys2Proof.Machine.execHeartbeatSend s
  | .heartbeatReceive rx => Sys2Proof.Machine.execHeartbeatReceive rx s
  | .heartbeatMiss rank => Sys2Proof.Machine.execHeartbeatMiss rank s
  | .lostNoticeReceive rx => Sys2Proof.Machine.execLostNoticeReceive rx s
  | .lostClr port => Sys2Proof.Machine.execLostClr port s
  | .restoreGo port src asRank => Sys2Proof.Machine.execRestoreGo port src asRank s
  | .restoreCopyDone => Sys2Proof.Machine.execRestoreCopyDone s
  | .restoreRealign port => Sys2Proof.Machine.execRestoreRealign port s
  | .restoreAcceptGen port => Sys2Proof.Machine.execRestoreAcceptGen port s
  | .snapEnable port on => Sys2Proof.Machine.execSnapEnable port on s
  | .snapSoftReset port => Sys2Proof.Machine.execSnapSoftReset port s
  | .snapQuiesce port on => Sys2Proof.Machine.execSnapQuiesce port on s
  | .trailEnable port on => Sys2Proof.Machine.execTrailEnable port on s
  | .trailSoftReset port => Sys2Proof.Machine.execTrailSoftReset port s
  | .trailQuiesce port on => Sys2Proof.Machine.execTrailQuiesce port on s
  | .errEntryRead port => Sys2Proof.Machine.execErrEntryRead port s
  | .errPop port => Sys2Proof.Machine.execErrPop port s
  | .errAck port => Sys2Proof.Machine.execErrAck port s
  | .firebreakForce port => Sys2Proof.Machine.execFirebreakForce port s
  | .firebreakNoticeDone => Sys2Proof.Machine.execFirebreakNoticeDone s
  | .hubCtrlUc place structure' => Sys2Proof.Machine.execHubCtrlUc place structure' s
  | .unitState tile unit => Sys2Proof.Machine.execUnitState tile unit s
  | .railFault elem => Sys2Proof.Machine.execRailFault elem s
  | .clockLoss domain => Sys2Proof.Machine.execClockLoss domain s
  | .rangerWdt => Sys2Proof.Machine.execRangerWdt s
  | .pwrReq port state => Sys2Proof.Machine.execPwrReq port state s
  | .powerTransitionDone lost ref => Sys2Proof.Machine.execPowerTransitionDone lost ref s
  | .powerQuiesceTimeout => Sys2Proof.Machine.execPowerQuiesceTimeout s
  | .autoIdle => Sys2Proof.Machine.execAutoIdle s
  | .wakePin => Sys2Proof.Machine.execWakePin s
  | .alarmExpire => Sys2Proof.Machine.execAlarmExpire s
  | .wakeStepTimeout elem stage => Sys2Proof.Machine.execWakeStepTimeout elem stage s
  | .bclkFallback => Sys2Proof.Machine.execBclkFallback s
  | .capWrite port watts => Sys2Proof.Machine.execCapWrite port watts s
  | .powerControlTick watts mv10 ma10 demands => Sys2Proof.Machine.execPowerControlTick watts mv10 ma10 demands s
  | .fastLimitAssert => Sys2Proof.Machine.execFastLimitAssert s
  | .fastLimitRelease => Sys2Proof.Machine.execFastLimitRelease s
  | .dieTempSample tile temp => Sys2Proof.Machine.execDieTempSample tile temp s
  | .thermalSensorSample sensor temp => Sys2Proof.Machine.execThermalSensorSample sensor temp s
  | .coolantSample inlet outlet flow ring low100 inlet1s flow1s => Sys2Proof.Machine.execCoolantSample inlet outlet flow ring low100 inlet1s flow1s s
  | .tclkDivWrite port v => Sys2Proof.Machine.execTclkDivWrite port v s
  | .tclkChange tile => Sys2Proof.Machine.execTclkChange tile s
  | .tclkChangeDone tile => Sys2Proof.Machine.execTclkChangeDone tile s
  | .sensFlagClear port => Sys2Proof.Machine.execSensFlagClear port s
  | .sensorWindowUpdate a b c d => Sys2Proof.Machine.execSensorWindowUpdate a b c d s
  | .domainWakeAccess id => Sys2Proof.Machine.execDomainWakeAccess id s
  | .domainIdleStop page => Sys2Proof.Machine.execDomainIdleStop page s
  | .accessTimeout id => Sys2Proof.Machine.execAccessTimeout id s
  | .resetPin => Sys2Proof.Machine.execResetPin s
  | .inputPowerApplied => Sys2Proof.Machine.execInputPowerApplied s
  | .bootStageDone stage b => Sys2Proof.Machine.execBootStageDone stage b s
  | .fuseCheck ok => Sys2Proof.Machine.execFuseCheck ok s
  | .getId port pecOk => Sys2Proof.Machine.execGetId port pecOk s
  | .setCoord port pecOk rank feed => Sys2Proof.Machine.execSetCoord port pecOk rank feed s
  | .setValid port pecOk => Sys2Proof.Machine.execSetValid port pecOk s
  | .clrValid port pecOk => Sys2Proof.Machine.execClrValid port pecOk s
  | .readReg port pecOk page off => Sys2Proof.Machine.execReadReg port pecOk page off s
  | .writeReg port pecOk page off v => Sys2Proof.Machine.execWriteReg port pecOk page off v s
  | .mgmtPwrReq port pecOk state => Sys2Proof.Machine.execMgmtPwrReq port pecOk state s
  | .readWake port pecOk => Sys2Proof.Machine.execReadWake port pecOk s
  | .census port pecOk => Sys2Proof.Machine.execCensus port pecOk s
  | .censusGo port => Sys2Proof.Machine.execCensusGo port s
  | .censusDone => Sys2Proof.Machine.execCensusDone s
  | .readErr port pecOk => Sys2Proof.Machine.execReadErr port pecOk s
  | .ackErr port pecOk => Sys2Proof.Machine.execAckErr port pecOk s
  | .reset port pecOk key => Sys2Proof.Machine.execReset port pecOk key s
  | .fwWrite port pecOk addr len => Sys2Proof.Machine.execFwWrite port pecOk addr len s
  | .fwActivate port pecOk slot => Sys2Proof.Machine.execFwActivate port pecOk slot s
  | .mgmtTimeout => Sys2Proof.Machine.execMgmtTimeout s
  | .alertResponse => Sys2Proof.Machine.execAlertResponse s
  | .dbgRequest port scope => Sys2Proof.Machine.execDbgRequest port scope s
  | .dbgSubmit port => Sys2Proof.Machine.execDbgSubmit port s
  | .flashRead port dead => Sys2Proof.Machine.execFlashRead port dead s
  | .flashWrite port => Sys2Proof.Machine.execFlashWrite port s
  | .flashTrim port => Sys2Proof.Machine.execFlashTrim port s
  | .flashFlush port => Sys2Proof.Machine.execFlashFlush port s
  | .flashCmdDone => Sys2Proof.Machine.execFlashCmdDone s
  | .serviceButton => Sys2Proof.Machine.execServiceButton s
  | .svcPark port => Sys2Proof.Machine.execSvcPark port s
  | .svcCancel port => Sys2Proof.Machine.execSvcCancel port s
  | .svcUnpark port => Sys2Proof.Machine.execSvcUnpark port s
  | .parkFence => Sys2Proof.Machine.execParkFence s
  | .parkTimeout => Sys2Proof.Machine.execParkTimeout s
  | .latchSensorOpen => Sys2Proof.Machine.execLatchSensorOpen s
  | .latchSensorClose => Sys2Proof.Machine.execLatchSensorClose s
  | .phyCheck stack ok => Sys2Proof.Machine.execPhyCheck stack ok s
  | .phyRetrainDone stack ok us => Sys2Proof.Machine.execPhyRetrainDone stack ok us s
  | .stkphySoftReset port stack => Sys2Proof.Machine.execStkphySoftReset port stack s
  | .inputPowerLost => Sys2Proof.Machine.execInputPowerLost s
  | .fecDecoderLock link chan locked => Sys2Proof.Machine.execFecDecoderLock link chan locked s
  | .restoreRequestReceive rx => Sys2Proof.Machine.execRestoreRequestReceive rx s
  | .restoreFrameReceive rx => Sys2Proof.Machine.execRestoreFrameReceive rx s
  | .trailFlushDone => Sys2Proof.Machine.execTrailFlushDone s

end Sys2Proof.Machine
end

