-- ==== Sys2Proof/WellFormed.lean ====
section
/-!
DEFINITION. The commands whose operands the module has: tile, queue, engine, link, channel and page numbers inside the
largest member's, and values that fit the fields they are written to. What a member lacks is not ill-formed: its page is
absent (18 R456).
-/
namespace Sys2Proof

/-- Bytes. -/
def bytesWf (b : List Nat) : Bool := b.all (· < 256)

/-- Bits that have flipped: a byte address, and the number of the bit in its word, from 80 on in flight (01 R17). -/
def upsetsWf (u : List (Nat × Nat)) : Bool := u.all fun x => decide (x.1 < 2 ^ 40) && decide (x.2 < 160)

/-- A training record fits its fields (12, Training record). -/
def TrainRec.wf (r : TrainRec) : Bool := decide (r.link < 40) && decide (r.channel < 16) && decide (r.txLine < 64)

/-- A received frame and its flits fit their fields (12 R315, R316). -/
def Rx.wf (rx : Rx) : Bool :=
  decide (rx.link < 40) && decide (rx.chan < 16) && decide (rx.frame.dst < 65536) && decide (rx.frame.src < 65536)
    && decide (rx.frame.vc < 8) && decide (rx.frame.typ < 32) && decide (rx.frame.seq < 2 ^ 24) && decide (rx.frame.len ≤ 4096)
    && decide (rx.crc < 2 ^ 32) && rx.tags.all fun t => decide (t < 2 ^ 16)

/-- A command whose operands are in range. -/
def Instr.wf : Instr → Bool
  | .registerWrite _ page off n v => decide (page < 4096) && decide (off < 4096) && decide (n < 4097) && decide (v < 256 ^ n)
  | .rcRead _ page off n => decide (page < 4096) && decide (off < 4096) && decide (n < 4097)
  | .pairLowRead _ page off => decide (page < 4096) && decide (off < 4096)
  | .pairLowWrite _ page off v => decide (page < 4096) && decide (off < 4096) && decide (v < 2 ^ 32)
  | .pairHighWrite _ page off v => decide (page < 4096) && decide (off < 4096) && decide (v < 2 ^ 64)
  | .pageErrCntRead _ page => decide (page < 4096)
  | .pageEvtEnWrite _ page v => decide (page < 4096) && decide (v < 2 ^ 32)
  | .calDataRead _ engine => decide (engine < 5)
  | .pcieMemoryWrite off bytes _ => decide (off < 2 ^ 41) && bytesWf bytes
  | .pcieMemoryRead off _ upsets => decide (off < 2 ^ 41) && upsetsWf upsets
  | .pcieConfigAccess access => (match access.req with | .read a => decide (a < 4096) | _ => true)
  | .pcieReset _ => true
  | .corrqRewrite addr => decide (addr < 2 ^ 40)
  | .scrubAccess tile _ _ upsets => decide (tile < 8) && upsetsWf upsets
  | .scrubLate tile _ => decide (tile < 8)
  | .stackTempRead stack _ => decide (stack < 8)
  | .spadSoftReset _ tile => decide (tile < 8)
  | .spadClassSel _ tile cls => decide (tile < 8) && decide (cls < 8)
  | .scrubEnable _ tile _ => decide (tile < 8)
  | .scrubSoftReset _ tile => decide (tile < 8)
  | .scrubQuiesce _ tile _ => decide (tile < 8)
  | .stkSoftReset _ stack => decide (stack < 8)
  | .stkQuiesce _ stack _ => decide (stack < 8)
  | .queueRingWrite _ tile queue _ v => decide (tile < 8) && decide (queue < 8) && decide (v < 2 ^ 64)
  | .queueEnable _ tile queue => decide (tile < 8) && decide (queue < 8)
  | .queueDisable _ tile queue => decide (tile < 8) && decide (queue < 8)
  | .queueReset _ tile queue => decide (tile < 8) && decide (queue < 8)
  | .doorbell _ tile queue tail => decide (tile < 8) && decide (queue < 8) && decide (tail < 2 ^ 32)
  | .descFetch t q => decide (t < 8) && decide (q < 8)
  | .dispatch t q => decide (t < 8) && decide (q < 8)
  | .handOver t q => decide (t < 8) && decide (q < 8)
  | .contextGrant vc => decide (vc < 8)
  | .descComplete t _ => decide (t < 8)
  | .nop t q => decide (t < 8) && decide (q < 8)
  | .wait t q => decide (t < 8) && decide (q < 8)
  | .signal t q => decide (t < 8) && decide (q < 8)
  | .fence t q => decide (t < 8) && decide (q < 8)
  | .fenceComplete t q => decide (t < 8) && decide (q < 8)
  | .repeatLoop t q => decide (t < 8) && decide (q < 8)
  | .repeatComplete t q => decide (t < 8) && decide (q < 8)
  | .qWaitLimitExpire t q => decide (t < 8) && decide (q < 8)
  | .semSet _ tile v => decide (tile < 8) && decide (v < 2 ^ 32)
  | .semAdd _ tile v => decide (tile < 8) && decide (v < 2 ^ 32)
  | .tseqEnable _ tile _ => decide (tile < 8)
  | .tseqQuiesce _ tile _ => decide (tile < 8)
  | .tseqSoftReset _ tile => decide (tile < 8)
  | .semClear _ tile => decide (tile < 8)
  | .matmul t e _ => decide (t < 8) && decide (e < 4)
  | .drain t e => decide (t < 8) && decide (e < 4)
  | .blockDrain t e => decide (t < 8) && decide (e < 4)
  | .teEnable _ engine _ => decide (engine < 32)
  | .teQuiesce _ engine _ => decide (engine < 32)
  | .teSoftReset _ engine => decide (engine < 32)
  | .move t upsets => decide (t < 8) && upsetsWf upsets
  | .stash t => decide (t < 8)
  | .unstash t => decide (t < 8)
  | .gatherAhead t seq => decide (t < 8) && decide (seq < 2 ^ 32)
  | .dmaEnable _ tile _ => decide (tile < 8)
  | .dmaQuiesce _ tile _ => decide (tile < 8)
  | .dmaSoftReset _ tile => decide (tile < 8)
  | .vecAdd t => decide (t < 8)
  | .vecSub t => decide (t < 8)
  | .vecMul t => decide (t < 8)
  | .vecFma t => decide (t < 8)
  | .vecDiv t => decide (t < 8)
  | .vecSqrt t => decide (t < 8)
  | .vecMax t => decide (t < 8)
  | .vecMin t => decide (t < 8)
  | .vecAbs t => decide (t < 8)
  | .vecNeg t => decide (t < 8)
  | .vecSel t => decide (t < 8)
  | .vecCvt t => decide (t < 8)
  | .vecFill t => decide (t < 8)
  | .vecRsqrt t => decide (t < 8)
  | .vecExp2 t => decide (t < 8)
  | .vecLog2 t => decide (t < 8)
  | .vecTanh t => decide (t < 8)
  | .vecGelu t => decide (t < 8)
  | .vecSilu t => decide (t < 8)
  | .vecGeluBwd t => decide (t < 8)
  | .vecSiluBwd t => decide (t < 8)
  | .vecExp2sub t => decide (t < 8)
  | .vecRescaleAdd t => decide (t < 8)
  | .vecCmp t => decide (t < 8)
  | .vecBittest t => decide (t < 8)
  | .vecMand t => decide (t < 8)
  | .vecMor t => decide (t < 8)
  | .vecMxor t => decide (t < 8)
  | .vecMandn t => decide (t < 8)
  | .vecRsum t => decide (t < 8)
  | .vecRmax t => decide (t < 8)
  | .vecRmin t => decide (t < 8)
  | .vecRamax t => decide (t < 8)
  | .vecTopk t => decide (t < 8)
  | .optAdamw t => decide (t < 8)
  | .optSgdm t => decide (t < 8)
  | .veEnable _ tile _ => decide (tile < 8)
  | .veQuiesce _ tile _ => decide (tile < 8)
  | .veSoftReset _ tile => decide (tile < 8)
  | .rngBits t => decide (t < 8)
  | .rngUniform t => decide (t < 8)
  | .rngNormal t => decide (t < 8)
  | .rngBernoulli t => decide (t < 8)
  | .rngSetStep t => decide (t < 8)
  | .rngJobKeyWrite _ tile key => decide (tile < 8) && decide (key < 2 ^ 64)
  | .rngStepWrite _ tile v => decide (tile < 8) && decide (v < 2 ^ 32)
  | .rngDrawWrite _ tile n v => decide (tile < 8) && decide (n < 8) && decide (v < 2 ^ 64)
  | .rngRealign _ tile => decide (tile < 8)
  | .rngEnable _ tile _ => decide (tile < 8)
  | .rngQuiesce _ tile _ => decide (tile < 8)
  | .rngSoftReset _ tile => decide (tile < 8)
  | .scaleExport t => decide (t < 8)
  | .scalePush t => decide (t < 8)
  | .scaleSetTarget t => decide (t < 8)
  | .scaleSave t => decide (t < 8)
  | .scaleLoad t => decide (t < 8)
  | .scaleWatchExport t => decide (t < 8)
  | .scaleEnable _ tile _ => decide (tile < 8)
  | .scaleQuiesce _ tile _ => decide (tile < 8)
  | .scaleSoftReset _ tile => decide (tile < 8)
  | .watchIdxWrite _ tile slot _ => decide (tile < 8) && decide (slot < 4096)
  | .watchSoftReset _ tile => decide (tile < 8)
  | .normClear t => decide (t < 8)
  | .normAccumulate t => decide (t < 8)
  | .normExchange t => decide (t < 8)
  | .normFinal t => decide (t < 8)
  | .normEnable _ _ => true
  | .normQuiesce _ _ => true
  | .collAllreduce vc seq bucket => decide (vc < 8) && decide (seq < 2 ^ 32) && decide (bucket < 65536)
  | .collReduceScatter vc seq bucket => decide (vc < 8) && decide (seq < 2 ^ 32) && decide (bucket < 65536)
  | .collAllgather vc seq bucket => decide (vc < 8) && decide (seq < 2 ^ 32) && decide (bucket < 65536)
  | .collBroadcast vc seq bucket => decide (vc < 8) && decide (seq < 2 ^ 32) && decide (bucket < 65536)
  | .collAlltoall vc seq bucket => decide (vc < 8) && decide (seq < 2 ^ 32) && decide (bucket < 65536)
  | .collSend vc seq bucket => decide (vc < 8) && decide (seq < 2 ^ 32) && decide (bucket < 65536)
  | .collRecv vc seq bucket => decide (vc < 8) && decide (seq < 2 ^ 32) && decide (bucket < 65536)
  | .chainPass vc seq bucket => decide (vc < 8) && decide (seq < 2 ^ 32) && decide (bucket < 65536)
  | .groupLoad _ idx => decide (idx < 4096)
  | .groupValidateDone => true
  | .groupBaseWrite _ _ v => decide (v < 2 ^ 64)
  | .collJobKeyWrite _ key => decide (key < 2 ^ 64)
  | .reportBaseWrite _ addr => decide (addr < 2 ^ 40)
  | .openReceive rx => Rx.wf rx
  | .acceptReceive rx => Rx.wf rx
  | .nakReceived rx => Rx.wf rx
  | .retryReceive rx => Rx.wf rx
  | .openRetryTimeout vc seq bucket pos => decide (vc < 8) && decide (seq < 2 ^ 32) && decide (bucket < 65536) && decide (pos < 65536)
  | .dataReceive rx => Rx.wf rx
  | .portDownEnd port => decide (port < 255)
  | .closeReceive rx => Rx.wf rx
  | .abortReceive rx => Rx.wf rx
  | .creditReceive rx => Rx.wf rx
  | .ackReceive rx => Rx.wf rx
  | .replayReqReceive rx => Rx.wf rx
  | .signalReceive rx => Rx.wf rx
  | .signalAckReceive rx => Rx.wf rx
  | .mgmtFrameReceive rx => Rx.wf rx
  | .frameTransmit port => decide (port < 255)
  | .frameIncompleteTimeout link chan _ _ => decide (link < 40) && decide (chan < 16)
  | .ackTimer port => decide (port < 255)
  | .replayTimeout port => decide (port < 255)
  | .collWaitLimitExpire => true
  | .collEnable _ _ => true
  | .collQuiesce _ _ => true
  | .collSoftReset _ => true
  | .combFailover engine => decide (engine < 5)
  | .combSelect _ engine sel => decide (engine < 5) && decide (sel < 2)
  | .lineFailed engine line => decide (engine < 5) && decide (line < 64)
  | .lockLost link chan _ => decide (link < 40) && decide (chan < 16)
  | .ringAcquireDone link chan _ => decide (link < 40) && decide (chan < 16)
  | .ringAcquireFail link chan _ => decide (link < 40) && decide (chan < 16)
  | .ringScanDone link chan _ => decide (link < 40) && decide (chan < 16)
  | .ringVerifyDone link chan _ line => decide (link < 40) && decide (chan < 16) && decide (line < 64)
  | .ringLightLost link chan _ => decide (link < 40) && decide (chan < 16)
  | .ringLightRestored link chan _ => decide (link < 40) && decide (chan < 16)
  | .chRetired link chan _ => decide (link < 40) && decide (chan < 16)
  | .chRevive _ link chan => decide (link < 40) && decide (chan < 16)
  | .pilotWindow link chan _ line => decide (link < 40) && decide (chan < 16) && decide (line < 64)
  | .thermalHoldEnd engine => decide (engine < 5)
  | .meshCommit _ engine => decide (engine < 5)
  | .meshCommitDone engine => decide (engine < 5)
  | .meshCal _ engine => decide (engine < 5)
  | .meshCalDone engine _ => decide (engine < 5)
  | .meshTrim engine trims => decide (engine < 5) && trims.all fun x => decide (x.1 < 64)
  | .monitorLow link chan stage _ _ => decide (link < 40) && decide (chan < 16) && decide (stage < 16)
  | .plugSensorChange engine _ => decide (engine < 5)
  | .lossOfSignal link => decide (link < 40)
  | .probePulse link => decide (link < 40)
  | .probeLightDetect link _ => decide (link < 40)
  | .probeResponseEnd link => decide (link < 40)
  | .shutterForce _ engine mask => decide (engine < 5) && decide (mask < 256)
  | .peEnable _ engine _ => decide (engine < 5)
  | .peSoftReset _ engine => decide (engine < 5)
  | .peQuiesce _ engine _ => decide (engine < 5)
  | .pechEnable _ link _ => decide (link < 40)
  | .pechSoftReset _ link => decide (link < 40)
  | .pechQuiesce _ link _ => decide (link < 40)
  | .linkOptTest _ link _ => decide (link < 40)
  | .linkOptPark _ link _ => decide (link < 40)
  | .trainSend link chan => decide (link < 40) && decide (chan < 16)
  | .trainReceive link chan r => decide (link < 40) && decide (chan < 16) && TrainRec.wf r
  | .linkEnable _ link _ => decide (link < 40)
  | .linkSoftReset _ link => decide (link < 40)
  | .linkQuiesce _ link _ => decide (link < 40)
  | .planLoad _ => true
  | .planDrainDone => true
  | .planDrainTimeout => true
  | .planReady => true
  | .heartbeatGraceEnd => true
  | .portFailover dest vc => decide (dest < 65536) && decide (vc < 8)
  | .portFailback dest vc => decide (dest < 65536) && decide (vc < 8)
  | .clearing => true
  | .clearingHoldDrained => true
  | .clrHoldTimeout => true
  | .barrierRecordReceive rx => Rx.wf rx
  | .barrierVerdictReceive rx => Rx.wf rx
  | .captureDone => true
  | .l1AckReceive rx => Rx.wf rx
  | .l2WriteDone _ => true
  | .snapshotFrameReceive rx => Rx.wf rx
  | .trailMirrorReceive rx => Rx.wf rx
  | .l3Release _ => true
  | .pairGo _ rank => decide (rank < 65536)
  | .pairRecordReceive rx => Rx.wf rx
  | .mark => true
  | .mirrorAckReceive rx => Rx.wf rx
  | .markMirrorTimeout => true
  | .replayStart _ => true
  | .replayStop _ => true
  | .heartbeatSend => true
  | .heartbeatReceive rx => Rx.wf rx
  | .heartbeatMiss rank => decide (rank < 65536)
  | .lostNoticeReceive rx => Rx.wf rx
  | .lostClr _ => true
  | .restoreGo _ src asRank => decide (src < 4) && decide (asRank < 65536)
  | .restoreCopyDone => true
  | .restoreRealign _ => true
  | .restoreAcceptGen _ => true
  | .snapEnable _ _ => true
  | .snapSoftReset _ => true
  | .snapQuiesce _ _ => true
  | .trailEnable _ _ => true
  | .trailSoftReset _ => true
  | .trailQuiesce _ _ => true
  | .errEntryRead _ => true
  | .errPop _ => true
  | .errAck _ => true
  | .firebreakForce _ => true
  | .firebreakNoticeDone => true
  | .hubCtrlUc elem _ => decide (elem < 42)
  | .unitState tile unit => decide (tile < 8) && decide (unit < 12)
  | .railFault elem => decide (elem < 256)
  | .clockLoss domain => decide (domain < 29)
  | .rangerWdt => true
  | .pwrReq _ state => decide (state < 8)
  | .powerTransitionDone _ _ => true
  | .powerQuiesceTimeout => true
  | .autoIdle => true
  | .wakePin => true
  | .alarmExpire => true
  | .wakeStepTimeout elem stage => decide (elem < 256) && decide (stage < 16)
  | .bclkFallback => true
  | .capWrite _ watts => decide (watts < 8192)
  | .powerControlTick watts _ _ _ => decide (watts < 65536)
  | .fastLimitAssert => true
  | .fastLimitRelease => true
  | .dieTempSample tile _ => decide (tile < 8)
  | .thermalSensorSample sensor _ => decide (sensor < 34)
  | .coolantSample _ _ _ _ _ _ _ => true
  | .tclkDivWrite _ v => decide (v < 2 ^ 32)
  | .tclkChange tile => decide (tile < 8)
  | .tclkChangeDone tile => decide (tile < 8)
  | .sensFlagClear _ => true
  | .sensorWindowUpdate _ _ _ _ => true
  | .domainWakeAccess _ => true
  | .domainIdleStop page => decide (page < 4096)
  | .accessTimeout _ => true
  | .resetPin => true
  | .inputPowerApplied => true
  | .bootStageDone stage _ => decide (stage < 16)
  | .fuseCheck _ => true
  | .getId _ _ => true
  | .setCoord _ _ rank feed => decide (rank < 2 ^ 32) && decide (feed < 2 ^ 32)
  | .setValid _ _ => true
  | .clrValid _ _ => true
  | .readReg _ _ page off => decide (page < 2 ^ 32) && decide (off < 2 ^ 32)
  | .writeReg _ _ page off v => decide (page < 2 ^ 32) && decide (off < 2 ^ 32) && decide (v < 2 ^ 32)
  | .mgmtPwrReq _ _ state => decide (state < 2 ^ 32)
  | .readWake _ _ => true
  | .census _ _ => true
  | .censusGo _ => true
  | .censusDone => true
  | .readErr _ _ => true
  | .ackErr _ _ => true
  | .reset _ _ key => decide (key < 2 ^ 32)
  | .fwWrite _ _ addr len => decide (addr < 2 ^ 48) && decide (len < 2 ^ 32)
  | .fwActivate _ _ slot => decide (slot < 2 ^ 32)
  | .mgmtTimeout => true
  | .alertResponse => true
  | .dbgRequest _ scope => decide (scope < 4)
  | .dbgSubmit _ => true
  | .flashRead _ _ => true
  | .flashWrite _ => true
  | .flashTrim _ => true
  | .flashFlush _ => true
  | .flashCmdDone => true
  | .serviceButton => true
  | .svcPark _ => true
  | .svcCancel _ => true
  | .svcUnpark _ => true
  | .parkFence => true
  | .parkTimeout => true
  | .latchSensorOpen => true
  | .latchSensorClose => true
  | .phyCheck stack _ => decide (stack < 8)
  | .phyRetrainDone stack _ _ => decide (stack < 8)
  | .stkphySoftReset _ stack => decide (stack < 8)
  | .inputPowerLost => true
  | .fecDecoderLock link chan _ => decide (link < 40) && decide (chan < 16)
  | .restoreRequestReceive rx => Rx.wf rx
  | .restoreFrameReceive rx => Rx.wf rx
  | .trailFlushDone => true

end Sys2Proof
end

