-- ==== Sys2Proof/Safety.lean ====
section
/-!
DEFINITION. What counts as a sound state and a safe step, in the terms the statements use.
-/
namespace Sys2Proof.Machine

/-- The register file in its canonical form: page × 4096 + offset strictly rising, and no register listed that holds its
reset value. -/
def State.regsWf (s : State) : Bool := sparseWf (resetOf s.fuses.member) s.rf.cells

/-- Memory and the register file in their canonical forms, so that equal contents are equal data. -/
def State.wf (s : State) : Bool := s.mem.wf && s.regsWf

/-- A step that neither faults nor is refused. -/
def SafeStep (s : State) : Prop := ∃ t, step s = .next t

end Sys2Proof.Machine
end

