-- ==== Sys2Proof/Certificates/Slice0/Obligations.lean ====
section
/-!
DEFINITION. The statements for the provers, and the words they use.
-/
namespace Sys2Proof.Claims
open Sys2Proof Sys2Proof.Machine Sys2Proof.Machine.State

/-- Command `c` at `s` completes, and `P` holds of the state it leaves. -/
def Ends (c : Instr) (s : State) (P : State → Prop) : Prop := ∃ t, exec c s = .next t ∧ P t

end Sys2Proof.Claims

open Sys2Proof Sys2Proof.Machine Sys2Proof.Machine.State Sys2Proof.Claims in
/-- A step runs the command at the front of the queue. (00_scope.md, 18_register_pages.md.) -/
def Obligations.StepRunsTheFrontCommand : Prop :=
  ∀ (c : Instr) (rest : List Instr) (s : State),
    step { s with pending := c :: rest } = exec c { s with pending := rest }

open Sys2Proof Sys2Proof.Machine Sys2Proof.Machine.State Sys2Proof.Claims in
/-- With no command waiting a microsecond passes: the model's choice (notes/assumptions/2.md), as are the button's release (64.md) and the note of the links that carry (97.md). (00_scope.md.) -/
def Obligations.EmptyQueueTicks : Prop :=
  ∀ s : State, s.pending = [] → ∃ t, step s = .next t ∧
    t = { s with now := s.now + 1, out := [], rf := t.rf, svc := { s.svc with live := t.svc.live } } ∧
    t.flag 0 MODULE.SVC_STAT_button = false ∧ (s.flag 0 MODULE.SVC_STAT_button = false → t.rf = s.rf)

open Sys2Proof Sys2Proof.Machine Sys2Proof.Machine.State Sys2Proof.Claims in
/-- No command faults and none is refused; that one whose enabling condition is unmet changes nothing is the model's choice (notes/assumptions/1.md). (00_scope.md.) -/
def Obligations.EveryCommandAnswersNext : Prop :=
  ∀ (c : Instr) (s : State), ∃ t, exec c s = .next t

namespace Sys2Proof.Claims
open Sys2Proof Sys2Proof.Machine Sys2Proof.Machine.State

/-- What every step keeps: canonical memory and registers, the error FIFO and the correction queues within their depths, and
a security version of at most 64. -/
def Sound (s : State) : Prop :=
  s.wf = true ∧ s.err.fifo.length ≤ 64 ∧
    (∀ owner, corrDepth s.member owner s.mem.corrq ≤ 16) ∧ s.fuses.svn ≤ 64

end Sys2Proof.Claims

open Sys2Proof Sys2Proof.Machine Sys2Proof.Machine.State Sys2Proof.Claims in
/-- The state after reset is sound. (R449, R359, R115, R417.) -/
def Obligations.ResetIsSound : Prop :=
  Sound State.reset

open Sys2Proof Sys2Proof.Machine Sys2Proof.Machine.State Sys2Proof.Claims in
/-- Every step keeps the state sound. (R359, R115, R417, R449.) -/
def Obligations.EveryStepKeepsSound : Prop :=
  ∀ s t : State, Sound s → step s = .next t → Sound t

open Sys2Proof Sys2Proof.Machine Sys2Proof.Machine.State Sys2Proof.Claims in
/-- No command changes a fuse but the security version, which never falls. (R417, R412, 16_host_boot_protection.md.) -/
def Obligations.FusesChangeOnlyBySecurityVersion : Prop :=
  ∀ (c : Instr) (s t : State), s.fuses.svn ≤ 64 → exec c s = .next t →
    t.fuses = { s.fuses with svn := t.fuses.svn } ∧ s.fuses.svn ≤ t.fuses.svn ∧ t.pending = s.pending

namespace Sys2Proof.Claims
open Sys2Proof Sys2Proof.Machine Sys2Proof.Machine.State

/-- A write from `port` to a register of unit `i` of a type takes effect at once: the member has the page, the port
reaches it, no earlier access of the port and no request of the host waits, the page's domain runs, the page has its capability and is not locked
against the port (R397, R408, R419, R456, R457). -/
abbrev Open (s : State) (port : Port) (ty : PageType) (i : Nat) : Prop :=
  pagePresent s.member ty i = true ∧ s.reachOf port (pageNum ty i) = .page ty i ∧ s.portWaits port = false ∧
    s.portWaits .pcie = false ∧ s.domainRuns ty i = true ∧ s.inertPage ty = false ∧ s.lockedFor port ty = false

/-- The field that a command of one control field writes, and the value: port, page type, unit, field, value. -/
def ctrlField : Instr → Option (Port × PageType × Nat × Fd × Nat)
  | .scrubEnable p i on => some (p, .scrub, i, SCRUB.PAGE_CTRL_enable, on.toNat)
  | .scrubQuiesce p i on => some (p, .scrub, i, SCRUB.PAGE_CTRL_quiesce, on.toNat)
  | .stkQuiesce p i on => some (p, .stk, i, STK.PAGE_CTRL_quiesce, on.toNat)
  | .tseqEnable p i on => some (p, .tseq, i, TSEQ.PAGE_CTRL_enable, on.toNat)
  | .tseqQuiesce p i on => some (p, .tseq, i, TSEQ.PAGE_CTRL_quiesce, on.toNat)
  | .teEnable p i on => some (p, .te, i, TE.PAGE_CTRL_enable, on.toNat)
  | .teQuiesce p i on => some (p, .te, i, TE.PAGE_CTRL_quiesce, on.toNat)
  | .dmaEnable p i on => some (p, .dma, i, DMA.PAGE_CTRL_enable, on.toNat)
  | .dmaQuiesce p i on => some (p, .dma, i, DMA.PAGE_CTRL_quiesce, on.toNat)
  | .veEnable p i on => some (p, .ve, i, VE.PAGE_CTRL_enable, on.toNat)
  | .veQuiesce p i on => some (p, .ve, i, VE.PAGE_CTRL_quiesce, on.toNat)
  | .rngEnable p i on => some (p, .rng, i, RNG.PAGE_CTRL_enable, on.toNat)
  | .rngQuiesce p i on => some (p, .rng, i, RNG.PAGE_CTRL_quiesce, on.toNat)
  | .scaleEnable p i on => some (p, .scale, i, SCALE.PAGE_CTRL_enable, on.toNat)
  | .scaleQuiesce p i on => some (p, .scale, i, SCALE.PAGE_CTRL_quiesce, on.toNat)
  | .normEnable p on => some (p, .norm, 0, NORM.PAGE_CTRL_enable, on.toNat)
  | .normQuiesce p on => some (p, .norm, 0, NORM.PAGE_CTRL_quiesce, on.toNat)
  | .collEnable p on => some (p, .coll, 0, COLL.PAGE_CTRL_enable, on.toNat)
  | .collQuiesce p on => some (p, .coll, 0, COLL.PAGE_CTRL_quiesce, on.toNat)
  | .peEnable p i on => some (p, .pe, i, PE.PAGE_CTRL_enable, on.toNat)
  | .peQuiesce p i on => some (p, .pe, i, PE.PAGE_CTRL_quiesce, on.toNat)
  | .pechEnable p i on => some (p, .pech, i, PECH.PAGE_CTRL_enable, on.toNat)
  | .pechQuiesce p i on => some (p, .pech, i, PECH.PAGE_CTRL_quiesce, on.toNat)
  | .linkEnable p i on => some (p, .link, i, LINK.PAGE_CTRL_enable, on.toNat)
  | .linkQuiesce p i on => some (p, .link, i, LINK.PAGE_CTRL_quiesce, on.toNat)
  | .snapEnable p on => some (p, .snap, 0, SNAP.PAGE_CTRL_enable, on.toNat)
  | .snapQuiesce p on => some (p, .snap, 0, SNAP.PAGE_CTRL_quiesce, on.toNat)
  | .trailEnable p on => some (p, .trail, 0, TRAIL.PAGE_CTRL_enable, on.toNat)
  | .trailQuiesce p on => some (p, .trail, 0, TRAIL.PAGE_CTRL_quiesce, on.toNat)
  | .linkOptTest p i on => some (p, .pech, i, PECH.LINK_OPT_CTRL_test, on.toNat)
  | .linkOptPark p i on => some (p, .pech, i, PECH.LINK_OPT_CTRL_park, on.toNat)
  | .shutterForce p i mask => some (p, .pe, i, PE.SHUTTER_force, mask)
  | _ => none

end Sys2Proof.Claims

open Sys2Proof Sys2Proof.Machine Sys2Proof.Machine.State Sys2Proof.Claims in
/-- A write of a control field sets that field. (R95, R134, R135, R136, R170, R201, R225, R267, R299, R323, R353, R463.) -/
def Obligations.ControlFieldWritesTakeEffect : Prop :=
  ∀ (c : Instr) (port : Port) (ty : PageType) (i : Nat) (f : Fd) (v : Nat) (s : State),
    ctrlField c = some (port, ty, i, f, v) → Open s port ty i →
      Ends c s fun t => t.fget (pageNum ty i) f = v % 2 ^ f.w ∧
        (ty ≠ .stk ∨ s.snap.inbox = [] → ∀ a, t.mem.readByte a = s.mem.readByte a)

open Sys2Proof Sys2Proof.Machine Sys2Proof.Machine.State Sys2Proof.Claims in
/-- Soft resets of memories, scrubbers, sequencers and queues. That a good enable clears Q_STAT.cfg_err is the model's choice (notes/assumptions/98.md). (R134, R135, R136, R138, R139, R150, R170.) -/
def Obligations.MemoryAndQueueSoftResets : Prop :=
  ∀ (s : State) (port : Port),
    (∀ tile, Open s port .spad tile → Ends (.spadSoftReset port tile) s fun t =>
      t.fget (spadP tile) SPAD.SPAD_CE1_CNT_count = 0 ∧ t.fget (spadP tile) SPAD.SPAD_CE2_CNT_count = 0 ∧
      t.fget (spadP tile) SPAD.SPAD_UC_CNT_count = 0 ∧ t.fget (spadP tile) SPAD.SPAD_POISON_RD_CNT_count = 0 ∧
      t.fget (spadP tile) SPAD.SPAD_CORRQ_drops = 0 ∧ t.pair (spadP tile) SPAD.SPAD_CLASS_CNT_LO_count = 0 ∧
      t.mem.corrq = s.mem.corrq.filter fun e => !s.inScrub tile false e.addr) ∧
    (∀ stack, Open s port .stk stack → s.snap.inbox = [] → Ends (.stkSoftReset port stack) s fun t =>
      t.fget (stkP stack) STK.STK_CE1_CNT_count = 0 ∧ t.fget (stkP stack) STK.STK_CE2_CNT_count = 0 ∧
      t.fget (stkP stack) STK.STK_UC_CNT_count = 0 ∧ t.fget (stkP stack) STK.STK_POISON_RD_CNT_count = 0 ∧
      t.fget (stkP stack) STK.STK_CORRQ_drops = 0 ∧ t.pair (stkP stack) STK.STK_RD_BYTES_LO_count = 0 ∧
      t.pair (stkP stack) STK.STK_WR_BYTES_LO_count = 0 ∧
      t.mem.corrq = s.mem.corrq.filter fun e => !s.inScrub stack true e.addr) ∧
    (∀ tile, Open s port .scrub tile → Ends (.scrubSoftReset port tile) s fun t =>
      t.fget (scrubP tile) SCRUB.SCRUB_U_POS_line = 0 ∧ t.fget (scrubP tile) SCRUB.SCRUB_S_POS_unit = 0) ∧
    (∀ tile, Open s port .tseq tile → s.tseqQuiesced tile = true → Ends (.tseqSoftReset port tile) s fun t =>
      ∀ q, q < 8 → t.qEnabled tile q = false ∧ t.queueOf tile q = ⟨[], 0, [], none, false⟩ ∧ t.qTail tile q = 0 ∧
        t.qDone tile q = 0 ∧ t.qHalted tile q = false) ∧
    (∀ tile, Open s port .tseq tile → s.tseqQuiesced tile = true → Ends (.semClear port tile) s fun t =>
      (∀ n, n < 4096 → t.sem tile n = 0) ∧ ∀ other n, other ≠ tile → n < 4096 → t.sem other n = s.sem other n) ∧
    (∀ tile q, Open s port .tseq tile → q < 8 → s.qEnabled tile q = false → s.qIdle tile q = true →
      4 ≤ s.fget (tseqP tile) (qfd TSEQ.Q_CTRL_size_log2 q) → s.fget (tseqP tile) (qfd TSEQ.Q_CTRL_size_log2 q) ≤ 16 →
      Ends (.queueReset port tile q) s fun t => t.queueOf tile q = ⟨[], 0, [], none, false⟩ ∧ t.qTail tile q = 0 ∧
        t.qDone tile q = 0 ∧ t.qHalted tile q = false ∧ t.qEnabled tile q = false) ∧
    (∀ tile q, Open s port .tseq tile → q < 8 → s.qEnabled tile q = false → s.ringsOk tile q = true →
      4 ≤ s.fget (tseqP tile) (qfd TSEQ.Q_CTRL_size_log2 q) → s.fget (tseqP tile) (qfd TSEQ.Q_CTRL_size_log2 q) ≤ 16 →
      Ends (.queueEnable port tile q) s fun t => t.qEnabled tile q = true ∧
        t.flag (tseqP tile) (qfd TSEQ.Q_STAT_cfg_err q) = false) ∧
    (∀ tile q, Open s port .tseq tile → q < 8 → s.qEnabled tile q = true →
      4 ≤ s.fget (tseqP tile) (qfd TSEQ.Q_CTRL_size_log2 q) → s.fget (tseqP tile) (qfd TSEQ.Q_CTRL_size_log2 q) ≤ 16 →
      Ends (.queueDisable port tile q) s fun t => t.qEnabled tile q = false ∧ (t.queueOf tile q).fetched = [])

namespace Sys2Proof.Claims
open Sys2Proof Sys2Proof.Machine Sys2Proof.Machine.State

/-- Occurrence `o` is found by its number, and `t` holds it ended with code ABORTED. -/
def Aborted (t : State) (o : Occ) : Prop :=
  ∃ o', t.occ o.id = some o' ∧ (o'.place = .done ∨ o'.place = .ended) ∧ o'.code = stAborted

/-- The occurrences of a tile's unit that it has taken over and that have not ended. -/
abbrev Held (s : State) (tile : Nat) (u : UnitId) (o : Occ) : Prop :=
  onTile tile u o = true ∧ o.place ≠ .checked ∧ o.place ≠ .ended ∧ s.occ o.id = some o

end Sys2Proof.Claims

open Sys2Proof Sys2Proof.Machine Sys2Proof.Machine.State Sys2Proof.Claims in
/-- Soft resets of the units that execute descriptors. That the collective engine's remembered identities go with its pending opens is the model's choice (notes/assumptions/40.md). (R94, R200, R225, R267, R353, R451, R463.) -/
def Obligations.ExecutionUnitSoftResets : Prop :=
  ∀ (s : State) (port : Port),
    (∀ e, Open s port .te e → Ends (.teSoftReset port e) s fun t => (t.teOf e).occ = none ∧ (t.teOf e).drains = []) ∧
    (∀ e o, Open s port .te e → Held s (e / 4) (.te (e % 4)) o ∨ Held s (e / 4) (.drain (e % 4)) o ∨ Held s (e / 4) .quad o →
      o.place = .running ∨ o.place = .waiting → s.coll.ctxs = [] →
      Ends (.teSoftReset port e) s fun t => Aborted t o) ∧
    (∀ tile o, Open s port .ve tile → s.current (onTile tile .ve) = some o → s.ctxOf o.id = none →
      Ends (.veSoftReset port tile) s fun t => ∃ o', t.occ o.id = some o' ∧ o'.place = .done ∧ o'.code = stAborted) ∧
    (∀ tile o, Open s port .rng tile → s.current (onTile tile .rng) = some o → s.ctxOf o.id = none →
      Ends (.rngSoftReset port tile) s fun t => ∃ o', t.occ o.id = some o' ∧ o'.place = .done ∧ o'.code = stAborted) ∧
    (∀ tile o, Open s port .scale tile → s.scaleFront tile = some o → s.ctxOf o.id = none →
      Ends (.scaleSoftReset port tile) s fun t => Aborted t o ∧ t.scale = s.scale) ∧
    (∀ o, Open s port .trail 0 → s.current (fun o => decide (o.unit = .trail)) = some o → s.ctxOf o.id = none →
      Ends (.trailSoftReset port) s fun t => ∃ o', t.occ o.id = some o' ∧ o'.place = .done ∧ o'.code = stAborted) ∧
    (∀ tile o, Open s port .dma tile → Held s tile .dma o → (∀ x ∈ s.seq.occs, onTile tile .dma x = true → s.ctxOf x.id = none) →
      Ends (.dmaSoftReset port tile) s fun t => Aborted t o) ∧
    (∀ tile n, Open s port .watch tile → n < 4096 → Ends (.watchSoftReset port tile) s fun t =>
      t.watchOf tile n = watchZero) ∧
    (Open s port .coll 0 → Ends (.collSoftReset port) s fun t => t.coll.pend = [] ∧ t.coll.ended = []) ∧
    (∀ c o, Open s port .coll 0 → c ∈ s.coll.ctxs → s.occ c.occ = some o → s.running c = true →
      Ends (.collSoftReset port) s fun t => Aborted t o) ∧
    (∀ k, Open s port .snap 0 → s.snap.clr = some k → k.ended = false →
      Ends (.snapSoftReset port) s fun t => t.snap.clr = none ∧ t.fget snapP SNAP.CLR_STAT_code = stAborted)

namespace Sys2Proof.Claims
open Sys2Proof Sys2Proof.Machine Sys2Proof.Machine.State

/-- The page types whose registers above the header have no write rule of their own. -/
def plainTypes : List PageType := [.te, .ve, .dma, .scale, .norm, .link, .scrub, .stk, .stkphy, .pecal, .route]
/-- The page types of which a pair's write has no rule of its own. -/
def plainPairTypes : List PageType := [.norm, .plan, .flash]
/-- A word after a plain write of `v`: RW bits taken, W1C bits written 1 cleared, the rest kept. -/
def written (r : RegRow) (old v : Word) : Word :=
  ((old &&& ~~~(BitVec.ofNat 32 r.rw)) ||| (v &&& BitVec.ofNat 32 r.rw)) &&& ~~~(BitVec.ofNat 32 r.w1c &&& v)

end Sys2Proof.Claims

open Sys2Proof Sys2Proof.Machine Sys2Proof.Machine.State Sys2Proof.Claims in
/-- Plain register writes, pairs and interrupt enables. (R447, R452, R454, R459.) -/
def Obligations.PlainRegisterWrites : Prop :=
  ∀ (s : State) (port : Port) (ty : PageType) (i off v : Nat) (r : RegRow),
    Open s port ty i → ty.row off = some r → r.outside v = false →
    (ty ∈ plainTypes → 0x020 < off → off % 4 = 0 → (ty.pairLow off && decide (ty.rwBits off ≠ 0)) = false →
      (ty.pairHigh off && decide (ty.rwBits (off - 4) ≠ 0)) = false →
      Ends (.registerWrite port (pageNum ty i) off 4 v) s fun t =>
        t.reg (pageNum ty i) off = written r (s.reg (pageNum ty i) off) (BitVec.ofNat 32 v) ∧
        (∀ p o, regKey p o ≠ regKey (pageNum ty i) off → t.reg p o = s.reg p o) ∧ t = { s.start with rf := t.rf }) ∧
    (ty ≠ .module → off % 4 = 0 → ty.pairLow off = true → ty.rwBits off ≠ 0 →
      Ends (.pairLowWrite port (pageNum ty i) off v) s fun t =>
        t.stagedOf port (pageNum ty i) off = some (BitVec.ofNat 32 v) ∧ (∀ p o, t.reg p o = s.reg p o) ∧
        t = { s.start with rf := t.rf }) ∧
    (∀ w low, ty ∈ plainPairTypes → off % 4 = 0 → 4 ≤ off → ty.pairHigh off = true → ty.pairLow off = false →
      ty.rwBits (off - 4) ≠ 0 → ty.row (off - 4) = some low → s.stagedOf port (pageNum ty i) (off - 4) = some w →
      Ends (.pairHighWrite port (pageNum ty i) off v) s fun t =>
        t.reg (pageNum ty i) off = written r (s.reg (pageNum ty i) off) (BitVec.ofNat 32 v) ∧
        t.reg (pageNum ty i) (off - 4) = written low (s.reg (pageNum ty i) (off - 4)) w ∧
        t.stagedOf port (pageNum ty i) (off - 4) = none ∧ t = { s.start with rf := t.rf }) ∧
    (off = 0x014 → Ends (.pageEvtEnWrite port (pageNum ty i) v) s fun t =>
        t.reg (pageNum ty i) 0x014 = written r (s.reg (pageNum ty i) 0x014) (BitVec.ofNat 32 v) ∧ t.err = s.err ∧
          t.pwr = s.pwr ∧ t.mem = s.mem)

namespace Sys2Proof.Claims
open Sys2Proof Sys2Proof.Machine Sys2Proof.Machine.State

/-- A read from `port` of unit `i`'s page is made at once. -/
abbrev Readable (s : State) (port : Port) (ty : PageType) (i : Nat) : Prop :=
  pagePresent s.member ty i = true ∧ s.reachOf port (pageNum ty i) = .page ty i ∧ s.portWaits port = false ∧
    s.portWaits .pcie = false ∧ s.domainRuns ty i = true ∧ s.inertPage ty = false
/-- The bits of a register that a read clears. -/
def rcBits (ty : PageType) (off : Nat) : Word := match ty.row off with | some r => BitVec.ofNat 32 r.rc | none => 0

end Sys2Proof.Claims

open Sys2Proof Sys2Proof.Machine Sys2Proof.Machine.State Sys2Proof.Claims in
/-- Register reads, their answers and what they clear. That CAL_ADDR wraps at its 16 bits is the model's choice (notes/assumptions/50.md). (R447, R453, R458, R298, R299.) -/
def Obligations.RegisterReads : Prop :=
  ∀ (s : State) (port : Port) (ty : PageType) (i : Nat), Readable s port ty i →
    (∀ off n, off % 4 + n ≤ 4 → 0 < n → off / 4 * 4 ≠ 0x01C → ¬(ty = .module ∧ off / 4 * 4 = 0x090) →
      ty.pairLow (off / 4 * 4) = false → ty.pairHigh (off / 4 * 4) = false → ty.measured (off / 4 * 4) = false →
      rcBits ty (off / 4 * 4) ≠ 0 →
      Ends (.rcRead port (pageNum ty i) off n) s fun t =>
        t.out = [.readData port (bytesOfWord (s.lookReg port ty i (off / 4 * 4)) off n)] ∧
        t.reg (pageNum ty i) (off / 4 * 4) = s.reg (pageNum ty i) (off / 4 * 4) &&& ~~~rcBits ty (off / 4 * 4) ∧
        t = { s.start with out := t.out, rf := t.rf, free := t.free }) ∧
    (∀ off, off % 4 = 0 → off ≠ 0x01C → ¬(ty = .module ∧ off = 0x090) → ty.pairLow off = true →
      ty.pairHigh off = false → ty.measured off = false →
      Ends (.pairLowRead port (pageNum ty i) off) s fun t =>
        t.out = [.readData port (bytesOfWord (s.lookReg port ty i off) off 4)] ∧
        t.pairLatch port (pageNum ty i) (off + 4) = some (s.lookReg port ty i (off + 4)) ∧
        t = { s.start with out := t.out, rf := t.rf, free := t.free }) ∧
    (ty.pairHigh 0x01C = false → ty.measured 0x01C = false →
      Ends (.pageErrCntRead port (pageNum ty i)) s fun t =>
        t.out = [.readData port (bytesOfWord (s.lookReg port ty i 0x01C) 0x01C 4)] ∧
        t.reg (pageNum ty i) 0x01C = 0 ∧ t.reg (pageNum ty i) 0x018 = 0 ∧
        t = { s.start with out := t.out, rf := t.rf, free := t.free }) ∧
    (ty = .pecal → Ends (.calDataRead port i) s fun t =>
        t.out = [.readData port (bytesOfWord (s.lookReg port .pecal i 0x044) 0x044 4)] ∧
        t.fget (pageNum .pecal i) PECAL.CAL_ADDR_addr = (s.fget (pageNum .pecal i) PECAL.CAL_ADDR_addr + 1) % 2 ^ 16)

open Sys2Proof Sys2Proof.Machine Sys2Proof.Machine.State Sys2Proof.Claims in
/-- Writes of queue, semaphore, draw and watcher registers. (R134, R138, R140, R154, R201, R204, R211, R219, R225.) -/
def Obligations.TileRegisterWrites : Prop :=
  ∀ (s : State) (port : Port) (tile : Nat),
    (∀ cls, cls < 8 → Open s port .spad tile → Ends (.spadClassSel port tile cls) s fun t =>
      t.fget (spadP tile) SPAD.SPAD_CLASS_SEL_cls = cls ∧ t.pair (spadP tile) SPAD.SPAD_CLASS_CNT_LO_count = 0 ∧
      t.pair (spadP tile) SPAD.SPAD_CYCLE_CNT_LO_count = 0) ∧
    (∀ q v, q < 8 → Open s port .tseq tile → s.qEnabled tile q = false → s.qIdle tile q = true →
      Ends (.queueRingWrite port tile q .base v) s (fun t => natBits (t.qBase tile q) 12 36 = natBits v 12 36) ∧
      Ends (.queueRingWrite port tile q .sbase v) s (fun t => natBits (t.qSBase tile q) 12 36 = natBits v 12 36) ∧
      (4 ≤ v → v ≤ 16 → Ends (.queueRingWrite port tile q .size v) s fun t => t.qSlots tile q = 2 ^ v)) ∧
    (∀ q tail, q < 8 → Open s port .tseq tile → tail < 2 ^ 32 →
      countGap tail (s.qTail tile q) + countGap (s.qTail tile q) (s.qHead tile q) ≤ s.qSlots tile q →
      Ends (.doorbell port tile q tail) s fun t => t.qTail tile q = tail) ∧
    (∀ q tail, q < 8 → Open s port .tseq tile → tail < 2 ^ 32 →
      s.qSlots tile q < countGap tail (s.qTail tile q) + countGap (s.qTail tile q) (s.qHead tile q) →
      s.fget (tseqP tile) (qfd TSEQ.Q_DB_ERR_CNT_count q) + 1 < 2 ^ TSEQ.Q_DB_ERR_CNT_count.w →
      Ends (.doorbell port tile q tail) s fun t => t.qTail tile q = s.qTail tile q ∧
        t.flag (tseqP tile) TSEQ.PAGE_EVT_db_err = true ∧
        t.fget (tseqP tile) (qfd TSEQ.Q_DB_ERR_CNT_count q) = s.fget (tseqP tile) (qfd TSEQ.Q_DB_ERR_CNT_count q) + 1) ∧
    (∀ v, Open s port .tseq tile →
      Ends (.semSet port tile v) s (fun t => t.sem tile (s.fget (tseqP tile) TSEQ.SEM_IDX_sem) = v % 2 ^ 32) ∧
      Ends (.semAdd port tile v) s (fun t => t.sem tile (s.fget (tseqP tile) TSEQ.SEM_IDX_sem) =
        (s.sem tile (s.fget (tseqP tile) TSEQ.SEM_IDX_sem) + v) % 2 ^ 32)) ∧
    (∀ key, Open s port .rng tile → s.tableFree tile = true → Ends (.rngJobKeyWrite port tile key) s fun t =>
      t.pair (pageNum .rng tile) RNG.JOB_KEY_LO_key = key % 2 ^ 64) ∧
    (∀ v, Open s port .rng tile → Ends (.rngStepWrite port tile v) s fun t =>
      t.fget (pageNum .rng tile) RNG.STEP_value = v % 2 ^ 32) ∧
    (∀ n v, n < 8 → Open s port .rng tile → s.unitBusy tile .rng = false → Ends (.rngDrawWrite port tile n v) s fun t =>
      t.pair (pageNum .rng tile) (RNG.DRAW_LO_count.plus (16 * n)) = v % 2 ^ 64) ∧
    (Open s port .rng tile → Ends (.rngRealign port tile) s fun t =>
      t.flag (pageNum .rng tile) RNG.PAGE_EVT_realign_done = true ∧
      ∀ n, n < 8 → s.fget (pageNum .rng tile) (RNG.SEQ_CFG_per_step.plus (16 * n)) ≠ 0 →
        t.pair (pageNum .rng tile) (RNG.DRAW_LO_count.plus (16 * n)) = s.drawExpected tile n) ∧
    (∀ slot clear, slot < 4096 → Open s port .watch tile → Ends (.watchIdxWrite port tile slot clear) s fun t =>
      (tile, s.watchOf tile slot) ∈ t.scale.snap ∧ (clear = true → t.watchOf tile slot = watchZero) ∧
      (clear = false → t.watchOf tile slot = s.watchOf tile slot))

open Sys2Proof Sys2Proof.Machine Sys2Proof.Machine.State Sys2Proof.Claims in
/-- Writes of the collective, comb, channel and link registers. That a LINK soft_reset counts one retrain and raises one event is the model's choice (notes/assumptions/66.md). (R239, R240, R241, R250, R254, R269, R272, R278, R299, R322, R323, R465.) -/
def Obligations.CollectiveAndEngineRegisterWrites : Prop :=
  ∀ (s : State) (port : Port),
    (∀ v, Open s port .coll 0 → s.collQuiesced = true → v ≤ 4096 → Ends (.groupBaseWrite port true v) s fun t =>
      t.fget collP COLL.GROUP_COUNT_entries = v ∧ t.coll.valid = []) ∧
    (∀ v, Open s port .coll 0 → s.collQuiesced = true → v % 16 = 0 → Ends (.groupBaseWrite port false v) s fun t =>
      natBits (t.pair collP COLL.GROUP_BASE_LO_addr) 0 48 = v % 2 ^ 48 ∧ t.coll.valid = []) ∧
    (∀ key, Open s port .coll 0 → s.collQuiesced = true → Ends (.collJobKeyWrite port key) s fun t =>
      t.pair collP COLL.JOB_KEY_LO_key = key % 2 ^ 64) ∧
    (∀ a, Open s port .coll 0 → s.collQuiesced = true → a % 32 = 0 → Ends (.reportBaseWrite port a) s fun t =>
      natBits (t.pair collP COLL.REPORT_BASE_LO_addr) 0 48 = a % 2 ^ 48) ∧
    (∀ idx, idx < 4096 → Open s port .coll 0 → s.coll.loading = none → Ends (.groupLoad port idx) s fun t =>
      t.coll.loading = some idx) ∧
    (∀ p sel, sel < 2 → Open s port .pe p → s.combOk p sel = true → s.combSel p < 2 →
      Ends (.combSelect port p sel) s fun t => t.fget (peP p) PE.COMB_CTRL_select = sel ∧ t.combSel p = sel) ∧
    (∀ l k, k < 16 → Open s port .pech l → Ends (.chRevive port l k) s fun t =>
      t.sideRetired l k false = false ∧ t.sideRetired l k true = false) ∧
    (∀ l, Open s port .link l → s.fget (linkP l) LINK.RETRAIN_CNT_count + 1 < 2 ^ LINK.RETRAIN_CNT_count.w →
      Ends (.linkSoftReset port l) s fun t => t.flag (linkP l) LINK.PAGE_EVT_retrain = true ∧
        t.fget (linkP l) LINK.RETRAIN_CNT_count = s.fget (linkP l) LINK.RETRAIN_CNT_count + 1 ∧
        ∀ k, k < 16 → (t.chOf l k).txHold = true ∧ (t.chOf l k).rxHold = true) ∧
    (∀ l k, k < 16 → Open s port .pech l → s.sideServes l k false = false → s.sideServes l k true = false →
      Ends (.pechSoftReset port l) s fun t => t.ring l k .sel = dark ∧ t.ring l k .mod = dark ∧ t.ring l k .drop = dark) ∧
    (∀ p j k, j < 8 → k < 16 → Open s port .pe p → s.sideServes (8 * p + j) k false = false →
      s.sideServes (8 * p + j) k true = false → Ends (.peSoftReset port p) s fun t =>
        t.ring (8 * p + j) k .sel = dark ∧ t.ring (8 * p + j) k .mod = dark ∧ t.ring (8 * p + j) k .drop = dark) ∧
    (∀ k, Open s port .stkphy k → s.flag (stkP k) STK.PAGE_CTRL_quiesce = true →
      s.flag (phyP k) STKPHY.PAGE_CTRL_soft_reset = false →
      Ends (.stkphySoftReset port k) s fun t => t.phyTraining k = true ∧
        t.flag (phyP k) STKPHY.PAGE_STAT_trained = false ∧ t.flag (phyP k) STKPHY.PAGE_CTRL_soft_reset = true)

namespace Sys2Proof.Claims
open Sys2Proof Sys2Proof.Machine Sys2Proof.Machine.State

/-- A byte that shares no 64-bit word with a written byte reads as before. -/
def KeepsOutside (s t : State) (bs : List WByte) : Prop :=
  ∀ x, (∀ b ∈ bs, wordOf b.addr ≠ wordOf x) → t.mem.readByte x = s.mem.readByte x

/-- Memory once a command has stored bytes: a word covered in part is read first (01 R28; 05 R115, R116). -/
abbrev stored (s : State) (bs : List WByte) : MemSt := (s.store bs).mem

/-- The bytes of a host write, as memory takes them. -/
def hostBytes (a : Nat) (bytes : List Nat) : List WByte :=
  (bytes.zip (List.range bytes.length)).map fun x => ⟨a + x.2, x.1, false⟩

end Sys2Proof.Claims

open Sys2Proof Sys2Proof.Machine Sys2Proof.Machine.State Sys2Proof.Claims in
/-- Host writes and reads of module memory, holes and configuration requests. That a write waits behind what waits already (notes/assumptions/53.md), and what a configuration request carries and answers (55.md), are the model's choices. (R21, R26, R28, R120, R136, R403, R404, R406, R408.) -/
def Obligations.HostMemoryRequests : Prop :=
  ∀ s : State,
    (∀ off a bytes, s.bar2 off bytes.length = .mem a → s.memOpen a = true → s.portWaits .pcie = false →
      Ends (.pcieMemoryWrite off bytes false) s fun t =>
        t.mem = stored (s.crossFabric [(a, bytes.length)]) (hostBytes a bytes) ∧
        KeepsOutside s t (hostBytes a bytes)) ∧
    (∀ off a bytes ep, s.bar2 off bytes.length = .mem a → (s.memOpen a && !s.portWaits .pcie) = false →
      Ends (.pcieMemoryWrite off bytes ep) s fun t => t.mem = s.mem ∧
        t.waits.map (fun w => w.mem) = s.waits.map (fun w => w.mem) ++ [some ⟨a, bytes.length, some (bytes, ep)⟩]) ∧
    (∀ off a bytes, s.bar2 off bytes.length = .mem a → s.memOpen a = true → s.portWaits .pcie = false →
      Ends (.pcieMemoryWrite off bytes true) s fun t =>
        (∀ i, i < bytes.length → t.mem.poisoned (a + i) = true ∧ t.mem.readByte (a + i) = 0) ∧
        KeepsOutside s t (hostBytes a bytes)) ∧
    (∀ off n a ups, s.bar2 off n = .mem a → s.memOpen a = true → s.portWaits .pcie = false →
      Ends (.pcieMemoryRead off n ups) s fun t =>
      t.out.getLast? = some (.readBytes
        ((List.range n).map fun i => BitVec.ofNat 8 ((s.mem.upset s.member ups).readByte (a + i)))
        ((s.mem.upset s.member ups).poisonedN a n))) ∧
    (∀ off n a ups, s.bar2 off n = .hole a → Ends (.pcieMemoryRead off n ups) s fun t =>
      t.out.getLast? = some .unsupportedRequest ∧ t.flag pcieP PCIE.PAGE_EVT_hole = true ∧ t.mem = s.mem) ∧
    (s.pcieUp = true → s.bootStage < 3 → ∀ r n, Ends (.pcieConfigAccess ⟨r, n⟩) s fun t => t.out = [.requestRetry]) ∧
    (∀ a n, s.pcieUp = true → 3 ≤ s.bootStage →
      s.fget pcieP PCIE.ERR_CNT_count + n < 2 ^ PCIE.ERR_CNT_count.w → Ends (.pcieConfigAccess ⟨.read a, n⟩) s fun t =>
        t.out = [.configData (BitVec.ofNat 64 s.freeVal)] ∧
        t.fget pcieP PCIE.ERR_CNT_count = s.fget pcieP PCIE.ERR_CNT_count + n) ∧
    (∀ c, s.pcieUp = true → 3 ≤ s.bootStage →
      (c ∈ [PcieCap.flitMode, .tags10, .msix, .aer, .ecrc, .poisoning, .flr, .resizableBar, .aspmL1, .laneMargining] →
        Ends (.pcieConfigAccess ⟨.capability c, 0⟩) s fun t => t.out = [.configCap true]) ∧
      (c ∈ [PcieCap.msi, .aspmL0s, .l1Substates, .ats, .pri, .pasid, .sriov, .doe, .ide] →
        Ends (.pcieConfigAccess ⟨.capability c, 0⟩) s fun t => t.out = [.configCap false])) ∧
    (∀ k n, s.pcieUp = true → 3 ≤ s.bootStage → 36 ≤ k → k ≤ 41 →
      Ends (.pcieConfigAccess ⟨.resize k, n⟩) s fun t => t.fget pcieP PCIE.BAR2_SIZE_log2 = k) ∧
    (s.pcieUp = true → ∀ kind, Ends (.pcieReset kind) s fun t =>
      (∀ off, off < 4096 → off ≠ 0x068 → pcieConfig off = true → t.reg pcieP off = resetOf s.member (regKey pcieP off)) ∧
      t.flag pcieP PCIE.PAGE_EVT_reset = true)

namespace Sys2Proof.Claims
open Sys2Proof Sys2Proof.Machine Sys2Proof.Machine.State

/-- What a rewrite of a word's correction leaves: its data and its check difference with the wrong bits turned; an
uncorrectable word is left poisoned with data 0. -/
def fixedWord (m : MemSt) (wa : Nat) : Nat × BitVec 16 :=
  match m.ecc wa with
  | .ok => (m.rawWord wa, m.diff wa)
  | .single p => (flipData (m.rawWord wa) p, flipDiff (m.diff wa) p)
  | .double p q => (flipData (flipData (m.rawWord wa) p) q, flipDiff (flipDiff (m.diff wa) p) q)
  | .uc => (0, poisonField)
/-- Memory `m'` holds word `wa` of `m` corrected, and where it is clean then, every byte and the poison read as before. -/
def Fixed (m m' : MemSt) (wa : Nat) : Prop :=
  (m'.rawWord wa, m'.diff wa) = fixedWord m wa ∧
    (m'.ecc wa = .ok → (∀ i, i < 8 → m'.readByte (wa + i) = m.readByte (wa + i)) ∧ m'.wordPoison wa = m.wordPoison wa)

/-- The words of the line or unit that a memory's pass reaches next. -/
def nextWords (s : State) (tile : Nat) (stack : Bool) : List Nat :=
  wordsOf (scrubBase tile stack + scrubStep stack * s.fget (scrubP tile) (scrubPosFd stack)) (scrubStep stack)

/-- The newest entry of the error FIFO is this event of this page. -/
def Logged (t : State) (code page : Nat) : Prop := ∃ e, t.err.fifo.getLast? = some e ∧ e.code = code ∧ e.page = page

end Sys2Proof.Claims

open Sys2Proof Sys2Proof.Machine Sys2Proof.Machine.State Sys2Proof.Claims in
/-- Correction rewrites, scrub accesses, late passes and stack temperatures. (R113, R115, R116, R117, R121, R122, R123, R128.) -/
def Obligations.ScrubAndCorrection : Prop :=
  ∀ s : State,
    (∀ addr e tile stack off, region s.member addr = (if stack then .stack tile off else .understory tile off) →
      s.mem.corrq.find? (fun e => decide (corrOwner s.member e.addr = corrOwner s.member addr)) = some e →
      s.scrubOn tile stack = true → e.stale = false →
      Ends (.corrqRewrite addr) s fun t => t.mem.corrq.length + 1 = s.mem.corrq.length ∧
        Fixed s.mem t.mem (wordOf e.addr) ∧
        ∀ x, wordOf x ≠ wordOf e.addr → t.mem.readByte x = s.mem.readByte x) ∧
    (∀ addr e tile stack off, region s.member addr = (if stack then .stack tile off else .understory tile off) →
      s.mem.corrq.find? (fun e => decide (corrOwner s.member e.addr = corrOwner s.member addr)) = some e →
      s.scrubOn tile stack = true → e.stale = true →
      Ends (.corrqRewrite addr) s fun t => t.mem.corrq.length + 1 = s.mem.corrq.length ∧
        ∀ x, t.mem.readByte x = s.mem.readByte x) ∧
    (∀ tile stack minutes ups, s.scrubRuns tile stack = true → Ends (.scrubAccess tile stack minutes ups) s fun t =>
      (t.fget (scrubP tile) (scrubPosFd stack) =
        if s.fget (scrubP tile) (scrubPosFd stack) + 1 < scrubUnits stack then
          s.fget (scrubP tile) (scrubPosFd stack) + 1 else 0) ∧
      ∀ x, wordOf x ∉ nextWords s tile stack → t.mem.readByte x = (s.mem.upset s.member ups).readByte x) ∧
    (∀ tile stack minutes ups wa, s.scrubRuns tile stack = true → wa ∈ nextWords s tile stack →
      Ends (.scrubAccess tile stack minutes ups) s fun t => Fixed (s.mem.upset s.member ups) t.mem wa) ∧
    (∀ tile stack, tile < Member.tiles s.member → s.scrubInForce tile stack ≠ 0 → s.domainOn .scrub tile = true →
      s.err.fifo.length < 63 → s.mem.scrubLate.contains (scrubKey tile stack) = false →
      Ends (.scrubLate tile stack) s fun t => t.mem.scrubLate.contains (scrubKey tile stack) = true ∧
        t.flag (scrubP tile) (if stack then SCRUB.PAGE_EVT_s_late else SCRUB.PAGE_EVT_u_late) = true ∧
        (s.flag 0 MODULE.ERR_CFG_ce_fifo = true → Logged t 0x84 (scrubP tile))) ∧
    (∀ tile stack, s.mem.scrubLate.contains (scrubKey tile stack) = true →
      Ends (.scrubLate tile stack) s fun t => t = { s with out := [] }) ∧
    (∀ stack temp, stack < Member.stacks s.member → s.domainOn .stk stack = true → Ends (.stackTempRead stack temp) s fun t =>
      t.fget (stkP stack) STK.STK_TEMP_now = tempByte temp ∧
        t.fget (stkP stack) STK.STK_TEMP_max =
          (if tempOrder (s.fget (stkP stack) STK.STK_TEMP_max) < tempOrder (tempByte temp) then tempByte temp
          else s.fget (stkP stack) STK.STK_TEMP_max) ∧
        t.flag (stkP stack) STK.PAGE_STAT_hot = decide (85 < temp))

namespace Sys2Proof.Claims
open Sys2Proof Sys2Proof.Machine Sys2Proof.Machine.State

/-- A module right after a reset with this wake source: the start-up has not begun, nothing is in flight and memory lists
nothing but the repairs and candidates of the boot record; flash and fuses stay. -/
def FreshStart (s t : State) (src : Nat) : Prop :=
  t.bootStage = 0 ∧ t.ready = false ∧ t.mem = { MemSt.reset with
      lineCand := s.mem.lineCand, rowCand := s.mem.rowCand, lineFix := s.mem.lineFix, rowFix := s.mem.rowFix } ∧ t.seq = SeqSt.reset ∧ t.coll = CollSt.reset ∧
    t.err = ErrSt.reset ∧ t.flash = s.flash ∧ t.fuses = s.fuses ∧ t.pwr.src = src ∧ t.pwr.powered = true ∧ t.now = 0

end Sys2Proof.Claims

open Sys2Proof Sys2Proof.Machine Sys2Proof.Machine.State Sys2Proof.Claims in
/-- Start-up stages, fuse checks, the latch and module reset. What memory holds after a reset (notes/assumptions/14.md) and that the boot record's repairs and candidates stay (101.md) are the model's choices. (R371, R378, R402, R412, R413, R417, R439, R440.) -/
def Obligations.StartUpAndResets : Prop :=
  ∀ s : State,
    (∀ stage b, s.stageMay stage = true → b.ok = false → Ends (.bootStageDone stage b) s fun t =>
      t.bootStage = stage ∧ t.flag 0 MODULE.BOOT_STAT_fail = true) ∧
    (∀ stage b, s.stageMay stage = true → b.ok = true → stage ∈ [1, 2, 3, 4, 5, 8, 9, 10] →
      Ends (.bootStageDone stage b) s fun t => t.bootStage = stage) ∧
    (∀ b, s.stageMay 3 = true → b.ok = true → Ends (.bootStageDone 3 b) s fun t => t.bootStage = 3 ∧
      (s.imageFault (s.imageOf (s.fget rangerP RANGER.FW_SLOT_active)) = 0 →
        t.fget rangerP RANGER.FW_SLOT_running = s.fget rangerP RANGER.FW_SLOT_active ∧ t.host.recovery = false)) ∧
    (∀ b, s.stageMay 6 = true → b.ok = true → Ends (.bootStageDone 6 b) s fun t =>
      t.bootStage = if s.flag 0 MODULE.BOOT_STAT_optics then 7 else 6) ∧
    (∀ b, s.stageMay 7 = true → b.ok = true → Ends (.bootStageDone 7 b) s fun t =>
      t.flag 0 MODULE.BOOT_STAT_optics = true) ∧
    (∀ b, s.stageMay 10 = true → b.ok = true → Ends (.bootStageDone 10 b) s fun t => t.ready = true) ∧
    (s.ready = true → s.pwrState ≤ 1 →
      Ends (.fuseCheck true) s (fun t => t.flag (pageNum .fuse 0) FUSE.INTEG_ok = true ∧
        t.fget (pageNum .fuse 0) FUSE.INTEG_CNT_count = (s.fget (pageNum .fuse 0) FUSE.INTEG_CNT_count + 1) % 2 ^ 32) ∧
      Ends (.fuseCheck false) s (fun t => t.flag (pageNum .fuse 0) FUSE.INTEG_ok = false ∧
        t.fget (pageNum .fuse 0) FUSE.INTEG_CNT_count = (s.fget (pageNum .fuse 0) FUSE.INTEG_CNT_count + 1) % 2 ^ 32 ∧
        t.fget 0 MODULE.FIREBREAK_state ≠ 0)) ∧
    (s.member ≠ .xsc1 → s.latchClosed = true → Ends .latchSensorOpen s fun t => t.latchClosed = false) ∧
    (s.member ≠ .xsc1 → Ends .latchSensorClose s fun t => t.latchClosed = true ∧ t.svc.waits = false) ∧
    (s.pwrState ≠ 4 → Ends .resetPin s fun t => FreshStart s t 8) ∧
    (s.pwr.powered = false → Ends .inputPowerApplied s fun t => FreshStart s t 1) ∧
    (s.pwrState = 4 → s.pwr.powered = true → Ends .wakePin s fun t => FreshStart s t 2) ∧
    Ends .inputPowerLost s (fun t => t.pwrState = 4 ∧ t.pwr.powered = false ∧ t.ready = false ∧ t.fuses = s.fuses)

namespace Sys2Proof.Claims
open Sys2Proof Sys2Proof.Machine Sys2Proof.Machine.State

/-- A FATAL event of this code, page and detail has been taken: the firebreak is closed, no tile dispatches, and the first
FATAL record is this one where none stood before. -/
def FatalTaken (s t : State) (ty : PageType) (i code detail : Nat) : Prop :=
  t.fget 0 MODULE.FIREBREAK_state ≠ 0 ∧ (∀ tile, t.mayDispatch tile = false) ∧
    (s.fget 0 MODULE.FATAL_REC_code = 0 → t.fget 0 MODULE.FATAL_REC_code = code ∧
      t.fget 0 MODULE.FATAL_REC_page = pageNum ty i ∧ t.fget 0 MODULE.FATAL_DETAIL_word = detail % 2 ^ 32)

end Sys2Proof.Claims

open Sys2Proof Sys2Proof.Machine Sys2Proof.Machine.State Sys2Proof.Claims in
/-- FATAL events close the firebreak and stop dispatch. That the trail unit is named by code 12 of the command is the model's choice (notes/assumptions/113.md). (R363, R364, R370, R391, 14_errors_and_containment.md.) -/
def Obligations.FatalEventsCloseTheFirebreak : Prop :=
  ∀ s : State,
    (∀ w, Ends (.hubCtrlUc 0 w) s fun t => FatalTaken s t .module 0 0xC0 w) ∧
    (∀ w, Ends (.hubCtrlUc 1 w) s fun t => FatalTaken s t .coll 0 0xC0 w) ∧
    (∀ l w, Member.link s.member l = true → Ends (.hubCtrlUc (2 + l) w) s fun t => FatalTaken s t .link l 0xC0 w) ∧
    (∀ tile unit, tile < Member.tiles s.member → unit ≤ 12 → Ends (.unitState tile unit) s fun t =>
      FatalTaken s t (unitPage tile unit).1 (unitPage tile unit).2 0xC1 (min unit 11)) ∧
    Ends .rangerWdt s (fun t => FatalTaken s t .ranger 0 0xC6 0) ∧
    (∀ elem, s.pwrState = 0 → elem < 256 → Ends (.railFault elem) s fun t =>
      FatalTaken s t .pwr 0 0xC3 elem ∧ t.pwr.pwrOk = false) ∧
    (∀ d, s.pwrState ≤ 2 → (d = 1 → s.flag clkP CLK.PAGE_STAT_src = false) →
      (d < 3 ∨ (d = 3 ∧ s.member ≠ .xsc1) ∨ (16 ≤ d ∧ d < 16 + Member.stacks s.member) ∨ (24 ≤ d ∧ Member.pe s.member (d - 24) = true)) →
      Ends (.clockLoss d) s fun t => FatalTaken s t .clk 0 0xC2 d) ∧
    (∀ port, Open s port .module 0 → Ends (.firebreakForce port) s fun t => FatalTaken s t .module 0 0xC9 0)

namespace Sys2Proof.Claims
open Sys2Proof Sys2Proof.Machine Sys2Proof.Machine.State

/-- The channel and the epoch of a training record that went out. -/
def trainedOn : Output → Option (Nat × Nat × Nat)
  | .training l k _ _ f _ => match f.pay with | .train r => some (l, k, r.epoch) | _ => none
  | _ => none

end Sys2Proof.Claims

open Sys2Proof Sys2Proof.Machine Sys2Proof.Machine.State Sys2Proof.Claims in
/-- The end of the notices fences the module. (R364, R366.) -/
def Obligations.FirebreakFencesTheModule : Prop :=
  ∀ s : State, s.fget 0 MODULE.FIREBREAK_state = 1 →
    (s.member ≠ .xsc1 → Ends .firebreakNoticeDone s fun t => t.fget 0 MODULE.FIREBREAK_state = 2 ∧
      t.out.map trainedOn = (allChans.filter fun c => s.txCarry c.1 c.2).map fun c => some (c.1, c.2, 0)) ∧
    (s.member = .xsc1 → Ends .firebreakNoticeDone s fun t => t = { s with out := [] })

open Sys2Proof Sys2Proof.Machine Sys2Proof.Machine.State Sys2Proof.Claims in
/-- Reading, popping and acknowledging error events. (R361, R362, R370.) -/
def Obligations.ErrorFifoReaders : Prop :=
  ∀ (s : State) (port : Port),
    (∀ e rest, Readable s port .module 0 → s.err.fifo = e :: rest → Ends (.errEntryRead port) s fun t =>
      t.latchOf port = some e ∧ t.err.fifo = s.err.fifo ∧
      t.out = [.readData port (bytesOfWord (BitVec.ofNat 32 (entryWord e 0)) 0x090 4)]) ∧
    (∀ e, Open s port .module 0 → s.latchOf port = some e → Ends (.errPop port) s fun t =>
      t.err.fifo = s.err.fifo.filter (fun x => decide (x.id ≠ e.id)) ∧ t.latchOf port = none) ∧
    (Open s port .module 0 → Ends (.errAck port) s fun t =>
      t.flag 0 MODULE.ERR_SUM_pend = false ∧ t.fget 0 MODULE.ERR_SUM_sev = 0 ∧
      (s.fget 0 MODULE.FIREBREAK_state = 0 → t.err.alert = false))

open Sys2Proof Sys2Proof.Machine Sys2Proof.Machine.State Sys2Proof.Claims in
/-- Power transitions, their requests, refusals and wake sources. That a transition ends at POWER_TRANSITION_DONE (notes/assumptions/69.md), and where one out of DEEP ends when no firmware verifies (114.md), are the model's choices. (R360, R371, R372, R373, R374, R375, R376, R378, R379, R380.) -/
def Obligations.PowerStateCommands : Prop :=
  ∀ s : State,
    (∀ lost ref, s.mayArrive = true → s.pwrTarget ≤ 3 → s.flag pwrP PWR.PAGE_STAT_pend_valid = false →
      Ends (.powerTransitionDone lost ref) s fun t => t.pwrState = s.pwrTarget ∧ t.pwrMoving = false ∧
        t.flag pwrP PWR.PAGE_EVT_state_done = true) ∧
    (∀ lost ref, s.mayArrive = true → s.pwrTarget = 4 → s.flag pwrP PWR.PAGE_STAT_pend_valid = false →
      Ends (.powerTransitionDone lost ref) s fun t => t.pwrState = 4) ∧
    (s.pwrMoving = true → 2 ≤ s.pwrTarget → s.mayRest = false → Ends .powerQuiesceTimeout s fun t =>
      t.pwrMoving = false ∧ t.pwrState = s.pwrState ∧ t.flag pwrP PWR.PAGE_EVT_req_refused = true) ∧
    (s.flag pwrP PWR.PWR_CFG_auto_idle = true → s.pwrState = 0 → s.pwrMoving = false →
      (∀ o ∈ s.seq.occs, needsTclk o = true → o.place = .checked) → Ends .autoIdle s fun t =>
        t.pwrMoving = true ∧ t.pwrTarget = 1 ∧ t.pwr.src = 0) ∧
    (s.pwrState = 2 ∨ s.pwrState = 3 → s.pwrMoving = false →
      Ends .wakePin s (fun t => t.pwrMoving = true ∧ t.pwrTarget = 0 ∧ t.pwr.src = 2) ∧
      (s.flag pwrP PWR.WAKE_EN_alarm = true → Ends .alarmExpire s fun t =>
        t.pwrMoving = true ∧ t.pwrTarget = 0 ∧ t.pwr.src = 5)) ∧
    (∀ port v, Open s port .pwr 0 → s.pwrState ≤ 1 → s.pwrMoving = false → v ≤ 4 → v ≠ s.pwrState →
      Ends (.pwrReq port v) s fun t => t.pwrMoving = true ∧ t.pwrTarget = v ∧
        t.pwr.src = if port = .pcie then 3 else 4) ∧
    (∀ elem stage, s.waking = true → s.svc.exit = 0 → s.pwr.attempts + 1 < 3 → Ends (.wakeStepTimeout elem stage) s fun t =>
      t.pwr.attempts = s.pwr.attempts + 1) ∧
    (∀ elem stage, s.waking = true → s.svc.exit = 0 → 3 ≤ s.pwr.attempts + 1 →
      s.flag pwrP PWR.PAGE_STAT_pend_valid = false →
      Ends (.wakeStepTimeout elem stage) s fun t => t.pwrState = 3 ∧ t.pwrMoving = false ∧
        t.flag pwrP PWR.PAGE_EVT_wake_fail = true ∧
        (s.pwrState = 3 → s.flag 0 MODULE.ERR_SUM_pend = false → threshold (s.fget 0 MODULE.ERR_CFG_alert_min) ≤ 3 →
          t.err.alert = true)) ∧
    (s.pwrState ≠ 4 → s.flag clkP CLK.PAGE_STAT_bclk_fallback = false → Ends .bclkFallback s fun t =>
      t.flag clkP CLK.PAGE_STAT_bclk_fallback = true ∧ t.flag clkP CLK.PAGE_EVT_bclk_fallback = true)

open Sys2Proof Sys2Proof.Machine Sys2Proof.Machine.State Sys2Proof.Claims in
/-- The cap, the power controller, and the thermal and coolant samples. That measurements are operands (notes/assumptions/67.md, 68.md) and that what does not fit a field shows its largest value (86.md) are the model's choices. (R381, R382, R383, R384, R385, R386, R387, R389.) -/
def Obligations.CapPowerAndThermalCommands : Prop :=
  ∀ s : State,
    (∀ port v, Open s port .pwr 0 → v < 2 ^ 13 → Ends (.capWrite port v) s fun t =>
      t.fget pwrP PWR.CAP_watts = if Member.tdp s.member < v then Member.tdp s.member
        else if v < Member.floorW s.member then Member.floorW s.member else v) ∧
    (∀ w mv ma demands, s.pwrState ≤ 2 → Ends (.powerControlTick w mv ma demands) s fun t =>
      t.fget pwrP PWR.POWER_NOW_watts = min w 65535 ∧
      t.fget pwrP PWR.POWER_NOW_peak = max (s.fget pwrP PWR.POWER_NOW_peak) (min w 65535) ∧
      t.fget pwrP PWR.INPUT_mv10 = mv % 2 ^ 16 ∧ t.fget pwrP PWR.INPUT_ma10 = ma % 2 ^ 16) ∧
    (s.pwr.fast = false → Ends .fastLimitAssert s fun t => t.pwr.fast = true ∧
      t.flag pwrP PWR.PAGE_STAT_fast_limit = true ∧ t.flag pwrP PWR.PAGE_EVT_fast_limit = true ∧
      (s.fget pwrP PWR.FASTLIM_CNT_count + 1 < 2 ^ PWR.FASTLIM_CNT_count.w →
        t.fget pwrP PWR.FASTLIM_CNT_count = s.fget pwrP PWR.FASTLIM_CNT_count + 1)) ∧
    Ends .fastLimitRelease s (fun t => t.pwr.fast = false ∧ t.flag pwrP PWR.PAGE_STAT_fast_limit = false) ∧
    (∀ tile temp, tile < Member.tiles s.member → s.pwrState ≤ 2 → Ends (.dieTempSample tile temp) s fun t =>
      (sparseGet (fun _ => []) t.pwr.dies tile).head? = some temp) ∧
    (∀ sensor temp, s.sensorFitted sensor = true → s.pwrState ≤ 2 → Ends (.thermalSensorSample sensor temp) s fun t =>
      t.tempOf sensor = (temp, some (match (s.tempOf sensor).2 with | some m => max m temp | none => temp)) ∧
      ∀ thr trip, s.sensorLimits sensor = some (thr, trip) → trip ≤ temp → s.pwr.tripped.contains sensor = false →
        t.pwr.tripped.contains sensor = true ∧ t.fget 0 MODULE.FIREBREAK_state ≠ 0) ∧
    (∀ inlet outlet flow ring low in1 fl1, s.member ≠ .xsc1 → s.pwrState ≤ 2 →
      Ends (.coolantSample inlet outlet flow ring low in1 fl1) s fun t =>
        t.fget pwrP PWR.COOLANT_inlet = word16 inlet ∧ t.fget pwrP PWR.COOLANT_outlet = word16 outlet ∧
        t.fget pwrP PWR.FLOW_lpm100 = min flow 65535)

open Sys2Proof Sys2Proof.Machine Sys2Proof.Machine.State Sys2Proof.Claims in
/-- Tile clock dividers and the ranger's sensor window. That a change begins at TCLK_CHANGE and ends at TCLK_CHANGE_DONE is the model's choice (notes/assumptions/72.md). (R392, R395, R400.) -/
def Obligations.ClockAndSensorWindowCommands : Prop :=
  ∀ s : State,
    (∀ port v, Open s port .clk 0 → v < 2 ^ 16 → (∀ t, t < Member.tiles s.member → s.tclkOk (divOf v t) = true) →
      Ends (.tclkDivWrite port v) s fun t => ∀ tile, tile < Member.tiles s.member →
        divOf (t.fget clkP CLK.TCLK_DIV_div) tile = divOf v tile) ∧
    (∀ tile, tile < Member.tiles s.member → s.flag clkP (divPend tile) = true →
      (∀ c ∈ s.pwr.changing, c.1 ≠ tile) → (∀ e, e < 4 → s.teQuiesced (4 * tile + e) = true) →
      s.veQuiesced tile = true → Ends (.tclkChange tile) s fun t =>
        t.pwr.changing = s.pwr.changing ++ [(tile, divOf (s.fget clkP CLK.TCLK_DIV_div) tile)]) ∧
    (∀ tile d, tile < 8 → d < 4 → (s.pwr.changing.find? fun c => decide (c.1 = tile)) = some (tile, d) →
      Ends (.tclkChangeDone tile) s fun t => divOf (t.fget clkP CLK.TCLK_CUR_div) tile = d ∧
        t.flag clkP CLK.PAGE_EVT_div_done = true ∧ ∀ c ∈ t.pwr.changing, c.1 ≠ tile) ∧
    (∀ a b c d, s.pwrState ≤ 2 → s.flag rangerP RANGER.SENS_FLAG_ready = false →
      Ends (.sensorWindowUpdate a b c d) s fun t => t.reg rangerP 0x080 = a ∧ t.reg rangerP 0x084 = b ∧
        t.reg rangerP 0x088 = c ∧ t.reg rangerP 0x08C = d ∧ t.flag rangerP RANGER.SENS_FLAG_ready = true) ∧
    (∀ port, Open s port .ranger 0 → Ends (.sensFlagClear port) s fun t =>
      t.flag rangerP RANGER.SENS_FLAG_ready = false)

namespace Sys2Proof.Claims
open Sys2Proof Sys2Proof.Machine Sys2Proof.Machine.State

/-- A ranger command's code and arguments. -/
def rangerCmd : Instr → Option (Port × Bool × Nat × List Nat)
  | .getId p ok => some (p, ok, 0x01, [])
  | .setCoord p ok rank feed => some (p, ok, 0x02, [rank, feed])
  | .setValid p ok => some (p, ok, 0x03, [])
  | .clrValid p ok => some (p, ok, 0x04, [])
  | .readReg p ok page off => some (p, ok, 0x05, [page, off])
  | .writeReg p ok page off v => some (p, ok, 0x06, [page, off, v])
  | .mgmtPwrReq p ok st => some (p, ok, 0x07, [st])
  | .readWake p ok => some (p, ok, 0x08, [])
  | .census p ok => some (p, ok, 0x09, [])
  | .readErr p ok => some (p, ok, 0x0A, [])
  | .ackErr p ok => some (p, ok, 0x0B, [])
  | .reset p ok key => some (p, ok, 0x0C, [key])
  | .fwWrite p ok addr len => some (p, ok, 0x0D, [addr % 2 ^ 32, addr / 2 ^ 32, len])
  | .fwActivate p ok slot => some (p, ok, 0x0E, [slot])
  | _ => none

/-- The management bus is answered and a command with these arguments is one the ranger takes from it. -/
abbrev MgmtTakes (s : State) (code : Nat) (as : List Nat) : Prop :=
  s.mgmtUp = true ∧ s.cmdFault .mgmt code as = 0
/-- The answer of a ranger command on the management bus. -/
def words (ws : List Word) : Output := .result .mgmt (ws.map fun w => BitVec.ofNat 64 w.toNat)

end Sys2Proof.Claims

open Sys2Proof Sys2Proof.Machine Sys2Proof.Machine.State Sys2Proof.Claims in
/-- Commands of the ranger on the management bus. The layout of the arguments (notes/assumptions/56.md), what memory holds after a reset (14.md) and that the boot record's repairs and candidates stay (101.md) are the model's choices. (R373, R378, R402, R409, R410, R411, R415, R425, R361, R362.) -/
def Obligations.ManagementCommandsTakeEffect : Prop :=
  ∀ s : State,
    (MgmtTakes s 0x01 [] → Ends (.getId .mgmt true) s fun t =>
      t.out = [words [BitVec.ofNat 32 s.fuses.serial.toNat, BitVec.ofNat 32 (s.fuses.serial.toNat / 2 ^ 32),
        BitVec.ofNat 32 (Member.code s.member), s.reg 0 0x050]]) ∧
    (∀ rank feed, MgmtTakes s 0x02 [rank, feed] → rank < 2 ^ 16 → feed < 2 ^ 16 →
      Ends (.setCoord .mgmt true rank feed) s fun t =>
        t.fget 0 MODULE.COORD_rank = rank ∧ t.fget 0 MODULE.FEED_id = feed ∧
        t.flag 0 MODULE.PAGE_EVT_coord_change = true) ∧
    (MgmtTakes s 0x03 [] → Ends (.setValid .mgmt true) s fun t => t.coordValid = true) ∧
    (MgmtTakes s 0x04 [] → Ends (.clrValid .mgmt true) s fun t => t.coordValid = false) ∧
    (∀ ty i off, MgmtTakes s 0x05 [pageNum ty i, off] → Readable s .mgmt ty i → off < 4096 → off % 4 = 0 →
      ¬(ty = .module ∧ off = 0x090) → ty.pairHigh off = false → ty.measured off = false →
      Ends (.readReg .mgmt true (pageNum ty i) off) s fun t =>
        t.out = [words [s.lookReg .mgmt ty i off]]) ∧
    (∀ ty i off v r, MgmtTakes s 0x06 [pageNum ty i, off, v] → Open s .mgmt ty i → ty ∈ plainTypes → 0x020 < off →
      off < 4096 → off % 4 = 0 → v < 2 ^ 32 → ty.row off = some r → r.outside v = false →
      (ty.pairLow off && decide (ty.rwBits off ≠ 0)) = false →
      (ty.pairHigh off && decide (ty.rwBits (off - 4) ≠ 0)) = false →
      Ends (.writeReg .mgmt true (pageNum ty i) off v) s fun t =>
        t.reg (pageNum ty i) off = written r (s.reg (pageNum ty i) off) (BitVec.ofNat 32 v) ∧ t.out = [words []]) ∧
    (∀ v, MgmtTakes s 0x07 [v] → s.pwrState ≤ 1 → s.pwrMoving = false → v ≤ 4 → v ≠ s.pwrState →
      Ends (.mgmtPwrReq .mgmt true v) s fun t => t.pwrMoving = true ∧ t.pwrTarget = v ∧ t.pwr.src = 4) ∧
    (MgmtTakes s 0x08 [] → Ends (.readWake .mgmt true) s fun t =>
      t.out = [words [s.reg pwrP PWR.WAKE_REC0_source.off, s.reg pwrP PWR.WAKE_REC1_seconds.off,
        s.reg pwrP PWR.WAKE_REC2_us10.off]]) ∧
    (∀ k j o o', MgmtTakes s 0x09 [] → s.flag 0 MODULE.PAGE_STAT_census_busy = false → s.pwrState ≤ 1 →
      region s.member (s.pair 0 MODULE.CENSUS_BASE_LO_addr) = .stack k o →
      region s.member (s.pair 0 MODULE.CENSUS_BASE_LO_addr + (2 ^ 20 - 1)) = .stack j o' → k = j →
      s.pair 0 MODULE.CENSUS_BASE_LO_addr % 2 ^ 20 = 0 →
      Ends (.census .mgmt true) s fun t => t.flag 0 MODULE.PAGE_STAT_census_busy = true ∧ t.host.census = some s.now) ∧
    (∀ e rest, MgmtTakes s 0x0A [] → s.err.fifo = e :: rest → Ends (.readErr .mgmt true) s fun t =>
      t.out = [words ((List.range 4).map fun k => BitVec.ofNat 32 (entryWord e k))] ∧
      t.err.fifo = s.err.fifo.filter (fun x => decide (x.id ≠ e.id))) ∧
    (MgmtTakes s 0x0B [] → Ends (.ackErr .mgmt true) s fun t =>
      t.flag 0 MODULE.ERR_SUM_pend = false ∧ t.fget 0 MODULE.ERR_SUM_sev = 0) ∧
    (∀ key, MgmtTakes s 0x0C [key] → Ends (.reset .mgmt true key) s fun t => FreshStart s t 8 ∧ t.out = [words []]) ∧
    (∀ addr len, MgmtTakes s 0x0D [addr % 2 ^ 32, addr / 2 ^ 32, len] → addr < 2 ^ 48 → len < 2 ^ 32 →
      Ends (.fwWrite .mgmt true addr len) s fun t =>
        t.out.getLast? = some (words [BitVec.ofNat 32 (s.imageFault (s.imageBytes addr len))]) ∧
        (s.imageFault (s.imageBytes addr len) = 0 →
          t.imageOf (1 - s.fget rangerP RANGER.FW_SLOT_active) = s.imageBytes addr len)) ∧
    (∀ slot, MgmtTakes s 0x0E [slot] → slot < 2 → Ends (.fwActivate .mgmt true slot) s fun t =>
      t.fget rangerP RANGER.FW_SLOT_active = slot)

namespace Sys2Proof.Claims
open Sys2Proof Sys2Proof.Machine Sys2Proof.Machine.State

/-- Between the two states only registers of these pages, the error log, the answers and the free values' counter moved. -/
def OnlyRecords (s t : State) (pages : List Nat) : Prop :=
  t = { s with rf := t.rf, err := t.err, out := t.out, free := t.free } ∧
    ∀ p o, p ∉ pages → o < 4096 → t.reg p o = s.reg p o

/-- A counter that had room counts one. -/
def CountsOne (s t : State) (page : Nat) (f : Fd) : Prop :=
  s.fget page f + 1 < 2 ^ f.w → t.fget page f = s.fget page f + 1

end Sys2Proof.Claims

open Sys2Proof Sys2Proof.Machine Sys2Proof.Machine.State Sys2Proof.Claims in
/-- Refused management commands, failed packets, and the host mailbox. Which NAKs are logged is the model's choice (notes/assumptions/57.md). (R367, R409, R410, R429.) -/
def Obligations.MailboxCommandsAnswer : Prop :=
  ∀ (c : Instr) (s : State) (code : Nat) (as : List Nat),
    (rangerCmd c = some (.mgmt, false, code, as) → s.mgmtUp = true → s.err.fifo.length < 62 → Ends c s fun t =>
      t.out.getLast? = some (.nak .mgmt 0) ∧ CountsOne s t rangerP RANGER.MGMT_PEC_CNT_count ∧ Logged t 0xB9 rangerP ∧
      OnlyRecords s t [0, rangerP, pcieP]) ∧
    (rangerCmd c = some (.mgmt, true, code, as) → s.mgmtUp = true → s.cmdFault .mgmt code as ≠ 0 →
      s.err.fifo.length < 62 → Ends c s fun t =>
      t.out.getLast? = some (.nak .mgmt (s.cmdFault .mgmt code as)) ∧
      CountsOne s t rangerP RANGER.MGMT_NAK_CNT_count ∧
      (s.cmdFault .mgmt code as ≤ 2 → Logged t 0xB8 rangerP) ∧
      (¬(code = 0x06 ∧ s.cmdFault .mgmt code as = 2) → OnlyRecords s t [0, rangerP, pcieP])) ∧
    (∀ ok, rangerCmd c = some (.pcie, ok, code, as) → Open s .pcie .ranger 0 →
      s.flag rangerP RANGER.MBX_STAT_busy = false → s.cmdFault .pcie code as ≠ 0 → Ends c s fun t =>
        t.fget rangerP RANGER.MBX_STAT_result = s.cmdFault .pcie code as ∧
        t.flag rangerP RANGER.MBX_STAT_busy = false ∧ t.flag rangerP RANGER.PAGE_EVT_mbx_done = true ∧
        (¬(code = 0x06 ∧ s.cmdFault .pcie code as = 2) → OnlyRecords s t [0, rangerP, pcieP])) ∧
    (∀ ok, rangerCmd c = some (.pcie, ok, code, as) → code ∈ [0x01, 0x07, 0x08, 0x09, 0x0D, 0x0E] →
      Open s .pcie .ranger 0 → s.flag rangerP RANGER.MBX_STAT_busy = false → s.cmdFault .pcie code as = 0 → Ends c s fun t =>
        t.fget rangerP RANGER.MBX_STAT_result = 0 ∧ t.flag rangerP RANGER.PAGE_EVT_mbx_done = true ∧
        (code = 0x01 → t.reg rangerP 0x058 = BitVec.ofNat 32 s.fuses.serial.toNat ∧
          t.reg rangerP 0x05C = BitVec.ofNat 32 (s.fuses.serial.toNat / 2 ^ 32) ∧
          t.reg rangerP 0x060 = BitVec.ofNat 32 (Member.code s.member) ∧ t.reg rangerP 0x064 = s.reg 0 0x050)) ∧
    (∀ ok ty i off, c = .readReg .pcie ok (pageNum ty i) off → Open s .pcie .ranger 0 →
      s.flag rangerP RANGER.MBX_STAT_busy = false → s.cmdFault .pcie 0x05 [pageNum ty i, off] = 0 →
      Readable s .mgmt ty i → ty ∈ plainTypes → off < 4096 → off % 4 = 0 → 0x020 < off →
      ty.pairHigh off = false → ty.measured off = false → Ends c s fun t =>
        t.fget rangerP RANGER.MBX_STAT_result = 0 ∧ t.flag rangerP RANGER.PAGE_EVT_mbx_done = true ∧
        t.reg rangerP 0x058 = s.lookReg .pcie ty i off) ∧
    (∀ ok key, c = .reset .pcie ok key → Open s .pcie .ranger 0 → s.flag rangerP RANGER.MBX_STAT_busy = false →
      s.cmdFault .pcie 0x0C [key] = 0 → Ends c s fun t => FreshStart s t 8)

open Sys2Proof Sys2Proof.Machine Sys2Proof.Machine.State Sys2Proof.Claims in
/-- Accesses that wait for a stopped domain. That one access wakes its domain until DOMAIN_IDLE_STOP is the model's choice (notes/assumptions/71.md). (R367, R396, R397, R409.) -/
def Obligations.StoppedDomainAccesses : Prop :=
  ∀ s : State,
    (∀ id w ty i, s.firstWait id = some w → pageAt s.member w.page = some (ty, i) → s.pageRuns w.page = false →
      w.mem = none → s.railsUp ty = true → ty.nonWaking = false → s.waits = [w] → s.pwrState ≤ 2 → Ends (.domainWakeAccess id) s fun t =>
        ty.domain i ∈ t.woken ∧ t.waits = [] ∧ t.fget clkP CLK.WAKE_ACC_CNT_count =
          (s.fget clkP CLK.WAKE_ACC_CNT_count + 1) % 2 ^ CLK.WAKE_ACC_CNT_count.w) ∧
    (∀ page ty i, pageAt s.member page = some (ty, i) → Ends (.domainIdleStop page) s fun t =>
      ty.domain i ∉ t.woken ∧ ∀ d, d ≠ ty.domain i → (d ∈ t.woken ↔ d ∈ s.woken)) ∧
    (∀ id w ty i, s.firstWait id = some w → pageAt s.member w.page = some (ty, i) → ty.nonWaking = true →
      s.domainRuns ty i = false → s.waits = [w] → w.page < 2 ^ 12 → w.off < 2 ^ 12 → Ends (.accessTimeout id) s fun t =>
        t.waits = [] ∧ t.fget clkP CLK.LAST_TIMEOUT_page = w.page ∧ t.fget clkP CLK.LAST_TIMEOUT_offset = w.off ∧
        t.flag clkP CLK.PAGE_EVT_timeout = true) ∧
    (s.mgmtUp = true → s.pwrState ≤ 2 → s.err.fifo = [] → Ends .mgmtTimeout s fun t =>
      ∃ e, t.err.fifo = [e] ∧ e.code = 0xBA ∧ e.page = rangerP) ∧
    (s.mgmtUp = true → s.err.alert = true → Ends .alertResponse s fun t =>
      t.out = [.smbusAddress (0x58 + s.host.strap % 8)])

namespace Sys2Proof.Claims
open Sys2Proof Sys2Proof.Machine Sys2Proof.Machine.State

/-- A flash command that may run: the flash is idle, the operation and range are set, and the range may be touched. -/
abbrev FlashMay (s : State) (port : Port) (op : Nat) : Prop :=
  Open s port .flash 0 ∧ s.flag flashP FLASH.FC_STAT_busy = false ∧
    (op ≠ 4 → flashAccess op (s.fget flashP FLASH.FC_BLOCK_block) (s.fget flashP FLASH.FC_COUNT_blocks) = true) ∧
    (op ≤ 2 → s.flashMem (s.pair flashP FLASH.FC_ADDR_LO_addr) (4096 * s.fget flashP FLASH.FC_COUNT_blocks) = true)
/-- A flash command has started: the flash is busy with it, and it has done nothing yet. -/
def FlashRuns (s t : State) (op : Nat) : Prop :=
  t.flag flashP FLASH.FC_STAT_busy = true ∧ t.flash = s.flash ∧ t.mem = s.mem ∧
    t.host.flashCmd = some ⟨op, s.fget flashP FLASH.FC_BLOCK_block, s.fget flashP FLASH.FC_COUNT_blocks,
      s.pair flashP FLASH.FC_ADDR_LO_addr⟩

end Sys2Proof.Claims

open Sys2Proof Sys2Proof.Machine Sys2Proof.Machine.State Sys2Proof.Claims in
/-- Flash reads, writes, trims and flushes, and their end. That a command is judged at the go and moves nothing before FLASH_CMD_DONE is the model's choice (notes/assumptions/61.md). (R421, R422, R423, R425.) -/
def Obligations.FlashCommands : Prop :=
  ∀ (s : State) (port : Port),
    (FlashMay s port 1 → Ends (.flashRead port []) s fun t => FlashRuns s t 1) ∧
    (FlashMay s port 2 → Ends (.flashWrite port) s fun t => FlashRuns s t 2) ∧
    (FlashMay s port 3 → Ends (.flashTrim port) s fun t => FlashRuns s t 3) ∧
    (FlashMay s port 4 → Ends (.flashFlush port) s fun t => FlashRuns s t 4) ∧
    (∀ c, s.host.flashCmd = some c → s.flashOpen c = true → s.domainOn .flash 0 = true → Ends .flashCmdDone s fun t => t.host.flashCmd = none ∧
      t.flag flashP FLASH.FC_STAT_busy = false ∧ t.flag flashP FLASH.PAGE_EVT_done = true ∧
      t.fget flashP FLASH.FC_STAT_code =
        (if c.op = 1 ∧ (∃ i, i < c.count ∧ c.block + i ∈ s.flash.dead) then 4 else 0) ∧
      t.fget flashP FLASH.FC_DONE_blocks = (if c.op = 4 then 0 else c.count % 2 ^ 32)) ∧
    (∀ c, s.host.flashCmd = some c → s.flashOpen c = true → s.domainOn .flash 0 = true → c.op = 1 → s.flash.dead = [] → s.flash.bad = [] →
      c.addr % 4096 = 0 → (∀ i, i < 4096 * c.count → isMem s.member (c.addr + i) = true) →
      Ends .flashCmdDone s fun t => t.flash = s.flash ∧
        ∀ i, i < 4096 * c.count → t.mem.readByte (c.addr + i) = s.flashByte (4096 * c.block + i) % 256) ∧
    (∀ c, s.host.flashCmd = some c → s.flashOpen c = true → s.domainOn .flash 0 = true → c.op = 2 →
      s.fget flashP FLASH.BOOT_REC_block = 0 ∨ (∀ i, i < 4096 * c.count → s.mem.ecc (wordOf (c.addr + i)) = .ok) → Ends .flashCmdDone s fun t =>
      ∀ i, i < 4096 * c.count → t.flashByte (4096 * c.block + i) = s.mem.readByte (c.addr + i)) ∧
    (∀ c, s.host.flashCmd = some c → s.flashOpen c = true → s.domainOn .flash 0 = true → c.op = 3 → Ends .flashCmdDone s fun t => t.mem = s.mem ∧
      ∀ x ∈ t.flash.cells, ¬(c.block ≤ x.1 / 4096 ∧ x.1 / 4096 < c.block + c.count)) ∧
    (Open s port .module 0 → s.flag 0 MODULE.PAGE_STAT_census_busy = true →
      Ends (.censusGo port) s fun t => t.flag 0 MODULE.PAGE_EVT_ctrl_err = true ∧ t.host.census = s.host.census) ∧
    (∀ k o o', Open s port .module 0 → s.flag 0 MODULE.PAGE_STAT_census_busy = false → s.pwrState ≤ 1 →
      region s.member (s.pair 0 MODULE.CENSUS_BASE_LO_addr) = .stack k o →
      region s.member (s.pair 0 MODULE.CENSUS_BASE_LO_addr + (2 ^ 20 - 1)) = .stack k o' →
      s.pair 0 MODULE.CENSUS_BASE_LO_addr % 2 ^ 20 = 0 →
      Ends (.censusGo port) s fun t => t.flag 0 MODULE.PAGE_STAT_census_busy = true ∧ t.host.census = some s.now) ∧
    (∀ began, s.host.census = some began → s.memOpen (s.pair 0 MODULE.CENSUS_BASE_LO_addr) = true → Ends .censusDone s fun t => t.host.census = none ∧
      t.flag 0 MODULE.PAGE_STAT_census_busy = false ∧ t.flag 0 MODULE.PAGE_EVT_census_done = true ∧
      t.fget 0 MODULE.CENSUS_GEN_count = (s.fget 0 MODULE.CENSUS_GEN_count + 1) % 2 ^ 32)

open Sys2Proof Sys2Proof.Machine Sys2Proof.Machine.State Sys2Proof.Claims in
/-- Parks, stack interfaces and debug requests. That a submission uses its challenge up is the model's choice (notes/assumptions/60.md). (R420, R435, R436, R437, R438, R444, R445, R465.) -/
def Obligations.ServiceAndDebugCommands : Prop :=
  ∀ (s : State) (port : Port),
    (s.member ≠ .xsc1 → s.flag 0 MODULE.SVC_CTRL_button_en = true → s.mayPark = true → s.inJob = false →
      s.nothingInFlight = false → Ends .serviceButton s fun t => t.parkState = 1 ∧
        t.flag snapP SNAP.PAGE_STAT_park = true) ∧
    (Open s port .module 0 → s.mayPark = true → s.inJob = false → Ends (.svcPark port) s fun t =>
      t.parkState = if s.nothingInFlight && decide (s.net.stage = 0) && s.snap.restore.isNone then 3 else 1) ∧
    (Open s port .module 0 → s.parkState = 1 → Ends (.svcCancel port) s fun t => t.parkState = 0 ∧
      t.flag snapP SNAP.PAGE_STAT_park = false) ∧
    (Open s port .module 0 → s.parkState = 3 → s.svc.plain = true → Ends (.svcUnpark port) s fun t =>
      t.parkState = 0 ∧ t.svc.plain = false) ∧
    (s.parkState = 2 → s.snap.parkDone = true → Ends .parkFence s fun t => t.parkState = 3 ∧
      t.flag snapP SNAP.HB_CFG_en = false) ∧
    (s.parkState = 1 → Ends .parkTimeout s fun t => t.parkState = 0 ∧
      t.flag 0 MODULE.SVC_EVT_park_timeout = true) ∧
    (∀ k, k < Member.stacks s.member → s.pwrState ≤ 1 → s.domainOn .stkphy k = true →
      s.flag (phyP k) STKPHY.PAGE_STAT_trained = true →
      Ends (.phyCheck k true) s (fun t => t.fget (phyP k) STKPHY.PHY_CHECK_CNT_count =
        (s.fget (phyP k) STKPHY.PHY_CHECK_CNT_count + 1) % 2 ^ 32) ∧
      Ends (.phyCheck k false) s (fun t => t.phyTraining k = true ∧
        t.flag (phyP k) STKPHY.PAGE_STAT_trained = false ∧ t.flag (phyP k) STKPHY.PAGE_EVT_retrain = true)) ∧
    (∀ k us, k < Member.stacks s.member → s.phyTraining k = true → s.domainOn .stkphy k = true →
      Ends (.phyRetrainDone k true us) s (fun t => t.phyTraining k = false ∧
        t.flag (phyP k) STKPHY.PAGE_STAT_trained = true ∧ t.phyFailsOf k = 0) ∧
      (s.phyFailsOf k < 2 → Ends (.phyRetrainDone k false us) s fun t => t.phyTraining k = true ∧
        t.phyFailsOf k = s.phyFailsOf k + 1) ∧
      (s.phyFailsOf k = 2 → Ends (.phyRetrainDone k false us) s fun t => t.fget 0 MODULE.FIREBREAK_state ≠ 0)) ∧
    (∀ scope, 1 ≤ scope → scope ≤ 2 → (scope = 2 → s.collQuiesced = true ∧ s.flag snapP SNAP.HB_CFG_en = false) →
      Open s port .fuse 0 → s.fuses.dbgOff = false → Ends (.dbgRequest port scope) s fun t =>
      t.host.chal = some (Config.debugChallenge s.host.chals, scope, s.now) ∧ t.host.chals = s.host.chals + 1 ∧
      t.fget fuseP FUSE.DBG_STAT_state = 1) ∧
    (∀ ws scope at', Open s port .fuse 0 → s.host.chal = some (ws, scope, at') → scope < 4 →
      s.now ≤ at' + 60000000 → Ends (.dbgSubmit port) s fun t => t.host.chal = none ∧
        t.fget fuseP FUSE.DBG_STAT_state =
          (if Config.debugOk s.fuses.dbgHash ws ((List.range 24).map fun k => sparseGet (fun _ => (0 : Word)) s.host.resp k)
            s.fuses.serial scope then 2 else 3))

namespace Sys2Proof.Claims
open Sys2Proof Sys2Proof.Machine Sys2Proof.Machine.State

/-- The semaphores of `t` are those of `s` once a descriptor that completes with this code has signalled: its value is added
or set, unless the code is BAD_SEM (R152, R153). -/
def Signalled (s t : State) (d : BitVec 512) (code : Nat) : Prop :=
  ∀ tile n, n < 4096 → t.sem tile n =
    if dbits d 144 1 = 1 ∧ code ≠ stBadSem ∧ dbits d 140 3 < Member.tiles s.member ∧ tile = dbits d 140 3 ∧ n = dbits d 128 12 then
      (if dbits d 145 1 = 1 then dbits d 160 32 else (s.sem tile n + dbits d 160 32) % 2 ^ 32)
    else s.sem tile n

/-- The occurrence `o` has completed: it is gone, its queue's count of completions is one more, and its status record stands in
the status ring's slot of its count, the only bytes written; its signal has been applied, and desc_evt raised where it asks. -/
def Completed (s t : State) (o : Occ) : Prop :=
  t.occ o.id = none ∧ t.qDone o.tile o.queue = (s.qDone o.tile o.queue + 1) % 2 ^ 32 ∧
    t.mem = { stored s (wbytes (s.qSBase o.tile o.queue + 16 * s.slotOfCount o.tile o.queue o.count)
      (statusRecord o ((s.qDone o.tile o.queue + 1) % 2 ^ 32)) false 16) with flight := t.mem.flight } ∧
    Signalled s t o.desc o.code ∧
    (dbits o.desc 16 1 = 1 → t.flag (tseqP o.tile) TSEQ.PAGE_EVT_desc_evt = true)

end Sys2Proof.Claims

open Sys2Proof Sys2Proof.Machine Sys2Proof.Machine.State Sys2Proof.Claims in
/-- Fetching a released slot, and handing a checked head to its unit. (R141, R142, R144, R145, R146, R147, R170, R375, R378.) -/
def Obligations.FetchAndHandOver : Prop :=
  ∀ (s : State) (t q : Nat),
    (s.mayFetch t q = true →
      s.mem.poisonedN (s.qBase t q + 64 * s.slotOfCount t q ((s.queueOf t q).pos + (s.queueOf t q).fetched.length)) 64 = false →
      Ends (.descFetch t q) s fun u => u.queueOf t q = { s.queueOf t q with
        fetched := (s.queueOf t q).fetched ++ [⟨(s.queueOf t q).pos + (s.queueOf t q).fetched.length, BitVec.ofNat 512
          (s.mem.readN (s.qBase t q + 64 *
            s.slotOfCount t q ((s.queueOf t q).pos + (s.queueOf t q).fetched.length)) 64)⟩] }) ∧
    (s.mayFetch t q = true →
      s.mem.poisonedN (s.qBase t q + 64 * s.slotOfCount t q ((s.queueOf t q).pos + (s.queueOf t q).fetched.length)) 64 = true →
      Ends (.descFetch t q) s fun u => u.qHalted t q = true ∧
        u.fget (tseqP t) (qfd TSEQ.Q_STAT_halt_code q) = stDescPoison ∧ u.flag (tseqP t) TSEQ.PAGE_EVT_halted = true) ∧
    (∀ o, s.headOcc t q = some o → s.mayHand o = true → s.yields t q o = false → (s.pwrState = 1 → needsTclk o = false) →
      Ends (.handOver t q) s fun u => u.occ o.id = some { o with place := .input } ∧
        u.mem = s.mem ∧ u.te = s.te ∧ u.scale = s.scale) ∧
    (∀ o, s.headOcc t q = some o → s.mayHand o = true → s.yields t q o = false → s.pwrState = 1 → needsTclk o = true → s.pwrMoving = false →
      s.flag pwrP PWR.PWR_CFG_auto_idle = true →
      Ends (.handOver t q) s fun u => u.pwrMoving = true ∧ u.pwrTarget = 0 ∧ u.seq = s.seq) ∧
    (∀ f rest, q < 8 → (s.queueOf t q).fetched = f :: rest → dWaitEn f.desc = true → (s.queueOf t q).head = none →
      s.headReady t q = false → s.fget (tseqP t) (qfd TSEQ.Q_WAIT_LIMIT_ms q) ≠ 0 → s.pwrState ≤ 1 →
      Ends (.qWaitLimitExpire t q) s fun u => u.flag (tseqP t) (qfd TSEQ.Q_STAT_wait_long q) = true ∧
        u.flag (tseqP t) TSEQ.PAGE_EVT_wait_long = true)

namespace Sys2Proof.Claims
open Sys2Proof Sys2Proof.Machine Sys2Proof.Machine.State

/-- The head of a queue may be dispatched: it may leave step 1, no lower-numbered queue tests the same semaphore first, and
the memory that is read accepts accesses. -/
abbrev MayDispatch (s : State) (t q : Nat) : Prop :=
  s.mayDispatch t = true ∧ q < 8 ∧ s.headGoes t q = true ∧ s.testsLater t q = false ∧ s.dispatchOpen t q = true
/-- The state that the checks of a dispatch see: the descriptor is counted and its wait is over. -/
def counted (s : State) (t q : Nat) : State :=
  (({ s.start with seq := { s.seq with nextId := s.seq.nextId + 1 } }).addPair (tseqP t) TSEQ.DISP_CNT_LO_count 1).fset
    (tseqP t) (qfd TSEQ.Q_STAT_wait_long q) 0

/-- The queue's oldest descriptor has completed in TSEQ with this code: it is no head, the queue's completions count one more,
and its status record's first byte holds the code. -/
def EndsInTseq (s u : State) (t q : Nat) (f : Fetched) (code : Nat) : Prop :=
  u.occ s.seq.nextId = none ∧ u.qDone t q = (s.qDone t q + 1) % 2 ^ 32 ∧ (u.queueOf t q).head = none ∧
    u.mem.readByte (s.qSBase t q + 16 * s.slotOfCount t q f.count) = code % 256
/-- The number of the gate's bit in its mask, and the byte that holds it (R156). -/
def gateBit (s : State) (t : Nat) (d : BitVec 512) : Int := (dbits d 48 10 : Nat) + (s.tensor t (dbits d 32 16) (itsOf [])).adv
def gateByte (s : State) (t : Nat) (d : BitVec 512) : Int := (s.tensor t (dbits d 32 16) (itsOf [])).base + gateBit s t d / 8
/-- A descriptor with a gate whose mask entry and byte can be read. -/
abbrev Gated (s : State) (t : Nat) (d : BitVec 512) : Prop :=
  dbits d 17 1 = 1 ∧ dbits d 32 16 ≠ 0xFFFF ∧ s.tdBad t (dbits d 32 16) = false ∧
    memAt s.member (gateByte s t d) = true ∧ localAt t (gateByte s t d) = true ∧
    s.mem.poisoned (gateByte s t d).toNat = false

end Sys2Proof.Claims

open Sys2Proof Sys2Proof.Machine Sys2Proof.Machine.State Sys2Proof.Claims in
/-- Dispatch counts its descriptor and leaves a checked head or its error. Which of two heads that are ready in one state tests a semaphore first (notes/assumptions/104.md) and where NO_PEER stands among the checks (103.md) are readings of the model. (R145, R146, R148, R151, R153, R156, R167, R466.) -/
def Obligations.DispatchChecksTheHead : Prop :=
  ∀ (s : State) (t q : Nat) (f : Fetched) (rest : List Fetched), (s.queueOf t q).fetched = f :: rest →
    (layerOut (s.queueOf t q) f.desc = false → dWaitEn f.desc = true →
      (dbits f.desc 81 1 = 1 → s.sem t (dbits f.desc 64 12) ≠ dbits f.desc 96 32) →
      (dbits f.desc 81 1 = 0 → 2 ^ 31 ≤ (s.sem t (dbits f.desc 64 12) + 2 ^ 32 - dbits f.desc 96 32) % 2 ^ 32) →
      Ends (.dispatch t q) s fun u => u = { s with out := [] }) ∧
    (MayDispatch s t q →
    Ends (.dispatch t q) s (fun u => u.seq.nextId = s.seq.nextId + 1 ∧
      u.pair (tseqP t) TSEQ.DISP_CNT_LO_count = (s.pair (tseqP t) TSEQ.DISP_CNT_LO_count + 1) % 2 ^ 64 ∧
      u.flag (tseqP t) (qfd TSEQ.Q_STAT_wait_long q) = false)) ∧
    (MayDispatch s t q → layerOut (s.queueOf t q) f.desc = false → dWaitEn f.desc = true → dSigEn f.desc = false →
      Ends (.dispatch t q) s fun u => ∀ tile n, n < 4096 → u.sem tile n =
        if dbits f.desc 82 1 = 1 ∧ tile = t ∧ n = dbits f.desc 64 12 then
          (s.sem t n + 2 ^ 32 - dbits f.desc 96 32) % 2 ^ 32
        else s.sem tile n) ∧
    (MayDispatch s t q → (s.queueOf t q).reps = [] → dWaitEn f.desc = false → dSigEn f.desc = false → dbits f.desc 17 1 = 0 →
      (checkDesc (counted s t q) t q f.desc (itsOf [])).code = 0 →
      Ends (.dispatch t q) s fun u => (u.queueOf t q).head = some s.seq.nextId ∧ (u.queueOf t q).fetched = rest ∧
        (u.queueOf t q).pos = (s.queueOf t q).pos + 1) ∧
    (MayDispatch s t q → (s.queueOf t q).reps = [] → dWaitEn f.desc = false → dSigEn f.desc = false → dbits f.desc 17 1 = 0 →
      (checkDesc (counted s t q) t q f.desc (itsOf [])).code ≠ 0 → dbits f.desc 0 8 ≠ 0x30 → dbits f.desc 0 8 ≠ 0x09 →
      s.qSBase t q % 8 = 0 →
      Ends (.dispatch t q) s fun u =>
        EndsInTseq s u t q f (checkDesc (counted s t q) t q f.desc (itsOf [])).code) ∧
    (MayDispatch s t q → (s.queueOf t q).reps = [] → dWaitEn f.desc = false → dSigEn f.desc = true →
      Member.tiles s.member ≤ dSigTile f.desc → dbits f.desc 0 8 ≠ 0x09 → s.qSBase t q % 8 = 0 →
      Ends (.dispatch t q) s fun u => EndsInTseq s u t q f stBadSem ∧ ∀ tile n, u.sem tile n = s.sem tile n) ∧
    (MayDispatch s t q → (s.queueOf t q).reps = [] → dWaitEn f.desc = false →
      (dSigEn f.desc = true → dSigTile f.desc < Member.tiles s.member) → Gated s t f.desc →
      s.mem.bit (gateByte s t f.desc).toNat (gateBit s t f.desc % 8).toNat = (dbits f.desc 18 1 == 1) →
      dbits f.desc 0 8 ≠ 0x30 → dbits f.desc 0 8 ≠ 0x09 → s.qSBase t q % 8 = 0 →
      Ends (.dispatch t q) s fun u => EndsInTseq s u t q f stGated ∧ Signalled s u f.desc stGated ∧
        CountsOne s u (tseqP t) TSEQ.GATED_CNT_count) ∧
    (MayDispatch s t q → (s.queueOf t q).reps = [] → dWaitEn f.desc = false → dSigEn f.desc = false → Gated s t f.desc →
      s.mem.bit (gateByte s t f.desc).toNat (gateBit s t f.desc % 8).toNat ≠ (dbits f.desc 18 1 == 1) →
      (checkDesc (((counted s t q).touchEntry t (dbits f.desc 32 16)).tileTouch t (gateByte s t f.desc).toNat 1) t q
        f.desc (itsOf [])).code = 0 →
      Ends (.dispatch t q) s fun u => (u.queueOf t q).head = some s.seq.nextId ∧
        (u.queueOf t q).pos = (s.queueOf t q).pos + 1)

open Sys2Proof Sys2Proof.Machine Sys2Proof.Machine.State Sys2Proof.Claims in
/-- NOP, WAIT, FENCE, REPEAT and completion of a descriptor. (R143, R147, R148, R149, R150, R151, R152, R153, R157, R158, R167, R207.) -/
def Obligations.SequencerCommandsComplete : Prop :=
  ∀ (s : State) (t q : Nat) (o : Occ), t < 8 → q < 8 → o.tile = t → o.queue = q →
    (s.headOcc t q = some o → o.opcode = 0x00 → s.mayEnd o = true → Ends (.nop t q) s fun u => Completed s u o) ∧
    (s.headOcc t q = some o → o.opcode = 0x28 → s.mayEnd o = true → Ends (.wait t q) s fun u => Completed s u o) ∧
    (s.headOcc t q = some o → o.opcode = 0x2A → o.place = .checked → s.fenceDone o = true → s.mayEnd o = true →
      Ends (.fence t q) s fun u => Completed s u o) ∧
    (s.headOcc t q = some o → o.opcode = 0x2A → o.place = .checked → s.fenceDone o = false → s.mayEnd o = true →
      Ends (.fence t q) s fun u => u.occ o.id = some { o with place := .waiting } ∧ u.mem = s.mem ∧ u.rf = s.rf) ∧
    (s.headOcc t q = some o → o.opcode = 0x2A → o.place = .waiting → s.fenceDone o = true → s.mayEnd o = true →
      Ends (.fenceComplete t q) s fun u => Completed s u o) ∧
    (s.headOcc t q = some o → o.opcode = 0x30 → o.place = .checked → s.pwrState ≤ 1 → Ends (.repeatLoop t q) s fun u =>
      u.occ o.id = some { o with place := .issuing } ∧ (u.queueOf t q).head = none ∧
      (u.queueOf t q).reps = ⟨o.id, o.count, repN o.desc, repC o.desc, 0, decide (o.code = stGated)⟩ ::
        (s.queueOf t q).reps) ∧
    (s.seq.occs.find? (fun o => decide (o.tile = t) && decide (o.queue = q) && decide (o.place = .tail) &&
        !(s.seq.occs.any fun x => inLast o x)) = some o → s.mayEnd o = true →
      Ends (.repeatComplete t q) s fun u => Completed s u o) ∧
    (∀ n, (s.completable t)[n]? = some o → s.ctxOf o.id = none → s.endOpen o = true →
      Ends (.descComplete t n) s fun u => Completed s u o ∧
        (o.opcode = 0x1A → o.code = stOk → rngKind o = 0xF →
          u.fget (pageNum .rng t) RNG.STEP_value = rngStep o % 2 ^ 32))

namespace Sys2Proof.Claims
open Sys2Proof Sys2Proof.Machine Sys2Proof.Machine.State

/-- An occurrence's work is done: it waits for its completion. -/
def Finished (t : State) (o : Occ) : Prop := ∃ o', t.occ o.id = some o' ∧ o'.place = .done ∧ o'.desc = o.desc

/-- The beats of one group counted on the engines of a MATMUL (R95). -/
def beats (s : State) (o : Occ) (j : MulJob) : State :=
  (mulEngines o).foldl (fun (s : State) k =>
    s.addPair (pageNum .te k) TE.TE_BEAT_CNT_LO_count (if j.pair16 then 1 else 2)) s
/-- The state once the operands of an engine's open run, up to group g, have been read. -/
def runRead (s : State) (o : Occ) (j : MulJob) (x : TeSt) (g : Nat) : State :=
  (beats s o j).touchReads (runReads j x.row x.col x.runStart g)
/-- That run for each element of the block, with its poison. -/
def openRun (s : State) (j : MulJob) (x : TeSt) (g : Nat) : List (Nat × Bool) :=
  runBits (blockRuns s.mem j x.row x.col x.runStart g)
/-- Memory once that run has been added to the block's totals and they are written back (R73). -/
def promotedMem (s : State) (o : Occ) (j : MulJob) (x : TeSt) (g : Nat) : MemSt :=
  let b := (runRead s o j x g).blockTotals j x.row x.col x.fresh
  stored b.1 (totalWrites j x.row x.col (addRuns b.2 (openRun s j x g)))

end Sys2Proof.Claims

open Sys2Proof Sys2Proof.Machine Sys2Proof.Machine.State Sys2Proof.Claims in
/-- MATMUL begins, issues groups, promotes runs, passes a drained block on and ends. (R65, R69, R72, R73, R74, R75, R77, R83, R95.) -/
def Obligations.MatmulIssuesGroups : Prop :=
  ∀ (s : State) (t e : Nat), s.domainOn .te (4 * t + e) = true →
    (∀ n, Ends (.matmul t e (n + 1)) s fun u => u = mulSteps t e n (s.start.mulStep t e)) ∧
    (∀ o j, s.mulFront t e = some o → mulJob o = some j → o.place = .input → 1 < j.groups →
      Ends (.matmul t e 1) s fun u => u.teOf (4 * t + e) = { s.teOf (4 * t + e) with
        occ := some o.id, quad := decide (o.unit = .quad), row := 0, col := 0, kpos := 1, runStart := 0,
        fresh := startsFresh o } ∧ u.occ o.id = some { o with place := .running } ∧ u.mem = s.mem) ∧
    (∀ o j x, s.mulFront t e = some o → mulJob o = some j → o.place = .running → s.teOf (4 * t + e) = x →
      x.kpos + 1 ≠ x.runStart + mulRunLen o → x.kpos + 1 < j.groups → Ends (.matmul t e 1) s fun u =>
        u.teOf (4 * t + e) = { x with kpos := x.kpos + 1 } ∧ u.mem = s.mem) ∧
    (∀ o j x, s.mulFront t e = some o → mulJob o = some j → o.place = .running → s.teOf (4 * t + e) = x →
      x.drains = [] → x.kpos + 1 = x.runStart + mulRunLen o → x.kpos + 1 < j.groups → Ends (.matmul t e 1) s fun u =>
        u.teOf (4 * t + e) = { x with kpos := x.kpos + 1, runStart := x.kpos + 1, fresh := false } ∧
        u.mem = promotedMem s o j x (x.kpos + 1)) ∧
    (∀ o j x, s.mulFront t e = some o → mulJob o = some j → o.place = .running → s.teOf (4 * t + e) = x →
      x.drains = [] → mulDrained o = true → x.kpos + 1 = j.groups → Ends (.matmul t e 1) s fun u =>
        (u.teOf (4 * t + e)).drains =
          [⟨o.id, x.row, x.col, openRun s j x j.groups, x.fresh, s.drainsAhead o⟩] ∧
        u.mem = (runRead s o j x j.groups).mem) ∧
    (∀ o j x, s.mulFront t e = some o → mulJob o = some j → o.place = .running → s.teOf (4 * t + e) = x →
      x.drains = [] → mulDrained o = false → x.kpos + 1 = j.groups → x.row + 1 = j.blockRows →
      x.col + 1 = j.blockCols → Ends (.matmul t e 1) s fun u =>
        Finished u o ∧ (u.teOf (4 * t + e)).occ = none ∧ u.mem = promotedMem s o j x j.groups) ∧
    (∀ o j x, s.mulFront t e = some o → mulJob o = some j → o.place = .running → s.teOf (4 * t + e) = x →
      x.drains ≠ [] → (x.kpos + 1 = x.runStart + mulRunLen o ∨ x.kpos + 1 = j.groups) →
      Ends (.matmul t e 1) s fun u => u.te = s.te ∧ u.mem = s.mem ∧ u.seq = s.seq)

namespace Sys2Proof.Claims
open Sys2Proof Sys2Proof.Machine Sys2Proof.Machine.State

/-- The bytes that a drained block writes to its output. -/
def outBytes (j : MulJob) (out : Tensor) (row col : Nat) : List WByte :=
  (j.cells row col).flatMap fun c => wbytes (out.addr [c.2, c.1]) 0 false out.size
/-- Those of its totals. -/
def totBytes (j : MulJob) (row col : Nat) : List WByte :=
  (j.cells row col).flatMap fun c => wbytes (j.tot.addr [c.2, c.1]) 0 false 8

end Sys2Proof.Claims

open Sys2Proof Sys2Proof.Machine Sys2Proof.Machine.State Sys2Proof.Claims in
/-- DRAIN and the drain of a finished block. (R83, R85, R91, R92, R95.) -/
def Obligations.DrainPathCommands : Prop :=
  ∀ (s : State) (t e : Nat), s.domainOn .te (4 * t + e) = true →
    (∀ o tot, s.drainFront t e = some o → o.ten 0 = some tot → s.sampled t e tot = none →
      (∀ b ∈ (s.teOf (s.drainKey t e)).drains, b.ahead.contains o.id = true) →
      Ends (.drain t e) s fun u => Finished u o ∧
        (∀ k ∈ s.drainEngines t e, u.fget (pageNum .te k) TE.TE_DRAIN_CNT_count =
          (s.fget (pageNum .te k) TE.TE_DRAIN_CNT_count +
            (readingBlocks (if s.quadOn t then 256 else 128) tot).length) % 2 ^ TE.TE_DRAIN_CNT_count.w) ∧
        (∀ out, o.ten 1 = some out → drnAct (o.f 288 32) ≠ 4 → KeepsOutside s u
          ((readingBlocks (if s.quadOn t then 256 else 128) tot).flatMap fun rc =>
            outBytes ⟨tot, tot, tot, if s.quadOn t then 256 else 128⟩ out rc.1 rc.2))) ∧
    (∀ o tot mo j x, s.drainFront t e = some o → o.ten 0 = some tot → s.sampled t e tot = some (mo, j) →
      s.teOf (s.drainKey t e) = x → (∀ b ∈ x.drains, b.ahead.contains o.id = true) →
      Ends (.drain t e) s fun u =>
        u.teOf (s.drainKey t e) = { x with runStart := x.kpos, fresh := false } ∧
        ∃ o', u.occ o.id = some o' ∧ o'.place = .done ∧ o'.runSplit = decide (x.runStart < x.kpos)) ∧
    (∀ b rest o j, (s.teOf (4 * t + e)).drains = b :: rest → s.occ b.occ = some o → mulJob o = some j →
      (∀ k ∈ s.drainEngines t e, ∀ d, s.drainFront t (k % 4) = some d → b.ahead.contains d.id = false) →
      Ends (.blockDrain t e) s fun u =>
        (u.teOf (4 * t + e)).drains = rest ∧
        (∀ k ∈ mulEngines o, u.fget (pageNum .te k) TE.TE_DRAIN_CNT_count =
          (s.fget (pageNum .te k) TE.TE_DRAIN_CNT_count + 1) % 2 ^ TE.TE_DRAIN_CNT_count.w) ∧
        (∀ out, o.ten 3 = some out → drnAct (o.f 320 32) ≠ 4 → KeepsOutside s u
          (outBytes j out b.row b.col ++ if drnKeep (o.f 320 32) then totBytes j b.row b.col else [])) ∧
        (o.place = .waiting → (∀ c ∈ rest, c.occ ≠ o.id) → Finished u o) ∧
        (o.place = .waiting → (∃ c ∈ rest, c.occ = o.id) →
          ∃ o', u.occ o.id = some o' ∧ o'.place = .waiting))

namespace Sys2Proof.Claims
open Sys2Proof Sys2Proof.Machine Sys2Proof.Machine.State

/-- The bytes of a tensor's elements. -/
def tensorBytes (x : Tensor) : List WByte := x.addrs.flatMap fun a => wbytes a.toNat 0 false x.size
/-- What a copy from `src` to `dst` writes, element by element, with positions of `post`. -/
def copied (s : State) (o : Occ) (src dst post : Tensor) (cvt : Nat) : List WByte :=
  wElems (((src.addrs.zip dst.addrs).zip post.positions).map fun x =>
    (moveElem s.mem (Cvt.ofWord cvt) (s.jobKey o.tile) o.step src.fmt dst.fmt x.1.1.toNat x.1.2.toNat x.2).w)
/-- The copying commands: the opcode, the tile and the upsets before the reads. -/
def copyCmd : Instr → Option (Nat × Nat × List (Nat × Nat))
  | .move t ups => some (0x08, t, ups)
  | .stash t => some (0x0A, t, [])
  | .unstash t => some (0x0B, t, [])
  | _ => none

end Sys2Proof.Claims

open Sys2Proof Sys2Proof.Machine Sys2Proof.Machine.State Sys2Proof.Claims in
/-- MOVE, STASH and UNSTASH write the converted elements of the source. (R169, R233, R115, R28.) -/
def Obligations.CopiesWriteTheirDestination : Prop :=
  ∀ (c : Instr) (op t : Nat) (ups : List (Nat × Nat)) (s : State) (o : Occ) (src dst : Tensor),
    copyCmd c = some (op, t, ups) → s.dmaFront t = some o → o.ten 0 = some src → o.ten 1 = some dst → o.opcode = op →
    s.domainOn .dma t = true → Ends c s fun u => Finished u o ∧
      u.mem = { stored ((s.upset ups).touchReads (src.addrs.map fun a => (a.toNat, src.size)))
        (copied (s.upset ups) o src dst (if op = 0x0B then src else dst)
          (if op = 0x08 then o.f 224 32 else o.f 256 32)) with flight := u.mem.flight } ∧
      KeepsOutside (s.upset ups) u (tensorBytes dst)

namespace Sys2Proof.Claims
open Sys2Proof Sys2Proof.Machine Sys2Proof.Machine.State

/-- The commands of the vector engine: the tile and the operation. -/
def vecCmd : Instr → Option (Nat × Nat)
  | .vecAdd t => some (t, 0x01)
  | .vecSub t => some (t, 0x02)
  | .vecMul t => some (t, 0x03)
  | .vecFma t => some (t, 0x04)
  | .vecDiv t => some (t, 0x05)
  | .vecSqrt t => some (t, 0x06)
  | .vecMax t => some (t, 0x07)
  | .vecMin t => some (t, 0x08)
  | .vecAbs t => some (t, 0x09)
  | .vecNeg t => some (t, 0x0A)
  | .vecSel t => some (t, 0x0B)
  | .vecCvt t => some (t, 0x0C)
  | .vecFill t => some (t, 0x0D)
  | .vecRsqrt t => some (t, 0x10)
  | .vecExp2 t => some (t, 0x11)
  | .vecLog2 t => some (t, 0x12)
  | .vecTanh t => some (t, 0x13)
  | .vecGelu t => some (t, 0x14)
  | .vecSilu t => some (t, 0x15)
  | .vecGeluBwd t => some (t, 0x16)
  | .vecSiluBwd t => some (t, 0x17)
  | .vecExp2sub t => some (t, 0x18)
  | .vecRescaleAdd t => some (t, 0x19)
  | .vecCmp t => some (t, 0x20)
  | .vecBittest t => some (t, 0x21)
  | .vecMand t => some (t, 0x22)
  | .vecMor t => some (t, 0x23)
  | .vecMxor t => some (t, 0x24)
  | .vecMandn t => some (t, 0x25)
  | .vecRsum t => some (t, 0x30)
  | .vecRmax t => some (t, 0x31)
  | .vecRmin t => some (t, 0x32)
  | .vecRamax t => some (t, 0x33)
  | .vecTopk t => some (t, 0x34)
  | .optAdamw t => some (t, 0x38)
  | .optSgdm t => some (t, 0x39)
  | _ => none

/-- A natural number at most 2^25 rounded to 24 significant bits, to nearest with ties to even. -/
def nearest24 (n : Nat) : Nat := if n ≤ 2 ^ 24 then n else 2 * (n / 2) + (if n % 4 = 3 then 2 else 0)
/-- The BIN32 code of an integer of magnitude at most 2^25, rounded to nearest with ties to even: sign, exponent with bias 127,
fraction (02 R35, R47). -/
def intCode (i : Int) : Nat :=
  let n := nearest24 i.natAbs
  if n = 0 then 0
  else (if i < 0 then 2 ^ 31 else 0) + (127 + n.log2) * 2 ^ 23 + (n * 2 ^ 23 / 2 ^ n.log2 - 2 ^ 23)
/-- A VEC whose lanes are all active, whose b is a window, that rounds to nearest, and whose dst, a and b are BIN32 windows. -/
abbrev PlainFp32 (o : Occ) (dst a b : Window) : Prop :=
  vecMaskEn o.desc = false ∧ vecImmB o.desc = false ∧ natBits (o.f 256 32) 16 1 = 0 ∧ o.win 0 = some dst ∧
    o.win 1 = some a ∧ o.win 2 = some b ∧ dst.fmt = 2 ∧ a.fmt = 2 ∧ b.fmt = 2

/-- What a VEC writes, in its order. -/
def vecBytes (s : State) (o : Occ) : List WByte := wElems ((vecOuts (s.vecJob o)).flatMap fun x => x.elems)

end Sys2Proof.Claims

open Sys2Proof Sys2Proof.Machine Sys2Proof.Machine.State Sys2Proof.Claims in
/-- Every VEC and OPT operation writes exactly its lanes and ends. (R47, R178, R179, R180, R184, R186, R189, R191, R194, R195, R196.) -/
def Obligations.VectorCommandsWriteTheirLanes : Prop :=
  ∀ (c : Instr) (t op : Nat) (s : State) (o : Occ),
    vecCmd c = some (t, op) → s.veFront t = some o → o.opcode = 0x03 → vecOp o.desc = op → s.domainOn .ve t = true →
    Ends c s fun u =>
      (∃ o', u.occ o.id = some o' ∧ o'.place = .done ∧ o'.code = o.code ∧
        o'.uflags = stickyWord ((List.range (vecCount o.desc + 1)).map fun v =>
          ((vecOuts (s.vecJob o)).filter fun x => decide (x.vec = v)).foldl (fun n x => Nat.lor n x.flags) 0)) ∧
      u.mem = stored (s.touchReads (vecReads (s.vecJob o))) (vecBytes s o) ∧
      KeepsOutside s u (vecBytes s o) ∧
      (∀ tile slot, (∀ dst, o.win 0 = some dst → dst.slotEn = true → ¬(tile = o.tile ∧ slot = dst.slot)) → slot < 4096 →
        (∀ dst, o.win 0 = some dst → dst.slot < 4096) → u.slotOf tile slot = s.slotOf tile slot) ∧
      (∀ dst a b v l x y, PlainFp32 o dst a b → v ≤ vecCount o.desc → l < 1024 →
        s.mem.code 2 (a.addr v l) = intCode x → s.mem.code 2 (b.addr v l) = intCode y →
        s.mem.poisonedN (a.addr v l) 4 = false → s.mem.poisonedN (b.addr v l) 4 = false →
        x.natAbs ≤ 2 ^ 24 → y.natAbs ≤ 2 ^ 24 →
        (op = 0x01 → ∃ z ∈ vecOuts (s.vecJob o), z.elems = [⟨dst.addr v l, 4, intCode (x + y), false⟩]) ∧
        (op = 0x02 → ∃ z ∈ vecOuts (s.vecJob o), z.elems = [⟨dst.addr v l, 4, intCode (x - y), false⟩]))

namespace Sys2Proof.Claims
open Sys2Proof Sys2Proof.Machine Sys2Proof.Machine.State

/-- The words of a BERNOULLI mask: bit i is 1 where block i's first word is below the parameter, 64 bits a word. -/
def maskWords (s : State) (o : Occ) (x : Tensor) : List Nat :=
  (chunks 64 ((s.rngBlocks o x).length + 1) ((s.rngBlocks o x).map fun b => decide (b.x0 < rngParam o))).map fun w =>
    w.foldr (fun b n => (if b then 1 else 0) + 2 * n) 0

/-- The random-number commands: the tile and the kind. -/
def rngCmd : Instr → Option (Nat × Nat)
  | .rngBits t => some (t, 1)
  | .rngUniform t => some (t, 2)
  | .rngNormal t => some (t, 3)
  | .rngBernoulli t => some (t, 4)
  | .rngSetStep t => some (t, 0xF)
  | _ => none

end Sys2Proof.Claims

open Sys2Proof Sys2Proof.Machine Sys2Proof.Machine.State Sys2Proof.Claims in
/-- Random fills write their tensor and count their blocks. (R207, R208, R209, R210, R225.) -/
def Obligations.RandomFillsComplete : Prop :=
  ∀ (c : Instr) (t kind : Nat) (s : State) (o : Occ),
    rngCmd c = some (t, kind) → s.unitFront t .rng = some o → o.place = .input → rngKind o = kind → s.domainOn .rng t = true →
    (∀ x, kind ∈ [1, 2, 3] → o.ten 0 = some x → (kind = 1 → x.size = 4) → Ends c s fun u => Finished u o ∧
      KeepsOutside s u (tensorBytes x) ∧
      u.pair (pageNum .rng o.tile) RNG.BLOCK_CNT_LO_count =
        (s.pair (pageNum .rng o.tile) RNG.BLOCK_CNT_LO_count + (x.addrs.zip (s.rngBlocks o x)).length) % 2 ^ 64 ∧
      (kind = 1 → u.mem = stored s (wElems ((x.addrs.zip (s.rngBlocks o x)).map fun y =>
        ⟨y.1.toNat, 4, y.2.x0, false⟩))) ∧
      (kind ≠ 1 → u.mem = stored s (wElems ((x.addrs.zip (s.rngBlocks o x)).map fun y =>
        ⟨y.1.toNat, x.size, (convertFmt x.fmt 0 .rne false (rngValue kind (rngParam o) y.2).val).code, false⟩)))) ∧
    (∀ x, kind = 4 → o.ten 0 = some x → Ends c s fun u => Finished u o ∧
      u.pair (pageNum .rng o.tile) RNG.BLOCK_CNT_LO_count =
        (s.pair (pageNum .rng o.tile) RNG.BLOCK_CNT_LO_count + (s.rngBlocks o x).length) % 2 ^ 64 ∧
      u.mem = stored s (wElems (((List.range (maskWords s o x).length).zip (maskWords s o x)).map fun y =>
        ⟨x.maskFirst + 8 * y.1, 8, y.2, false⟩))) ∧
    (kind = 0xF → o.ten 0 = none → Ends c s fun u => Finished u o ∧ u.mem = s.mem ∧ u.rf = s.rf)

open Sys2Proof Sys2Proof.Machine Sys2Proof.Machine.State Sys2Proof.Claims in
/-- Scale-slot exports, pushes, targets, saves, loads and watcher exports. (R213, R215, R216, R218, R219.) -/
def Obligations.ScaleCommandsComplete : Prop :=
  ∀ (t : Nat) (s : State) (o : Occ) (x : Tensor),
    s.scaleFront t = some o → s.domainOn .scale t = true → o.ten 0 = some x → o.tile < Member.tiles s.member →
    (o.subop = 1 → Ends (.scaleExport t) s fun u => Finished u o ∧
      KeepsOutside s u (x.addrs.flatMap fun a => wbytes a.toNat 0 false 4) ∧
      (scaleClear o = true → ∀ e ∈ scaleSlots o, (u.slotOf o.tile e.2).amax = 0)) ∧
    (∀ n a v, o.subop = 2 → scaleSlots o = [(0, n)] → n < 4096 → x.addrs = [a] → s.mem.poisonedN a.toNat 4 = false →
      pushable (s.mem.code 2 a.toNat) = some v → Ends (.scalePush t) s fun u => Finished u o ∧
        ∀ tile, tile < Member.tiles s.member → u.slotOf tile n = (s.slotOf tile n).push v) ∧
    (∀ n a, o.subop = 3 → scaleSlots o = [(0, n)] → n < 4096 → x.addrs = [a] → s.mem.poisonedN a.toNat 4 = false →
      s.mem.code 2 a.toNat ≠ 0 → s.mem.code 2 a.toNat < 0x7F800000 → Ends (.scaleSetTarget t) s fun u => Finished u o ∧
        ∀ tile, tile < Member.tiles s.member →
          u.slotOf tile n = { s.slotOf tile n with target := s.mem.code 2 a.toNat }) ∧
    (o.subop = 4 → Ends (.scaleSave t) s fun u => Finished u o ∧
      u.mem = stored s ((scaleSlots o).flatMap fun e =>
        wbytes (x.base + 80 * e.1) (s.slotOf o.tile e.2).record false 80)) ∧
    (∀ n, o.subop = 5 → scaleSlots o = [(0, n)] → n < 4096 → s.mem.poisonedN x.base 80 = false →
      Ends (.scaleLoad t) s fun u => Finished u o ∧ ∀ tile, tile < Member.tiles s.member →
        u.slotOf tile n = Slot.ofRecord (s.mem.readN x.base 80)) ∧
    (o.subop = 6 → Ends (.scaleWatchExport t) s fun u => Finished u o ∧
      u.mem = stored s ((scaleSlots o).flatMap fun e =>
        wbytes (x.base + 48 * e.1) ((s.watchOf o.tile e.2).foldr (fun c n => c + 2 ^ 64 * n) 0) false 48) ∧
      (scaleClear o = true → ∀ e ∈ scaleSlots o, u.watchOf o.tile e.2 = watchZero))

namespace Sys2Proof.Claims
open Sys2Proof Sys2Proof.Machine Sys2Proof.Machine.State

/-- S, n and c of a FINAL from its accumulator's record and its maximum norm (R224). -/
def finalOf (s : State) (o : Occ) (acc : Tensor) : Nat × Nat × Nat :=
  (NormRec.ofBits (s.mem.readN (acc.addrs.headD 0).toNat 96)).final (o.aux.getD 7 0)

end Sys2Proof.Claims

open Sys2Proof Sys2Proof.Machine Sys2Proof.Machine.State Sys2Proof.Claims in
/-- NORM clears, accumulates and finishes. (R220, R221, R222, R224, R225.) -/
def Obligations.NormCommandsComplete : Prop :=
  ∀ (t : Nat) (s : State) (o : Occ) (acc : Tensor),
    s.unitFront t .ve = some o → o.place = .input → o.opcode = 0x18 → s.domainOn .ve t = true → o.ten 1 = some acc →
    (o.subop = 1 → Ends (.normClear t) s fun u => Finished u o ∧
      u.mem = stored s (wbytes (acc.addrs.headD 0).toNat 0 false 96)) ∧
    (∀ src, o.subop = 2 → o.ten 0 = some src → Ends (.normAccumulate t) s fun u => Finished u o ∧
      u.mem = stored (s.touchReads (((acc.addrs.headD 0).toNat, 96) :: src.addrs.map fun x => (x.toNat, src.size)))
        (wbytes (acc.addrs.headD 0).toNat
          ((src.addrs.map fun x => s.mem.elem src.fmt x.toNat).foldl (fun (r : NormRec) e => r.addElem e.val)
            (NormRec.ofBits (s.mem.readN (acc.addrs.headD 0).toNat 96))).bits
          (s.mem.poisonedN (acc.addrs.headD 0).toNat 96 ||
            (src.addrs.map fun x => s.mem.elem src.fmt x.toNat).any fun e => e.poison) 96)) ∧
    (∀ out, o.subop = 4 → o.ten 2 = some out → Ends (.normFinal t) s fun u => Finished u o ∧
      u.pair (pageNum .norm 0) NORM.NORM_LAST_S_LO_value = (finalOf s o acc).1 % 2 ^ 64 ∧
      u.fget (pageNum .norm 0) NORM.NORM_LAST_NF_count =
        (NormRec.ofBits (s.mem.readN (acc.addrs.headD 0).toNat 96)).nonfinite ∧
      u.pair (pageNum .norm 0) NORM.NORM_LAST_C_LO_value = (finalOf s o acc).2.2 % 2 ^ 64 ∧
      u.mem = stored (s.touchReads [((acc.addrs.headD 0).toNat, 96)]) (wElems
        ((out.addrs.zip (if out.count = 3 then [(finalOf s o acc).1, (finalOf s o acc).2.1, (finalOf s o acc).2.2]
          else [(finalOf s o acc).2.2])).map fun x =>
          ⟨x.1.toNat, 8, x.2, s.mem.poisonedN (acc.addrs.headD 0).toNat 96⟩)) ∧
      KeepsOutside s u (out.addrs.flatMap fun a => wbytes a.toNat 0 false 8))

namespace Sys2Proof.Claims
open Sys2Proof Sys2Proof.Machine Sys2Proof.Machine.State

/-- The open collective of an identity, of this sub-operation, with its occurrence: it runs, its tensors' memory is open, the
collective engine works, its
context is its own, and its staging holds nothing that arrived while its memory was closed. -/
abbrev Running (s : State) (sub vc seq bucket : Nat) (c : Ctx) (o : Occ) : Prop :=
  s.ctxAt vc seq bucket = some c ∧ s.ctxOf c.occ = some c ∧ s.occ c.occ = some o ∧ o.place ≠ .done ∧ o.place ≠ .ended ∧
    c.sub = sub ∧ s.tensOpen o = true ∧ s.domainOn .coll 0 = true ∧ c.inbox = []
/-- The length of the next piece of an occurrence's own data, from the byte of `src` where that data starts (R243, R252). -/
def ownNext (s : State) (c : Ctx) (o : Occ) (src : Tensor) (start : Nat) : Nat :=
  frameLen (ownBytes s c o - c.own) fun n => (readPiece s.mem src (start + c.own) n).poison.any fun x => x
/-- What a piece of own data writes into the occurrence's own dst. -/
def ownLands (s : State) (c : Ctx) (o : Occ) (src : Tensor) (start : Nat) : List WByte :=
  match ownAt s c o, o.ten 1 with
  | some base, some dst => landBytes dst (base + c.own) (readPiece s.mem src (start + c.own) (ownNext s c o src start))
  | _, _ => []
/-- The commands of the sub-operations that take own data piece by piece, by sub-operation (R242). -/
def ownCmd (sub vc seq bucket : Nat) : Option Instr :=
  match sub with
  | 3 => some (.collAllgather vc seq bucket)
  | 4 => some (.collBroadcast vc seq bucket)
  | 6 => some (.collSend vc seq bucket)
  | 7 => some (.collRecv vc seq bucket)
  | 8 => some (.chainPass vc seq bucket)
  | _ => none

end Sys2Proof.Claims

open Sys2Proof Sys2Proof.Machine Sys2Proof.Machine.State Sys2Proof.Claims in
/-- ALLGATHER, BROADCAST, SEND, RECV, CHAIN PASS and ALLTOALL take the next own piece. (R242, R243, R245, R246, R252, R226, R227.) -/
def Obligations.OwnDataCommandsTakeTheNextPiece : Prop :=
  ∀ (s : State) (sub vc seq bucket : Nat) (c : Ctx) (o : Occ),
    (∀ cmd, ownCmd sub vc seq bucket = some cmd → Running s sub vc seq bucket c o →
      (∀ src, o.ten 0 = some src → c.own < ownBytes s c o → Ends cmd s fun u =>
        (∃ c', u.ctxOf c.occ = some c' ∧ c'.started = true ∧
          c'.own = c.own + ownNext s c o src ((blockOf s c o c.pos).1 * unitSize c o)) ∧
        KeepsOutside s u (ownLands s c o src ((blockOf s c o c.pos).1 * unitSize c o))) ∧
      (o.ten 0 = none ∨ ownBytes s c o ≤ c.own → Ends cmd s fun u =>
        u.ctxOf c.occ = some { c with started := true } ∧ u.mem = s.mem ∧ u.net = s.net)) ∧
    (Running s 5 vc seq bucket c o → (o.ten 3 = none ∨ c.ins = [] ∨ (c.ins.all fun i => i.arrived && !i.accepted) = false) →
      Ends (.collAlltoall vc seq bucket) s fun u =>
      (∃ c', u.ctxOf c.occ = some c' ∧ c'.started = true ∧
        (∀ src, o.ten 0 = some src → c.own < ownBytes s c o → insOpen c = true →
          c'.own = c.own + ownNext s c o src ((blockOf s c o c.pos).1 * unitSize c o)) ∧
        (insOpen c = false → c'.own = c.own)) ∧
      (∀ src, o.ten 0 = some src →
        KeepsOutside s u (ownLands s c o src ((blockOf s c o c.pos).1 * unitSize c o)))) ∧
    (∀ t src, s.ctxAt 3 seq (gaBucket t) = some c → s.ctxOf c.occ = some c → s.occ c.occ = some o → c.sub = 0x10 →
      (o.place = .running ∨ o.place = .input ∧ s.dmaFront t = some o) → s.tensOpen o = true → c.inbox = [] →
      s.domainOn .dma t = true → o.ten 0 = some src → c.own < ownBytes s c o →
      Ends (.gatherAhead t seq) s fun u => u.occ o.id = some { o with place := .running } ∧
        (∃ c', u.ctxOf c.occ = some c' ∧ c'.started = true ∧
          c'.own = c.own + ownNext s c o src ((blockOf s c o c.pos).1 * unitSize c o)) ∧
        KeepsOutside s u (ownLands s c o src ((blockOf s c o c.pos).1 * unitSize c o)))

namespace Sys2Proof.Claims
open Sys2Proof Sys2Proof.Machine Sys2Proof.Machine.State

/-- The length of the next piece of a reducing chain's first position (R246, R252). -/
def chainNext (s : State) (c : Ctx) (o : Occ) : Nat :=
  frameLen (chainBytes c o - c.own) fun n =>
    (hopPiece s.mem (s.pair State.collP COLL.JOB_KEY_LO_key) c o c.own n none).piece.poison.any fun x => x

end Sys2Proof.Claims

open Sys2Proof Sys2Proof.Machine Sys2Proof.Machine.State Sys2Proof.Claims in
/-- ALLREDUCE and REDUCE_SCATTER move the chain on from its first position. (R246, R249, R252, R223.) -/
def Obligations.ReducingChainsStartAtPositionZero : Prop :=
  ∀ (s : State) (vc seq bucket : Nat) (c : Ctx) (o : Occ),
    (∀ cmd sub, (sub = 1 ∧ cmd = Instr.collAllreduce vc seq bucket) ∨ (sub = 2 ∧ cmd = Instr.collReduceScatter vc seq bucket) →
      Running s sub vc seq bucket c o →
      (c.pos = 0 → c.own < chainBytes c o → Ends cmd s fun u =>
        (∃ c', u.ctxOf c.occ = some c' ∧ c'.started = true ∧ c'.own = c.own + chainNext s c o ∧
          c'.passed = c.passed + chainNext s c o) ∧
        (c.g ≠ 1 → ∀ x, u.mem.readByte x = s.mem.readByte x)) ∧
      (c.pos ≠ 0 ∨ chainBytes c o ≤ c.own → Ends cmd s fun u =>
        u.ctxOf c.occ = some { c with started := true } ∧ u.mem = s.mem ∧ u.net = s.net)) ∧
    (∀ t, s.unitFront t .ve = some o → s.ctxOf o.id = some c → o.place = .input → c.sub = 0x11 → s.domainOn .ve t = true →
      Ends (.normExchange t) s fun u => u.occ o.id = some { o with place := .running } ∧
        ∃ c', u.ctxOf o.id = some c' ∧ c'.started = true)

open Sys2Proof Sys2Proof.Machine Sys2Proof.Machine.State Sys2Proof.Claims in
/-- Granting a context, opening again, and the wait limit. (R256, R257, R259, R269, R378.) -/
def Obligations.GrantAndOpens : Prop :=
  ∀ (s : State) (vc : Nat),
    (∀ o, firstHead (s.ctxHeads vc) = some o → vc ≤ 7 → s.ctxCount vc < ctxLimit vc →
      s.flag State.collP COLL.PAGE_CTRL_quiesce = false → s.fireClosed = false → s.pwrState = 0 →
      s.yields o.tile o.queue o = false →
      (s.ctxAt vc (seqOf o) (bucketOf o) = none → s.ctxOf o.id = none → Ends (.contextGrant vc) s fun u =>
        ∃ c, u.ctxOf o.id = some c ∧ c.vc = vc ∧ c.seq = seqOf o ∧ c.bucket = bucketOf o ∧
          c.ranks = s.groupRanks (o.aux.getD 4 0) ∧ c.pos = o.aux.getD 6 0) ∧
      ((s.ctxAt vc (seqOf o) (bucketOf o)).isSome = true → Ends (.contextGrant vc) s fun u =>
        u.occ o.id = some { o with place := .ended, code := stDupBucket } ∧ u.net = s.net ∧
        ∃ c, u.coll = { s.coll with ctxs := s.coll.ctxs ++ [c] } ∧ c.occ = o.id ∧ c.vc = vc ∧ c.outs = [] ∧ c.ins = [])) ∧
    (∀ o, firstHead (s.ctxHeads vc) = some o → vc ≤ 7 → s.ctxCount vc < ctxLimit vc →
      s.flag State.collP COLL.PAGE_CTRL_quiesce = false → s.fireClosed = false → s.pwrState = 1 →
      s.yields o.tile o.queue o = false → needsTclk o = true → s.pwrMoving = false → s.flag pwrP PWR.PWR_CFG_auto_idle = true → Ends (.contextGrant vc) s fun u =>
        u.pwrMoving = true ∧ u.pwrTarget = 0 ∧ u.coll = s.coll) ∧
    (s.ctxHeads vc = [] ∨ ctxLimit vc ≤ s.ctxCount vc ∨ s.flag State.collP COLL.PAGE_CTRL_quiesce = true ∨
        s.fireClosed = true →
      Ends (.contextGrant vc) s fun u => u = s.start) ∧
    (∀ seq bucket pos c o st, s.ctxAt vc seq bucket = some c → s.ctxOf c.occ = some c → s.occ c.occ = some o →
      o.place ≠ .done → o.place ≠ .ended → s.domainOn .coll 0 = true → c.outs.find? (fun x => decide (x.pos = pos) && x.retry && !x.accepted) = some st →
      Ends (.openRetryTimeout vc seq bucket pos) s fun u =>
        (∃ c', u.ctxOf c.occ = some c' ∧ ∀ x ∈ c'.outs, x.pos = pos → x.retry = false) ∧ u.mem = s.mem ∧
        (∀ p, s.routeOf st.rank c.vc = some p → ∃ f, (u.portOf p).waiting = (s.portOf p).waiting ++ [f] ∧
          f.typ = 1 ∧ f.dst = st.rank)) ∧
    (∀ o, o ∈ s.heads → o.opcode ≠ 0x29 → o.unit ≠ .tseq → needsContext o.desc = true → vcOf o = vc → vc < 8 →
      (ctxLimit vc ≤ s.ctxCount vc ∨ 16 ≤ s.inFlight o.tile ∨ s.flag State.collP COLL.PAGE_CTRL_quiesce = true) →
      s.domainOn .coll 0 = true → s.fget State.collP COLL.WAIT_LIMIT_ms ≠ 0 → Ends .collWaitLimitExpire s fun u =>
      u.flag State.collP COLL.PAGE_EVT_wait_long = true ∧ u.coll = s.coll ∧ u.mem = s.mem) ∧
    (∀ c st, c ∈ s.coll.ctxs → s.running c = true → st ∈ c.outs → st.accepted = false →
      s.domainOn .coll 0 = true → s.fget State.collP COLL.WAIT_LIMIT_ms ≠ 0 → Ends .collWaitLimitExpire s fun u =>
      u.flag State.collP COLL.PAGE_EVT_wait_long = true ∧ u.coll = s.coll ∧ u.mem = s.mem)

open Sys2Proof Sys2Proof.Machine Sys2Proof.Machine.State Sys2Proof.Claims in
/-- Remote SIGNALs and group validation. (R152, R155, R239, R240.) -/
def Obligations.SignalsAndGroups : Prop :=
  ∀ (s : State) (t q : Nat) (o : Occ),
    (t < 8 → q < 8 → o.tile = t → o.queue = q → s.headOcc t q = some o → o.opcode = 0x29 → o.place = .checked →
      s.mayEnd o = true →
      (o.f 223 1 = 0 → Ends (.signal t q) s fun u => Completed s u o) ∧
      (o.f 223 1 = 1 → o.f 192 16 = s.rank → o.f 220 3 < Member.tiles s.member → Ends (.signal t q) s fun u =>
        Completed (s.signalSem (o.f 220 3) (o.f 208 12) (o.f 224 1 == 1) (o.f 256 32)) u o ∧ (dSigEn o.desc = false → u.sem (o.f 220 3) (o.f 208 12) =
          if o.f 224 1 = 1 then o.f 256 32 else (s.sem (o.f 220 3) (o.f 208 12) + o.f 256 32) % 2 ^ 32)) ∧
      (o.f 223 1 = 1 → o.f 192 16 = s.rank → Member.tiles s.member ≤ o.f 220 3 → Ends (.signal t q) s fun u =>
        Completed s u { o with code := stPeerProtocol }) ∧
      (o.f 223 1 = 1 → o.f 192 16 ≠ s.rank → s.member = .xsc1 → Ends (.signal t q) s fun u =>
        Completed s u { o with code := stNoPeer }) ∧
      (o.f 223 1 = 1 → o.f 192 16 ≠ s.rank → s.member ≠ .xsc1 →
        (s.snap.lost.contains (o.f 192 16) = true ∨ s.coordValid = false ∨ s.routeOf (o.f 192 16) 1 = none) →
        Ends (.signal t q) s fun u => Completed s u { o with code := stPeerLost }) ∧
      (∀ p, o.f 223 1 = 1 → o.f 192 16 ≠ s.rank → s.member ≠ .xsc1 → s.snap.lost.contains (o.f 192 16) = false →
        s.coordValid = true → s.routeOf (o.f 192 16) 1 = some p → s.sigWaiting.length < 64 →
        Ends (.signal t q) s fun u => u.occ o.id = some { o with place := .waiting } ∧ u.mem = s.mem ∧
          ∃ f, (u.portOf p).waiting = (s.portOf p).waiting ++ [f] ∧ f.dst = o.f 192 16 ∧ f.vc = 1 ∧ f.typ = 7 ∧
            f.pay = .signal o.id (o.f 220 3) (o.f 208 12) (o.f 224 1 == 1) (o.f 256 32))) ∧
    (∀ i, s.coll.loading = some i → s.domainOn .coll 0 = true → s.groupOpen i = true → Ends .groupValidateDone s fun u => u.coll.loading = none ∧
      (i ∈ u.coll.valid ↔ (s.groupFault i).1 = 0) ∧
      (∀ j, j ≠ i → (j ∈ u.coll.valid ↔ j ∈ s.coll.valid)) ∧
      u.fget State.collP COLL.GROUP_STAT_valid = (if (s.groupFault i).1 = 0 then 1 else 0) ∧
      u.fget State.collP COLL.GROUP_STAT_err = (s.groupFault i).1 ∧
      u.fget State.collP COLL.GROUP_STAT_at = (s.groupFault i).2 % 2 ^ COLL.GROUP_STAT_at.w ∧
      u.flag State.collP COLL.PAGE_EVT_group_done = true ∧ ∀ x, u.mem.readByte x = s.mem.readByte x)

namespace Sys2Proof.Claims
open Sys2Proof Sys2Proof.Machine Sys2Proof.Machine.State

/-- A received frame that passes every check of R321 for this module, all its flits having come (R317): the port it came on,
and what the checks leave. -/
abbrev Delivered (s : State) (rx : Rx) (r : State) (p : Nat) : Prop :=
  p = s.rxPort rx.link rx.chan ∧ r = (s.start.receive rx).1 ∧ rx.chan < 16 ∧
    s.fenced = false ∧ s.rxOpen rx.link rx.chan = true ∧ Rx.whole rx = true ∧ Rx.crcRight rx = true ∧
    frameType rx.frame.typ = true ∧ rx.frame.typ ≠ 19 ∧ rx.frame.len ≤ 4096 ∧ rx.frame.reserved = 0 ∧
    payloadFits rx.frame.typ rx.frame.pay = true ∧ s.portPeer p = some rx.frame.hopSrc ∧
    (rx.frame.dst = s.rank ∨ rx.frame.fanout = true) ∧
    (linkControl rx.frame.typ = false → s.rxCarry rx.link rx.chan = true ∧
      0 < (s.portOf p).granted.getD rx.frame.vc 0 ∧ rx.frame.seq % 2 ^ 24 = (s.portOf p).rxSeq)
/-- A frame of a type waits last on the port that a rank has on a VC, if it has one. -/
def Queued (r u : State) (rank vc typ : Nat) (P : Payload → Prop) : Prop :=
  ∀ q, r.routeOf rank vc = some q → ∃ f, (u.portOf q).waiting = (r.portOf q).waiting ++ [f] ∧ f.typ = typ ∧
    f.dst = rank ∧ P f.pay
/-- The open collective that a frame's identity names, still running, with its occurrence. -/
abbrev OpenAt (r : State) (f : Frame) (c : Ctx) (o : Occ) : Prop :=
  r.ctxAt f.vc f.coll f.bucket = some c ∧ r.ctxOf c.occ = some c ∧ r.occ c.occ = some o ∧ o.place ≠ .done ∧
    o.place ≠ .ended
/-- The occurrence has ended with this code: it waits for its completion, one that its unit has not taken behind those in
front of it. -/
def EndsWith (u : State) (o : Occ) (code : Nat) : Prop := ∃ o', u.occ o.id = some o' ∧
  o'.place = (if o.place = .input ∧ o.unit ≠ .coll then .ended else .done) ∧ o'.code = code
/-- The frames that wait on every port are the same. -/
def SameWaiting (r u : State) : Prop := ∀ q, (u.portOf q).waiting = (r.portOf q).waiting

end Sys2Proof.Claims

open Sys2Proof Sys2Proof.Machine Sys2Proof.Machine.State Sys2Proof.Claims in
/-- OPEN, ACCEPT, RETRY and NAK frames. (R259, R260, R263, R266, R314, R317, R318, R319, R321.) -/
def Obligations.OpensAndAnswersReceived : Prop :=
  ∀ (s r : State) (rx : Rx) (p : Nat), Delivered s rx r p →
    (linkControl rx.frame.typ = false → (r.portOf p).rxSeq = ((s.portOf p).rxSeq + 1) % 2 ^ 24 ∧
      (r.portOf p).ackDue = true ∧ r.mem = s.mem ∧ r.seq = s.seq ∧ r.coll = s.coll) ∧
    (∀ x, rx.frame.typ = 1 → rx.frame.pay = .openRec x →
      (r.ctxAt rx.frame.vc rx.frame.coll rx.frame.bucket = none →
        r.coll.ended.contains (rx.frame.vc, rx.frame.coll, rx.frame.bucket) = false →
        r.snap.lost.contains rx.frame.src = false →
        (r.coll.pend.any fun y => decide (y.vc = rx.frame.vc) && decide (y.seq = rx.frame.coll) &&
          decide (y.bucket = rx.frame.bucket) && decide (y.src = rx.frame.src)) = false →
        (r.coll.pend.filter fun y => decide (y.vc = rx.frame.vc)).length < 256 → Ends (.openReceive rx) s fun u =>
          u.coll.pend = r.coll.pend ++ [⟨rx.frame.vc, rx.frame.coll, rx.frame.bucket, rx.frame.src, x⟩]) ∧
      (r.ctxAt rx.frame.vc rx.frame.coll rx.frame.bucket = none →
        r.coll.ended.contains (rx.frame.vc, rx.frame.coll, rx.frame.bucket) = false →
        r.snap.lost.contains rx.frame.src = false →
        (r.coll.pend.any fun y => decide (y.vc = rx.frame.vc) && decide (y.seq = rx.frame.coll) &&
          decide (y.bucket = rx.frame.bucket) && decide (y.src = rx.frame.src)) = false →
        256 ≤ (r.coll.pend.filter fun y => decide (y.vc = rx.frame.vc)).length → Ends (.openReceive rx) s fun u =>
          u.coll = r.coll ∧ u.mem = r.mem ∧ CountsOne r u State.collP COLL.RETRY_CNT_count ∧
          Queued r u rx.frame.src rx.frame.vc 4 fun y => y = .none) ∧
      (∀ c o, OpenAt r rx.frame c o → (c.ins.any fun i => decide (i.rank = rx.frame.src) && i.arrived) = false →
        (r.nakOf c o x = 0 → (c.sub ≠ 5 ∨ o.ten 3 = none) → Ends (.openReceive rx) s fun u =>
          (∃ n, c.lent ≤ n ∧ u.ctxOf c.occ = some { arrive c x true with lent := n }) ∧
          Queued r u rx.frame.src c.vc 2 fun y => y = .none) ∧
        (r.nakOf c o x ≠ 0 → Ends (.openReceive rx) s fun u =>
          EndsWith u o stPeerProtocol))) ∧
    (∀ c o, OpenAt r rx.frame c o →
      (rx.frame.typ = 2 → Ends (.acceptReceive rx) s fun u => ∃ c', u.ctxOf c.occ = some c' ∧
        ∀ st ∈ c'.outs, st.rank = rx.frame.src → st.accepted = true ∧ st.held = []) ∧
      (rx.frame.typ = 4 → Ends (.retryReceive rx) s fun u => ∃ c', u.ctxOf c.occ = some c' ∧
        ∀ st ∈ c'.outs, st.rank = rx.frame.src → st.retry = true) ∧
      (∀ code, rx.frame.typ = 3 → rx.frame.pay = .nak code → snapFrameId rx.frame = false →
        Ends (.nakReceived rx) s fun u => EndsWith u o (if code = 4 then stPeerAbort else stPeerProtocol))) ∧
    (∀ code, rx.frame.typ = 3 → rx.frame.pay = .nak code → snapFrameId rx.frame = false →
      (r.ctxAt rx.frame.vc rx.frame.coll rx.frame.bucket = none → r.err.fifo.length < 63 → Ends (.nakReceived rx) s fun u =>
        CountsOne r u State.collP COLL.NAK_CNT_count ∧ Logged u 0xA8 State.collP ∧ u.coll = r.coll ∧ u.mem = r.mem) ∧
      Ends (.nakReceived rx) s fun u => CountsOne r u State.collP COLL.NAK_CNT_count ∧
        (r.fget State.collP COLL.PAGE_ERR_code = 0 → u.fget State.collP COLL.PAGE_ERR_code = 0xA8))

open Sys2Proof Sys2Proof.Machine Sys2Proof.Machine.State Sys2Proof.Claims in
/-- DATA, CLOSE and ABORT frames. (R136, R251, R252, R253, R261, R264, R266, R314.) -/
def Obligations.DataCloseAndAbortReceived : Prop :=
  ∀ (s r : State) (rx : Rx) (p : Nat), Delivered s rx r p →
    (∀ c o, OpenAt r rx.frame c o →
      (∀ bytes pz, rx.frame.typ = 0 → rx.frame.pay = .data bytes pz →
        (c.seen.contains (rx.frame.src, rx.frame.typ, rx.frame.offset) = true → Ends (.dataReceive rx) s fun u =>
          u.mem = r.mem ∧ u.coll = r.coll ∧ u.seq = r.seq ∧
          CountsOne r u (State.linkP rx.link) LINK.DUP_CNT_count) ∧
        (∀ dst, c.seen.contains (rx.frame.src, rx.frame.typ, rx.frame.offset) = false → c.sub = 7 →
          (c.ins.all fun i => decide (i.rank = rx.frame.hopSrc → i.accepted = true)) = true →
          c.ranks.contains rx.frame.src = true → r.dataFits c o rx.frame bytes.length = true → o.ten 1 = some dst → r.tensOpen o = true → Ends (.dataReceive rx) s fun u =>
            u.mem = { stored r (landBytes dst rx.frame.offset ⟨bytes, pz⟩) with flight := u.mem.flight } ∧
            ∃ c', u.ctxOf c.occ = some c' ∧ c'.landed = c.landed + bytes.length ∧
              c'.seen = c.seen ++ [(rx.frame.src, rx.frame.typ, rx.frame.offset)]) ∧
        (c.seen.contains (rx.frame.src, rx.frame.typ, rx.frame.offset) = false →
          (c.ins.all fun i => decide (i.rank = rx.frame.hopSrc → i.accepted = true)) = true →
          c.ranks.contains rx.frame.src = true → r.dataFits c o rx.frame bytes.length = true → r.tensOpen o = false → Ends (.dataReceive rx) s fun u =>
            u.mem = r.mem ∧ u.ctxOf c.occ = some { c with
              inbox := c.inbox ++ [rx.frame],
              seen := c.seen ++ [(rx.frame.src, rx.frame.typ, rx.frame.offset)] })) ∧
      (rx.frame.typ = 6 → c.seen.contains (rx.frame.src, rx.frame.typ, rx.frame.offset) = false →
        (∀ sats nans, rx.frame.pay = .closeFwd sats nans → Ends (.closeReceive rx) s fun u =>
          ∃ c', u.ctxOf c.occ = some c' ∧ c'.closeIn = true ∧ c'.sats = sats ++ c.sats ∧ c'.nans = nans ++ c.nans) ∧
        (∀ x, rx.frame.pay = .closeBack x → Ends (.closeReceive rx) s fun u =>
          ∃ c', u.ctxOf c.occ = some c' ∧ c'.rep = some x)) ∧
      (rx.frame.typ = 5 → Ends (.abortReceive rx) s fun u =>
        EndsWith u o stPeerAbort)) ∧
    (rx.frame.typ = 5 → r.ctxAt rx.frame.vc rx.frame.coll rx.frame.bucket = none → Ends (.abortReceive rx) s fun u =>
      ∀ y ∈ u.coll.pend, ¬(y.vc = rx.frame.vc ∧ y.seq = rx.frame.coll ∧ y.bucket = rx.frame.bucket ∧ y.src = rx.frame.src))

open Sys2Proof Sys2Proof.Machine Sys2Proof.Machine.State Sys2Proof.Claims in
/-- SIGNAL, its acknowledgement, ranger frames and link control. (R155, R315, R318, R319, R320, R322.) -/
def Obligations.SignalAndLinkControlReceived : Prop :=
  ∀ (s r : State) (rx : Rx) (p : Nat), Delivered s rx r p →
    (∀ id tile sem set value, rx.frame.typ = 7 → rx.frame.pay = .signal id tile sem set value →
      (r.coll.signals.contains (rx.frame.src, id) = false → tile < Member.tiles r.member →
        Ends (.signalReceive rx) s fun u =>
          u.sem tile (sem % 4096) = (if set then value else r.sem tile (sem % 4096) + value) % 2 ^ 32 ∧ u.mem = r.mem ∧
          Queued r u rx.frame.src 1 8 fun y => y = .signalAck id true) ∧
      (r.coll.signals.contains (rx.frame.src, id) = false → Member.tiles r.member ≤ tile →
        Ends (.signalReceive rx) s fun u => u.seq = r.seq ∧ u.mem = r.mem ∧
          Queued r u rx.frame.src 1 8 fun y => y = .signalAck id false) ∧
      (r.coll.signals.contains (rx.frame.src, id) = true → Ends (.signalReceive rx) s fun u =>
        u.seq = r.seq ∧ u.mem = r.mem ∧ SameWaiting r u ∧ CountsOne r u (State.linkP rx.link) LINK.DUP_CNT_count)) ∧
    (∀ id ok o, rx.frame.typ = 8 → rx.frame.pay = .signalAck id ok → r.occ id = some o → o.opcode = 0x29 →
      o.place = .waiting → o.f 192 16 = rx.frame.src → o.tile < 8 → o.queue < 8 →
      (r.mayEnd o = true → Ends (.signalAckReceive rx) s fun u =>
        Completed r u (if ok then o else { o with code := stPeerProtocol })) ∧
      (r.mayEnd o = false → Ends (.signalAckReceive rx) s fun u =>
        u.occ id = some { o with code := (if ok then o.code else stPeerProtocol), place := .done } ∧ u.mem = r.mem)) ∧
    (∀ bytes, rx.frame.typ = 10 → rx.frame.pay = .mgmt bytes → Ends (.mgmtFrameReceive rx) s fun u =>
      u = (r.emit (.toRanger rx.frame.src bytes)).topUp p rx.frame.vc) ∧
    (rx.frame.typ = 18 → Ends (.creditReceive rx) s fun u =>
      u.portOf p = { r.portOf p with credit := bump (r.portOf p).credit rx.frame.vc (· + rx.frame.offset % 2 ^ 16) } ∧
        u.mem = r.mem) ∧
    (rx.frame.typ = 16 → rx.frame.ackValid = true → Ends (.ackReceive rx) s fun u =>
      ∀ x ∈ (u.portOf p).replay, seqLe x.frame.seq rx.frame.ack = false) ∧
    (rx.frame.typ = 17 → Ends (.replayReqReceive rx) s fun u =>
      ∀ x ∈ (u.portOf p).replay, seqLe rx.frame.seq x.frame.seq = true → x.again = true)

open Sys2Proof Sys2Proof.Machine Sys2Proof.Machine.State Sys2Proof.Claims in
/-- Frames start, acknowledgements go out, and ports recover. (R230, R232, R311, R312, R316, R317, R318, R319, R320, R322.) -/
def Obligations.PortsTransmitAndRecover : Prop :=
  ∀ (s : State) (port : Nat),
    (s.startChans port ≠ [] → (s.portOf port).down = false → (s.portEntry port).isSome = true → s.net.stage ≠ 4 →
      s.domainOn .link 0 = true →
      (∀ f rest, (s.portOf port).ctrl = f :: rest → Ends (.frameTransmit port) s fun u =>
        (u.portOf port).ctrl = rest ∧ (u.portOf port).waiting = (s.portOf port).waiting ∧
          (u.portOf port).txSeq = (s.portOf port).txSeq) ∧
      (∀ x, (s.portOf port).ctrl = [] →
        (s.portOf port).replay.find? (fun x => x.again && (s.vcFlows x.frame.vc || decide (s.net.stage = 2))) = some x →
        (s.fanChan x.frame).all (fun c => s.mayStart c.1) = true → Ends (.frameTransmit port) s fun u =>
        (∃ slots h f crc, u.out = [.frame port slots h f crc] ∧ f.replay = true ∧ f.seq = x.frame.seq ∧ f.pay = x.frame.pay ∧
          f.dst = x.frame.dst ∧ f.offset = x.frame.offset) ∧
        (u.portOf port).replay = (s.portOf port).replay.map (fun y =>
          if y.frame.seq = x.frame.seq then { y with again := false } else y) ∧
        (u.portOf port).txSeq = (s.portOf port).txSeq ∧ (u.portOf port).credit = (s.portOf port).credit ∧
        (u.portOf port).waiting = (s.portOf port).waiting ∧
        CountsOne s u (State.linkP (s.firstLink port)) LINK.REPLAY_TX_CNT_count) ∧
      (∀ f vc turn left, (s.portOf port).ctrl = [] → (s.portOf port).replay.all (fun x => !x.again) = true →
        s.nextVc port = some (vc, turn, left) →
        (s.portOf port).waiting.find? (fun f => decide (f.vc = vc)) = some f →
        (s.fanChan f = none → Ends (.frameTransmit port) s fun u =>
          (u.portOf port).waiting = (s.portOf port).waiting.erase f ∧
          (u.portOf port).txSeq = ((s.portOf port).txSeq + 1) % 2 ^ 24 ∧
          (u.portOf port).credit = bump (s.portOf port).credit vc (· - 1) ∧
          (u.portOf port).replay = (s.portOf port).replay ++
            [⟨{ f with fanout := false, seq := (s.portOf port).txSeq }, false⟩]) ∧
        ((s.fanChan f).isSome = true → Ends (.frameTransmit port) s fun u =>
          ∃ x ∈ (u.portOf port).replay, x.frame = { f with seq := (s.portOf port).txSeq } ∧ x.again = false))) ∧
    (∀ link chan ce uc, link < 40 → Member.link s.member link = true → s.fenced = false →
      s.domainOn .link link = true → s.fget (State.linkP link) LINK.INCOMPLETE_CNT_count + 1 < 2 ^ LINK.INCOMPLETE_CNT_count.w →
      Ends (.frameIncompleteTimeout link chan ce uc) s fun u =>
        u.fget (State.linkP link) LINK.INCOMPLETE_CNT_count = s.fget (State.linkP link) LINK.INCOMPLETE_CNT_count + 1) ∧
    ((s.portOf port).ackDue = true → s.domainOn .link 0 = true → Ends (.ackTimer port) s fun u => (u.portOf port).ackDue = false ∧
      ∃ f, (u.portOf port).ctrl = (s.portOf port).ctrl ++ [f] ∧ f.typ = 16) ∧
    (∀ x rest, (s.portOf port).replay = x :: rest → s.domainOn .link 0 = true → Ends (.replayTimeout port) s fun u =>
      ∀ y ∈ (u.portOf port).replay, seqLe x.frame.seq y.frame.seq = true → y.again = true) ∧
    ((s.portOf port).down = true → s.domainOn .link 0 = true → Ends (.portDownEnd port) s fun u =>
      u.portOf port = { s.portOf port with down := false }) ∧
    (∀ dest vc q, vc < 8 → s.routeOf dest vc = some port → s.portCanCarry port = false →
      (∃ w, s.nextWhich dest vc = some w ∧ (s.routeList dest vc)[w]? = some q) →
      s.domainOn .route 0 = true → 1 < (s.routePorts dest vc).length → ((s.routePorts dest vc).any fun p => s.portCanCarry p) = true →
      Ends (.portFailover dest vc) s fun u => u.routeOf dest vc = some q ∧ u.routePorts dest vc = s.routePorts dest vc ∧
        (q ≠ port → ∀ f ∈ (u.portOf port).waiting, ¬(f.dst = dest ∧ f.vc = vc))) ∧
    (∀ dest vc, vc < 8 → (s.routePorts dest vc).head? = some port →
      s.routeWhich dest vc ≠ (s.routeList dest vc).findIdx (fun p => decide (p ≠ 0xFF)) →
      s.domainOn .route 0 = true → s.portCanCarry port = true → Ends (.portFailback dest vc) s fun u => u.routeOf dest vc = some port)

open Sys2Proof Sys2Proof.Machine Sys2Proof.Machine.State Sys2Proof.Claims in
/-- Training records are sent, received and checked. (R303, R304, R305.) -/
def Obligations.TrainingCommands : Prop :=
  ∀ (s : State) (link chan : Nat),
    (s.linkOn link = true → s.net.plan.isSome = true → s.txEn link chan = true → s.txLocked link chan = true →
      (s.txCarry link chan = false ∨ (s.rxEn link chan = true ∧ s.rxCarry link chan = false)) →
      Ends (.trainSend link chan) s fun u => u.mem = s.mem ∧ u.net = s.net ∧ u.rf = s.rf ∧
        ∃ slots h f crc, u.out = [.training link chan slots h f crc] ∧ f.typ = 19 ∧ f.src = s.rank ∧
          f.pay = .train (s.trainRec link chan s.epoch) ∧ ∀ x ∈ slots, x.link = link ∧ x.chan = chan) ∧
    (∀ x : TrainRec, link < 40 → chan < 16 → s.fenced = false → s.rxOpen link chan = true →
      (link < 24 →
        ¬(x.rank / 64 = s.rank / 64 ∧ x.rank % 64 = (s.rank + 64 - s.chGet link chan PECH.CH_CTRL_rx_line) % 64) →
        Ends (.trainReceive link chan x) s fun u => (u.chOf link chan).bad = 6 ∧
          CountsOne s u (State.linkP link) LINK.COORD_ERR_CNT_count ∧
          u.flag (State.linkP link) LINK.PAGE_EVT_coord_mismatch = true) ∧
      (link < 24 → x.rank / 64 = s.rank / 64 →
        x.rank % 64 = (s.rank + 64 - s.chGet link chan PECH.CH_CTRL_rx_line) % 64 → x.epoch ≠ s.epoch →
        Ends (.trainReceive link chan x) s fun u => (u.chOf link chan).bad = 5 ∧
          u.flag (State.linkP link) LINK.PAGE_EVT_epoch_mismatch = true) ∧
      (link < 24 → x.rank / 64 = s.rank / 64 →
        x.rank % 64 = (s.rank + 64 - s.chGet link chan PECH.CH_CTRL_rx_line) % 64 → x.epoch = s.epoch →
        Ends (.trainReceive link chan x) s fun u => (u.chOf link chan).bad = 0 ∧ (u.chOf link chan).train = some x) ∧
      (24 ≤ link → x.rank / 64 = s.rank / 64 → Ends (.trainReceive link chan x) s fun u =>
        (u.chOf link chan).bad = 7 ∧ u.flag (State.linkP link) LINK.PAGE_EVT_peer_err = true) ∧
      (24 ≤ link → x.rank / 64 ≠ s.rank / 64 → Ends (.trainReceive link chan x) s fun u =>
        (u.chOf link chan).bad = (if x.epoch = s.epoch then 0 else 5) ∧ (u.chOf link chan).train = some x ∧
        u.fget (State.linkP link) LINK.LINK_PEER_rank = x.rank % 2 ^ 16)) ∧
    (∀ locked, Member.link s.member link = true → chan < 16 → s.domainOn .link link = true → Ends (.fecDecoderLock link chan locked) s fun u =>
      u.chOf link chan = { s.chOf link chan with fec := locked } ∧ u.mem = s.mem)

namespace Sys2Proof.Claims
open Sys2Proof Sys2Proof.Machine Sys2Proof.Machine.State

/-- Memory, sequencers, engines and collectives are as before. -/
abbrev OnlyLight (s t : State) : Prop := t.mem = s.mem ∧ t.seq = s.seq ∧ t.te = s.te ∧ t.coll = s.coll
/-- The bit of LINE_FAIL that a line has. -/
def lineFd (line : Nat) : Fd :=
  ⟨if line < 32 then PE.LINE_FAIL_LO_lines.off else PE.LINE_FAIL_HI_lines.off, line % 32, 1⟩

end Sys2Proof.Claims

open Sys2Proof Sys2Proof.Machine Sys2Proof.Machine.State Sys2Proof.Claims in
/-- Rings: acquiring, verifying, locking, losing light and lock. (R274, R275, R276, R278, R281, R284, R296.) -/
def Obligations.RingsMoveBetweenTheirStates : Prop :=
  ∀ (s : State) (l k : Nat) (r : Ring), Member.link s.member l = true → k < 16 →
    (s.ring l k r = locked → Ends (.lockLost l k r) s fun u =>
      u.ring l k r = (if r = .mod ∧ s.ring l k .sel ≠ locked then hold else acquire) ∧
      u.flag (State.peP (l / 8)) PE.PAGE_EVT_lock_lost = true ∧ u.flag (State.pechP l) PECH.PAGE_EVT_lock_lost = true ∧
      OnlyLight s u) ∧
    (s.ring l k r = acquire → s.awaitsLight l k r = true →
      (Ends (.ringAcquireDone l k r) s fun u => u = s.start) ∧ (Ends (.ringAcquireFail l k r) s fun u => u = s.start)) ∧
    (s.ring l k r = acquire → s.awaitsLight l k r = false →
      (r ≠ .mod → Ends (.ringAcquireDone l k r) s fun u => u.ring l k r = verify ∧ OnlyLight s u) ∧
      (r = .mod → s.ring l k .sel = locked → Ends (.ringAcquireDone l k r) s fun u =>
        u.ring l k r = locked ∧ OnlyLight s u) ∧
      (sparseGet (fun _ => 0) s.optics.fails (64 * l + 4 * k + ringNum r) = 0 → Ends (.ringAcquireFail l k r) s fun u =>
        u.ring l k r = acquire ∧ sparseGet (fun _ => 0) u.optics.fails (64 * l + 4 * k + ringNum r) = 1 ∧ u.rf = s.rf) ∧
      (sparseGet (fun _ => 0) s.optics.fails (64 * l + 4 * k + ringNum r) ≠ 0 → Ends (.ringAcquireFail l k r) s fun u =>
        u.ring l k r = scanning ∧ OnlyLight s u)) ∧
    (s.ring l k r = scanning → (r = .mod → s.ring l k .sel = locked) → Ends (.ringScanDone l k r) s fun u =>
      u.ring l k r = acquire ∧ OnlyLight s u) ∧
    (s.ring l k .mod = scanning → s.ring l k .sel ≠ locked → Ends (.ringScanDone l k .mod) s fun u => u = s.start) ∧
    (∀ line, line < 64 → s.ring l k r = verify →
      (line = s.sideLine l k (ringRx r) → Ends (.ringVerifyDone l k r line) s fun u =>
        u.ring l k r = locked ∧
        (r = .sel → s.ring l k .mod = dark ∨ s.ring l k .mod = hold → u.ring l k .mod = acquire) ∧ OnlyLight s u) ∧
      (line ≠ s.sideLine l k (ringRx r) → Ends (.ringVerifyDone l k r line) s fun u =>
        u.ring l k r = acquire ∧ u.flag (State.peP (l / 8)) PE.PAGE_EVT_wrong_line = true ∧
        u.flag (State.pechP l) PECH.PAGE_EVT_wrong_line = true ∧ OnlyLight s u)) ∧
    (∀ line, line < 64 → r ≠ .mod →
      (s.ring l k r = locked → line ≠ s.sideLine l k (ringRx r) → Ends (.pilotWindow l k r line) s fun u =>
        u.ring l k r = acquire ∧ u.chGet l k (if ringRx r then PECH.CH_STAT_rx_id else PECH.CH_STAT_tx_id) = line ∧
        u.flag (State.pechP l) PECH.PAGE_EVT_wrong_line = true) ∧
      (line = s.sideLine l k (ringRx r) → Ends (.pilotWindow l k r line) s fun u =>
        u.ring l k r = s.ring l k r ∧
        u.optics.unproved.contains (ringKey l k r) = false ∧
        u.chGet l k (if ringRx r then PECH.CH_STAT_rx_id else PECH.CH_STAT_tx_id) = line)) ∧
    (s.ring l k r ≠ dark →
      (r = .drop → Ends (.ringLightLost l k r) s fun u =>
        u.ring l k r = (if s.ring l k r = hold then hold else acquire) ∧
        u.chGet l k PECH.CH_STAT_rx_nolight = 1 ∧ OnlyLight s u) ∧
      (r ≠ .drop → Ends (.ringLightLost l k r) s fun u => u.ring l k r = hold ∧ OnlyLight s u)) ∧
    (s.ring l k r = hold → s.lightBack l = true → (r = .mod → s.ring l k .sel = locked) →
      Ends (.ringLightRestored l k r) s fun u => u.ring l k r = acquire ∧ OnlyLight s u) ∧
    (s.ring l k r ≠ hold ∨ s.lightBack l = false → Ends (.ringLightRestored l k r) s fun u =>
      u.ring l k r = s.ring l k r ∧ (r = .drop → u.chGet l k PECH.CH_STAT_rx_nolight = 0) ∧ OnlyLight s u)

open Sys2Proof Sys2Proof.Machine Sys2Proof.Machine.State Sys2Proof.Claims in
/-- Comb failover, failed lines, retired sides and thermal holds. (R272, R273, R278, R284, R297.) -/
def Obligations.CombsLinesAndRetiring : Prop :=
  ∀ (s : State) (p : Nat), Member.pe s.member p = true →
    (s.flag (State.peP p) PE.PAGE_STAT_lit = true →
      (s.combOk p (1 - s.combSel p) = true → s.flag (State.peP p) PE.COMB_CTRL_auto = true →
        Ends (.combFailover p) s fun u => u.combSel p = 1 - s.combSel p ∧ u.combOk p (s.combSel p) = false ∧
          u.flag (State.peP p) PE.PAGE_EVT_comb_failover = true ∧
          (∀ l ∈ State.linksOf p, ∀ k, k < 16 → ∀ r, s.ring l k r ≠ dark → u.ring l k r = hold ∧
            (r ≠ .mod → u.optics.failing.contains (ringKey l k r) = true)) ∧ OnlyLight s u) ∧
      (s.combOk p (1 - s.combSel p) = true → s.flag (State.peP p) PE.COMB_CTRL_auto = false →
        Ends (.combFailover p) s fun u => u = s.start) ∧
      (s.combOk p (1 - s.combSel p) = false → Ends (.combFailover p) s fun u =>
        u.flag (State.peP p) PE.PAGE_STAT_lit = false ∧ u.flag (State.peP p) PE.PAGE_EVT_comb_lost = true ∧
        (∀ l ∈ State.linksOf p, ∀ k, k < 16 → ∀ rx, u.sideRetired l k rx = true) ∧
        OnlyLight s u)) ∧
    (∀ line, line < 64 → s.flag (State.peP p) (lineFd line) = false → Ends (.lineFailed p line) s fun u =>
      u.flag (State.peP p) (lineFd line) = true ∧ u.flag (State.peP p) PE.PAGE_EVT_line_fail = true ∧
      (∀ l ∈ State.linksOf p, ∀ k, k < 16 → ∀ rx, s.sideEn l k rx = true → s.targetLine l k rx = line →
        u.sideRetired l k rx = true) ∧ OnlyLight s u) ∧
    (∀ l k rx, l / 8 = p → Member.link s.member l = true → k < 16 → s.sideServes l k rx = true →
      s.sideRetired l k rx = false →
      (rx = true → s.rxLocked l k = false ∧ s.ring l k .drop ≠ hold ∧ s.chGet l k PECH.CH_STAT_rx_nolight = 0) →
      (rx = false → s.txLocked l k = false ∧ s.ring l k .sel ≠ hold ∧ (s.ring l k .mod = hold → s.ring l k .sel ≠ locked)) →
      s.shut l = false → Ends (.chRetired l k rx) s fun u => u.sideRetired l k rx = true ∧
        u.ring l k (if rx then .drop else .sel) = dark ∧
        u.chGet l k (if rx then PECH.CH_STAT_rx_cause else PECH.CH_STAT_tx_cause) = 1 ∧
        u.flag (State.pechP l) PECH.PAGE_EVT_retired = true ∧ OnlyLight s u) ∧
    (s.failingOver p = false → Ends (.thermalHoldEnd p) s fun u =>
      u.flag (State.peP p) PE.PAGE_STAT_hold = false ∧ u.optics = s.optics ∧ OnlyLight s u) ∧
    (s.failingOver p = true → Ends (.thermalHoldEnd p) s fun u => u = s.start)

open Sys2Proof Sys2Proof.Machine Sys2Proof.Machine.State Sys2Proof.Claims in
/-- Mesh commits, calibration and trim. (R285, R286, R287, R288.) -/
def Obligations.MeshCommands : Prop :=
  ∀ (s : State) (port : Port) (p : Nat), Member.pe s.member p = true →
    (Open s port .pe p → s.flag (State.peP p) PE.MESH_CTRL_busy = false →
      ((s.commitLinks p (s.reg (State.peP p) PE.MESH_MAP_src.off).toNat (s.flag (State.peP p) PE.MESH_CTRL_raw)).all
          (fun l => !s.flag (State.pechP l) PECH.PAGE_CTRL_enable) = true →
        (s.flag (State.peP p) PE.MESH_CTRL_raw = true ∨ mapOk (s.reg (State.peP p) PE.MESH_MAP_src.off).toNat = true) →
        Ends (.meshCommit port p) s fun u => u.flag (State.peP p) PE.MESH_CTRL_busy = true ∧
          (p, if s.flag (State.peP p) PE.MESH_CTRL_raw then none
            else some (s.reg (State.peP p) PE.MESH_MAP_src.off).toNat) ∈ u.optics.newMaps ∧
          u.optics.codes = s.optics.codes ∧ OnlyLight s u) ∧
      ((s.commitLinks p (s.reg (State.peP p) PE.MESH_MAP_src.off).toNat (s.flag (State.peP p) PE.MESH_CTRL_raw)).any
          (fun l => s.flag (State.pechP l) PECH.PAGE_CTRL_enable) = true →
        Ends (.meshCommit port p) s fun u => u.flag (State.peP p) PE.PAGE_EVT_ctrl_err = true ∧ u.optics = s.optics ∧
          u.flag (State.peP p) PE.MESH_CTRL_busy = false) ∧
      (s.flag (State.peP p) PE.MESH_CTRL_raw = false → mapOk (s.reg (State.peP p) PE.MESH_MAP_src.off).toNat = false →
        Ends (.meshCommit port p) s fun u => u.flag (State.peP p) PE.PAGE_EVT_ctrl_err = true ∧ u.optics = s.optics) ∧
      ((State.linksOf p).all (fun l => !s.flag (State.pechP l) PECH.PAGE_CTRL_enable &&
          !s.flag (State.pechP l) PECH.LINK_OPT_CTRL_test) = true → Ends (.meshCal port p) s fun u =>
        u.flag (State.peP p) PE.MESH_CTRL_busy = true ∧ u.flag (State.peP p) PE.PAGE_STAT_cal_busy = true ∧
        OnlyLight s u)) ∧
    (∀ m, (s.optics.newMaps.filter fun x => decide (x.1 = p)) = [(p, m)] → Ends (.meshCommitDone p) s fun u =>
      u.meshMap p = m ∧ u.flag (State.peP p) PE.MESH_CTRL_busy = false ∧
      (∀ x ∈ u.optics.newMaps, x.1 ≠ p) ∧ OnlyLight s u) ∧
    (∀ ok, s.flag (State.peP p) PE.PAGE_STAT_cal_busy = true → Ends (.meshCalDone p ok) s fun u =>
      u.flag (State.peP p) PE.MESH_CTRL_busy = false ∧ u.flag (State.peP p) PE.PAGE_STAT_cal_busy = false ∧
      u.flag (State.peP p) PE.MESH_CTRL_cal_err = !ok ∧
      (ok = true → u.flag (State.peP p) PE.PAGE_EVT_cal_done = true ∧
        sparseGet (fun _ => 0) u.optics.cals p = sparseGet (fun _ => 0) s.optics.cals p + 1) ∧ OnlyLight s u) ∧
    (∀ cell θ, cell < 28 → 0x4000 ≤ s.meshCode p cell % 65536 → s.meshCode p cell % 65536 < 0xC000 → 0x4000 ≤ θ → θ < 0xC000 →
      Ends (.meshTrim p [(cell, θ)]) s fun u =>
        u.meshCode p cell = s.meshCode p cell / 65536 * 65536 + θ ∧
        (∀ i, i ≠ cell → i < 64 → u.meshCode p i = s.meshCode p i) ∧ u.rf = s.rf ∧ OnlyLight s u)

open Sys2Proof Sys2Proof.Machine Sys2Proof.Machine.State Sys2Proof.Claims in
/-- Loss localisation, the plug, loss of signal and probing. (R290, R292, R293, R294, R444.) -/
def Obligations.MonitorsPlugsAndProbes : Prop :=
  ∀ (s : State) (l : Nat), Member.link s.member l = true →
    (∀ k stage level many, k < 16 → (stage ≤ 8 ∨ stage = 15) → s.monitored l k = true →
      Ends (.monitorLow l k stage level many) s fun u =>
      u.chGet l k PECH.CH_STAT_loss_at = stage ∧
      (s.chGet l k PECH.CH_STAT_loss_at ≠ stage → u.flag (State.peP (l / 8)) PE.PAGE_EVT_loss = true) ∧ OnlyLight s u) ∧
    (∀ mated, Ends (.plugSensorChange (l / 8) mated) s fun u =>
      u.flag (State.peP (l / 8)) PE.SHUTTER_plug = mated ∧
      (mated = true ∨ s.fget 0 MODULE.SVC_STAT_park_state ≠ 3 → u.flag 0 MODULE.SVC_EVT_plug_change = true) ∧
      (mated = true → s.optics.seen.contains l = true → u.flag (State.pechP l) PECH.PAGE_STAT_mated = true) ∧
      (mated = false → u.flag (State.pechP l) PECH.PAGE_STAT_probing = true ∧
        u.flag (State.pechP l) PECH.PAGE_STAT_mated = false) ∧ OnlyLight s u) ∧
    (Ends (.lossOfSignal l) s fun u => u.flag (State.pechP l) PECH.PAGE_STAT_los = true ∧
      u.flag (State.pechP l) PECH.PAGE_STAT_probing = true ∧ u.flag (State.pechP l) PECH.PAGE_EVT_los = true ∧
      OnlyLight s u) ∧
    (s.flag (State.pechP l) PECH.PAGE_STAT_probing = true →
      (s.mayProbe l = true → Ends (.probePulse l) s fun u => u = s.start.emit (.probe l false)) ∧
      (∀ own, (own = true → l < 24 ∧ s.mayProbe l = true) → s.flag (State.peP (l / 8)) PE.SHUTTER_plug = false →
        Ends (.probeLightDetect l own) s fun u => u.optics.seen.contains l = true ∧ u.rf = s.rf ∧ OnlyLight s u) ∧
      (∀ own, (own = true → l < 24 ∧ s.mayProbe l = true) → s.flag (State.peP (l / 8)) PE.SHUTTER_plug = true →
        Ends (.probeLightDetect l own) s fun u => u.flag (State.pechP l) PECH.PAGE_STAT_probing = false ∧
          u.flag (State.pechP l) PECH.PAGE_STAT_mated = true ∧ u.flag (State.pechP l) PECH.PAGE_STAT_los = false ∧
          u.flag (State.pechP l) PECH.PAGE_EVT_mated = true ∧
          (own = false → 24 ≤ l → s.mayProbe l = true → u.optics.answering.contains l = true) ∧ OnlyLight s u)) ∧
    (Ends (.probeResponseEnd l) s fun u => u.optics.answering.contains l = false ∧ u.rf = s.rf ∧ OnlyLight s u)

open Sys2Proof Sys2Proof.Machine Sys2Proof.Machine.State Sys2Proof.Claims in
/-- Loading a plan, draining, putting it in force. (R308, R309, R310.) -/
def Obligations.PlanLoadCommands : Prop :=
  ∀ (s : State) (port : Port),
    (Open s port .plan 0 → s.collQuiesced = true → s.snapTransfer = false → s.flag State.planP PLAN.PAGE_STAT_loading = false →
      s.fget 0 MODULE.FIREBREAK_state = 0 →
      ((s.planCheck (s.pair State.planP PLAN.PLAN_BASE_LO_addr)).1 = 0 → Ends (.planLoad port) s fun u =>
        u.net.stage = 2 ∧ u.flag State.planP PLAN.PAGE_STAT_loading = true ∧ u.net.plan = s.net.plan ∧
        u.net.next = some ((s.readPlan (s.pair State.planP PLAN.PLAN_BASE_LO_addr)).epoch,
          (s.readPlan (s.pair State.planP PLAN.PLAN_BASE_LO_addr)).tab)) ∧
      ((s.planCheck (s.pair State.planP PLAN.PLAN_BASE_LO_addr)).1 ≠ 0 → Ends (.planLoad port) s fun u =>
        u.net.plan = s.net.plan ∧ u.net.stage = 0 ∧ u.flag State.planP PLAN.PAGE_EVT_load_fail = true ∧
        u.fget State.planP PLAN.PLAN_STAT_err = (s.planCheck (s.pair State.planP PLAN.PLAN_BASE_LO_addr)).1 % 2 ^ 4)) ∧
    (Open s port .plan 0 → s.collQuiesced = false → Ends (.planLoad port) s fun u =>
      u.net = s.net ∧ u.flag State.planP PLAN.PAGE_EVT_ctrl_err = true) ∧
    (∀ epoch tab, s.net.stage = 2 → s.net.next = some (epoch, tab) →
      (s.net.ports.all fun p => p.2.replay.isEmpty) = true → Ends .planDrainDone s fun u =>
        u.net.stage = 4 ∧ u.net.plan = some tab ∧ u.epoch = epoch % 2 ^ 32 ∧
        u.flag State.planP PLAN.PAGE_STAT_ready = false ∧ u.mem = s.mem ∧ u.seq = s.seq) ∧
    (s.net.stage = 2 → (s.net.ports.any fun p => !p.2.replay.isEmpty) = true → Ends .planDrainTimeout s fun u =>
      u.net.plan = s.net.plan ∧ u.net.stage = 0 ∧ u.fget State.planP PLAN.PLAN_STAT_err = 13 ∧
      u.flag State.planP PLAN.PAGE_EVT_load_fail = true) ∧
    (s.net.stage = 4 → Ends .planReady s fun u => u.net.stage = 0 ∧ u.net.plan = s.net.plan ∧
      u.flag State.planP PLAN.PAGE_STAT_ready = true ∧ u.flag State.planP PLAN.PAGE_STAT_loading = false ∧
      u.flag State.planP PLAN.PAGE_EVT_load_done = true ∧
      u.fget State.planP PLAN.LOAD_CNT_count = (s.fget State.planP PLAN.LOAD_CNT_count + 1) % 2 ^ 32) ∧
    (s.net.stage = 0 → Ends .heartbeatGraceEnd s fun u => u.net = { s.net with grace := false } ∧ u.rf = s.rf)

namespace Sys2Proof.Claims
open Sys2Proof Sys2Proof.Machine Sys2Proof.Machine.State

/-- The occurrence `id` has ended with this code. -/
abbrev EndedWith (t : State) (id code : Nat) : Prop := ∃ o', t.occ id = some o' ∧ o'.place = .done ∧ o'.code = code
/-- Bit `i` of the causes that hold dispatch. -/
def holds (t : State) (i : Nat) : Bool := natBits t.snap.hold i 1 == 1

/-- The clearing `c` has entered phase 6: its L1 copy goes to the rank `q`, whose port has its frames waiting, and its L2 copy
runs where it is asked for. -/
def CopiesBegin (r u : State) (c : Clearing) (q : Nat) : Prop :=
  (∃ c', u.snap.clr = some c' ∧ c'.number = c.number ∧ c'.phase = 6 ∧ c'.l1 = 1 ∧
    c'.l2 = if hasLevel c.levels 2 then 1 else 0) ∧
  ∀ port, r.routeOf q 7 = some port → ∃ f ∈ (u.portOf port).waiting, ofStream c.number f = true ∧ f.dst = q

end Sys2Proof.Claims

open Sys2Proof Sys2Proof.Machine Sys2Proof.Machine.State Sys2Proof.Claims in
/-- A clearing from its start to its copies. (R326, R328, R329, R330, R331, R332, R333, R334.) -/
def Obligations.ClearingPhases : Prop :=
  (∀ (s : State) (o : Occ), s.clrNext = some o →
      (s.spaceOk (o.aux.getD 1 0) = false → Ends .clearing s fun u => EndedWith u o.id stClrSpace ∧
        ∀ x, u.mem.readByte x = s.mem.readByte x) ∧
      (s.spaceOk (o.aux.getD 1 0) = true →
        ((s.groupRanks (o.aux.getD 2 0)).any fun r => s.snap.lost.contains r) = true → Ends .clearing s fun u =>
          EndedWith u o.id stClrPeerLost ∧ ∀ x, u.mem.readByte x = s.mem.readByte x) ∧
      (s.spaceOk (o.aux.getD 1 0) = true →
        ((s.groupRanks (o.aux.getD 2 0)).any fun r => s.snap.lost.contains r) = false → Ends .clearing s fun u =>
          (∃ c, u.snap.clr = some c ∧ c.occ = o.id ∧ c.phase = 1 ∧ c.number = o.aux.getD 0 0) ∧ holds u 0 = true ∧
          u.flag State.snapP SNAP.PAGE_STAT_hold = true ∧ u.occ o.id = some { o with place := .running } ∧
          ∀ x, u.mem.readByte x = s.mem.readByte x)) ∧
    (∀ (s : State) (c : Clearing) (o : Occ), s.domainOn .snap 0 = true → s.snap.clr = some c → s.occ c.occ = some o → c.ended = false →
      (c.phase = 1 → s.drained c = true → c.sent = false →
        (c.ranks.length = 1 → c.pos = 0 → Ends .clearingHoldDrained s fun u =>
          ∃ c', u.snap.clr = some c' ∧ c'.number = c.number ∧
            c'.phase = if s.pair State.snapP SNAP.SECURE_LO_number = s.pair State.snapP SNAP.LAST_CLR_LO_number ∨
              s.member = .xsc1 then 3 else 2) ∧
        (0 < c.pos → c.ranks.length ≤ 16 * c.pos + 1 → Ends .clearingHoldDrained s fun u =>
          ∃ c', u.snap.clr = some c' ∧ c'.phase = 2 ∧ c'.sent = true)) ∧
      (c.phase = 1 → s.drained c = false → Ends .clrHoldTimeout s fun u => EndedWith u c.occ stClrTimeout ∧
        u.snap.clr = none ∧ holds u 0 = false ∧ u.flag State.snapP SNAP.PAGE_EVT_hold_timeout = true) ∧
      (c.phase = 3 → s.capOpen c = true → 0 < c.pos → c.ranks.length ≤ 16 * c.pos + 1 → Ends .captureDone s fun u =>
        (∃ c', u.snap.clr = some c' ∧ c'.phase = 5 ∧ c'.sent = true) ∧
        u.snap.badSlots.contains (c.number % 2) = false) ∧
      (c.phase = 3 → s.capOpen c = true → c.pos = 0 → c.ranks.length = 1 → (c.mine.secure = true ∨ s.member = .xsc1) → Ends .captureDone s fun u =>
        u.flag State.snapP SNAP.PAGE_EVT_captured = true ∧ holds u 0 = false)) ∧
    (∀ (s r : State) (rx : Rx) (p : Nat) (c : Clearing) (o : Occ), Delivered s rx r p → r.snap.clr = some c →
      r.occ c.occ = some o → c.ended = false →
      (∀ phase bad x, rx.frame.pay = .barrier phase bad x → c.phase = phase → (phase = 2 ∨ phase = 5) → c.sent = false →
        c.pos = 0 → c.ranks.length = 2 → c.ranks.getD 1 0 = rx.frame.src → (bad || BarrierDiffers x c.mine) = true →
        Ends (.barrierRecordReceive rx) s fun u => EndedWith u c.occ stClrMismatch) ∧
      (∀ phase n code, rx.frame.pay = .verdict phase n code → c.phase = phase → c.sent = true → 0 < c.pos →
        c.ranks.getD (barrierParent c.pos) 0x10000 = rx.frame.src →
        (code ≠ 0 → Ends (.barrierVerdictReceive rx) s fun u => EndedWith u c.occ code) ∧
        (code = 0 → phase = 2 → Ends (.barrierVerdictReceive rx) s fun u =>
          ∃ c', u.snap.clr = some c' ∧ c'.phase = 3) ∧
        (code = 0 → phase = 5 → Ends (.barrierVerdictReceive rx) s fun u =>
          u.flag State.snapP SNAP.PAGE_EVT_captured = true ∧ holds u 0 = false ∧
          (c.poison = 0 → u.pair State.snapP SNAP.LAST_CLR_LO_number = c.number % 2 ^ 64 ∧
            (∀ q, hasLevel c.levels 1 = true → r.partner = some q → 0 < c.bytes → CopiesBegin r u c q)) ∧
          (c.poison = 0 → hasLevel c.levels 1 = false → hasLevel c.levels 2 = true →
            ∃ c', u.snap.clr = some c' ∧ c'.number = c.number ∧ c'.phase = 6 ∧ c'.l1 = c.l1 ∧ c'.l2 = 1) ∧
          (c.poison ≠ 0 → c.l1 ≠ 1 → c.l2 ≠ 1 → EndedWith u c.occ stClrPoison)))) ∧
    (∀ (s r : State) (rx : Rx) (p number : Nat) (c : Clearing) (o : Occ), Delivered s rx r p → r.fromPartner rx.frame = true →
      rx.frame.pay = .slotAck number → r.copying (fun c => decide (c.l1 = 1) && decide (c.number = number)) = some c →
      r.occ c.occ = some o → c.poison = 0 → c.secure = false → r.flag State.snapP SNAP.PAGE_STAT_same_feed = false →
      Ends (.l1AckReceive rx) s fun u => u.pair State.snapP SNAP.SECURE_LO_number = c.number % 2 ^ 64 ∧
        u.flag State.snapP SNAP.PAGE_EVT_secure = true ∧ (c.ended = false → EndedWith u c.occ c.code)) ∧
    (∀ (s : State) (c : Clearing) (o : Occ), s.copying (fun c => decide (c.l2 = 1)) = some c → s.occ c.occ = some o →
      s.domainOn .snap 0 = true → s.stripeOpen (s.l0Base c.number) c.bytes = true →
      (c.poison = 0 → c.secure = false → s.l2Place.isSome = true → Ends (.l2WriteDone true) s fun u =>
        u.pair State.snapP SNAP.SECURE_LO_number = c.number % 2 ^ 64 ∧ u.flag State.snapP SNAP.PAGE_EVT_secure = true ∧
        (u.flash.copies.any fun k => decide (k.number = c.number)) = true) ∧
      (c.ended = false → c.l1 ≠ 1 → Ends (.l2WriteDone false) s fun u => EndedWith u c.occ stClrFlash) ∧
      (c.ended = false → c.l1 ≠ 1 → s.l2Place = none → Ends (.l2WriteDone true) s fun u => EndedWith u c.occ stClrFlash))

namespace Sys2Proof.Claims
open Sys2Proof Sys2Proof.Machine Sys2Proof.Machine.State

/-- A trail record's bytes stand in the ring from HEAD on, and no byte outside their words has changed. -/
def RecordStands (s u : State) (bs : List Nat) : Prop :=
  (bs.length ≤ s.trailSize → ∀ i, i < bs.length → isMem s.member (s.ringAddr (s.trailHead + i)) = true →
    u.mem.readByte (s.ringAddr (s.trailHead + i)) = bs.getD i 0) ∧
  KeepsOutside s u ((List.range bs.length).map fun i => ⟨s.ringAddr (s.trailHead + i), 0, false⟩)

end Sys2Proof.Claims

open Sys2Proof Sys2Proof.Machine Sys2Proof.Machine.State Sys2Proof.Claims in
/-- The partner's frames, and the trail log. (R332, R333, R334, R335, R337, R338, R339, R340, R341.) -/
def Obligations.PartnerCopiesAndTheTrail : Prop :=
  (∀ (s r : State) (rx : Rx) (p : Nat), Delivered s rx r p → r.fromPartner rx.frame = true →
      (∀ number off b pz, r.snap.inbox = [] → r.snapOpen rx.frame = true → rx.frame.pay = .slotPart number off b pz → rx.frame.last = false →
        off + b.length ≤ Member.stacks r.member * r.partSize → Ends (.snapshotFrameReceive rx) s fun u =>
          u.mem = (r.storeVia (fun i => r.partAddr number (off + i)) ⟨b, pz⟩).mem) ∧
      (∀ number off b pz, rx.frame.pay = .slotPart number off b pz → r.snap.inbox = [] → r.snapOpen rx.frame = false →
        Ends (.snapshotFrameReceive rx) s fun u => u.mem = r.mem ∧ u.snap = { r.snap with inbox := [rx.frame] }) ∧
      (∀ pos b, rx.frame.pay = .trailRec pos b → r.snap.inbox = [] → r.snapOpen rx.frame = true →
        (r.hasMirror = true → Ends (.trailMirrorReceive rx) s fun u =>
          u.mem = (r.storeVia (fun i => r.mirrorAddr (pos + i)) ⟨b, []⟩).mem ∧ u.snap.mirrorTo = pos + b.length ∧
          Queued r u rx.frame.src 7 0 fun y => y = .trailAck (pos + b.length)) ∧
        (r.hasMirror = false → Ends (.trailMirrorReceive rx) s fun u => u = r.topUp p rx.frame.vc)) ∧
      (∀ number c, rx.frame.pay = .slotAck number →
        r.copying (fun c => decide (c.l1 = 1) && decide (c.number = number)) = some c → c.poison = 0 → c.secure = false →
        r.flag State.snapP SNAP.PAGE_STAT_same_feed = false → Ends (.l1AckReceive rx) s fun u =>
          u.pair State.snapP SNAP.SECURE_LO_number = number % 2 ^ 64 ∧ u.flag State.snapP SNAP.PAGE_EVT_secure = true) ∧
      (∀ pos o, rx.frame.pay = .trailAck pos → r.markRunning = some o → o.aux.getD 0 0 ≤ max r.snap.acked pos →
        Ends (.mirrorAckReceive rx) s fun u => EndedWith u o.id stOk ∧ u.snap.acked = max r.snap.acked pos)) ∧
    (∀ (s : State) (port : Port),
      (∀ o, s.markNext = some o →
        (s.trailSize = 0 → Ends .mark s fun u => EndedWith u o.id stTrailNone ∧ u.mem = s.mem) ∧
        (s.trailSize ≠ 0 → s.flag State.trailP TRAIL.PAGE_STAT_verify = false →
          s.trailKeep + s.trailSize < s.trailHead + (recordBytes (s.markRecord o)).length → Ends .mark s fun u =>
            EndedWith u o.id stTrailFull ∧ u.trailHead = s.trailHead ∧ u.flag State.trailP TRAIL.PAGE_EVT_full = true) ∧
        (s.trailSize ≠ 0 → s.flag State.trailP TRAIL.PAGE_STAT_verify = false →
          s.trailHead + (recordBytes (s.markRecord o)).length ≤ s.trailKeep + s.trailSize → Ends .mark s fun u =>
            u.trailHead = (s.trailHead + (recordBytes (s.markRecord o)).length) % 2 ^ 64 ∧
            u.snap.nextRec = s.snap.nextRec + 1 ∧ RecordStands s u (recordBytes (s.markRecord o)) ∧ (s.partner = none → EndedWith u o.id stOk) ∧
            (s.partner.isSome = true → ∃ o', u.occ o.id = some o' ∧ o'.place = .running)) ∧
        (s.trailSize ≠ 0 → s.flag State.trailP TRAIL.PAGE_STAT_verify = true →
          (unindexed (s.readVia (fun i => s.ringAddr (s.pair State.trailP TRAIL.REPLAY_POS_LO_bytes + i))
              (recordBytes (s.markRecord o)).length).bytes = unindexed (recordBytes (s.markRecord o)) →
            Ends .mark s fun u => EndedWith u o.id stOk) ∧
          (unindexed (s.readVia (fun i => s.ringAddr (s.pair State.trailP TRAIL.REPLAY_POS_LO_bytes + i))
              (recordBytes (s.markRecord o)).length).bytes ≠ unindexed (recordBytes (s.markRecord o)) →
            Ends .mark s fun u => EndedWith u o.id stTrailDiverge ∧
              u.flag State.trailP TRAIL.PAGE_EVT_diverge = true ∧ u.trailHead = s.trailHead))) ∧
      (∀ o, s.markRunning = some o → s.domainOn .trail 0 = true → Ends .markMirrorTimeout s fun u => EndedWith u o.id stTrailUnmirrored ∧
        u.flag State.trailP TRAIL.PAGE_EVT_unmirrored = true) ∧
      (∀ e, s.fget 0 MODULE.FIREBREAK_state = 0 → s.memOpen (s.ringAddr 0) = true → s.domainOn .trail 0 = true →
        s.snap.flushTo = some e → Ends .trailFlushDone s fun u =>
        u.pair State.trailP TRAIL.FLUSHED_LO_bytes = e % 2 ^ 64 ∧ u.snap.flushTo = none ∧ ∀ x, u.mem.readByte x = s.mem.readByte x) ∧
      (Open s port .trail 0 → s.trailSize ≠ 0 → s.pair State.trailP TRAIL.REPLAY_POS_LO_bytes < s.trailHead →
        Ends (.replayStart port) s fun u => u.flag State.trailP TRAIL.PAGE_STAT_verify = true) ∧
      (Open s port .trail 0 → Ends (.replayStop port) s fun u => u.flag State.trailP TRAIL.PAGE_STAT_verify = false ∧
        (s.flag State.trailP TRAIL.PAGE_STAT_verify = true → u.flag State.trailP TRAIL.PAGE_EVT_replay_end = true)) ∧
      (Open s port .snap 0 → Ends (.l3Release port) s fun u =>
        u.flash.copies = s.flash.copies.map (fun k => { k with pinned := false }) ∧
        u.fget (pageNum .flash 0) FLASH.PIN_COUNT_blocks = 0))

open Sys2Proof Sys2Proof.Machine Sys2Proof.Machine.State Sys2Proof.Claims in
/-- Pairing, heartbeats and lost ranks. (R335, R336, R342, R343, R344.) -/
def Obligations.PairingHeartbeatsAndLostRanks : Prop :=
  (∀ (s : State) (port : Port), Open s port .snap 0 →
      (∀ rank, rank < 2 ^ 16 → s.snap.pairRec = [] →
        (rank = s.rank → Ends (.pairGo port rank) s fun u => u.fget State.snapP SNAP.PAIR_STAT_state = 0) ∧
        (rank ≠ s.rank → s.snap.lost.contains rank = true → Ends (.pairGo port rank) s fun u =>
          u.fget State.snapP SNAP.PAIR_STAT_state = 3 ∧ u.fget State.snapP SNAP.PAIR_STAT_err = 4) ∧
        (rank ≠ s.rank → s.snap.lost.contains rank = false → (s.coordValid = false ∨ s.routeOf rank 7 = none) →
          Ends (.pairGo port rank) s fun u =>
            u.fget State.snapP SNAP.PAIR_STAT_state = 3 ∧ u.fget State.snapP SNAP.PAIR_STAT_err = 3) ∧
        (∀ p, rank ≠ s.rank → s.snap.lost.contains rank = false → s.coordValid = true → s.routeOf rank 7 = some p →
          Ends (.pairGo port rank) s fun u => u.fget State.snapP SNAP.PAIR_STAT_state = 1 ∧
            u.fget State.snapP SNAP.PAIR_rank = rank ∧
            ∃ f, (u.portOf p).waiting = (s.portOf p).waiting ++ [f] ∧ f.dst = rank ∧ f.vc = 7)) ∧
      (∀ rank x p q, rank < 2 ^ 16 → s.snap.pairRec = [x] → x.rank ≠ rank → rank ≠ s.rank → s.snap.lost.contains rank = false →
        s.coordValid = true → s.routeOf rank 7 = some p → s.routeOf x.rank 7 = some q → Ends (.pairGo port rank) s fun u =>
          u.fget State.snapP SNAP.PAIR_STAT_state = 1 ∧ u.snap.pairRec = [] ∧
          ∃ f ∈ (u.portOf q).waiting, f.dst = x.rank ∧ f.vc = 7 ∧ f.pay = .pair s.rank s.ownFeed s.aP s.capacity rank) ∧
      (s.collQuiesced = true → Ends (.lostClr port) s fun u => u.snap.lost = [] ∧
        u.fget State.snapP SNAP.LOST_CNT_count = 0) ∧
      (s.collQuiesced = false → Ends (.lostClr port) s fun u => u.snap.lost = s.snap.lost ∧
        u.flag State.snapP SNAP.PAGE_EVT_ctrl_err = true)) ∧
    (∀ (s r : State) (rx : Rx) (p : Nat), Delivered s rx r p →
      (∀ rank feed ap cap names, rx.frame.pay = .pair rank feed ap cap names →
        r.fget State.snapP SNAP.PAIR_STAT_state = 1 → rank = r.snap.pairTo →
        (names ≠ r.rank → Ends (.pairRecordReceive rx) s fun u =>
          u.fget State.snapP SNAP.PAIR_STAT_state = 3 ∧ u.fget State.snapP SNAP.PAIR_STAT_err = 1) ∧
        (names = r.rank → (r.aP < cap ∨ ap < r.capacity) → Ends (.pairRecordReceive rx) s fun u =>
          u.fget State.snapP SNAP.PAIR_STAT_state = 3 ∧ u.fget State.snapP SNAP.PAIR_STAT_err = 2) ∧
        (names = r.rank → cap ≤ r.aP → r.capacity ≤ ap → Ends (.pairRecordReceive rx) s fun u =>
          u.partner = some rank ∧ u.flag State.snapP SNAP.PAGE_EVT_pair_done = true)) ∧
      (∀ rank feed ap cap, rx.frame.pay = .pair rank feed ap cap r.rank →
        (r.pairNames = true → rank ≠ r.snap.pairTo → Ends (.pairRecordReceive rx) s fun u =>
          u.snap = r.snap ∧ Queued r u rank 7 0 fun y => y = .pair r.rank r.ownFeed r.aP r.capacity r.snap.pairTo) ∧
        (r.pairNames = false → Ends (.pairRecordReceive rx) s fun u => ⟨rank, feed, ap, cap, r.rank⟩ ∈ u.snap.pairRec)) ∧
      (rx.frame.typ = 9 → rx.frame.pay = .heartbeat → Ends (.heartbeatReceive rx) s fun u =>
        sparseGet (fun _ => 0) u.snap.misses rx.frame.src = 0 ∧ u.snap.lost = r.snap.lost) ∧
      (∀ rank code, rx.frame.pay = .lost rank code →
        (rank ≠ r.rank → Ends (.lostNoticeReceive rx) s fun u => u.snap.lost.contains rank = true) ∧
        (rank = r.rank → r.flag State.snapP SNAP.PAGE_STAT_self_lost = false → Ends (.lostNoticeReceive rx) s fun u =>
          u.flag State.snapP SNAP.PAGE_STAT_self_lost = true ∧ holds u 2 = true ∧ u.snap.lost = r.snap.lost))) ∧
    (∀ s : State, s.hbOn = true → s.fget 0 MODULE.FIREBREAK_state = 0 → s.pwrState ≤ 1 →
      (∀ rank p, s.flag State.snapP SNAP.PAGE_STAT_self_lost = false → s.watched = [rank] → s.routeOf rank 0 = some p →
        Ends .heartbeatSend s fun u => ∃ f, (u.portOf p).waiting = (s.portOf p).waiting ++ [f] ∧ f.dst = rank ∧ f.typ = 9) ∧
      (∀ rank, s.watched.contains rank = true → s.snap.lost.contains rank = false → s.net.grace = false →
        (sparseGet (fun _ => 0) s.snap.misses rank + 1 < s.fget State.snapP SNAP.HB_CFG_miss →
          Ends (.heartbeatMiss rank) s fun u =>
            sparseGet (fun _ => 0) u.snap.misses rank = sparseGet (fun _ => 0) s.snap.misses rank + 1 ∧
            u.snap.lost = s.snap.lost) ∧
        (s.fget State.snapP SNAP.HB_CFG_miss ≤ sparseGet (fun _ => 0) s.snap.misses rank + 1 →
          Ends (.heartbeatMiss rank) s fun u => u.snap.lost.contains rank = true ∧
            u.fget State.snapP SNAP.LOST_LAST_rank = rank % 2 ^ 16 ∧
            u.flag State.snapP SNAP.PAGE_EVT_peer_lost = true)))

namespace Sys2Proof.Claims
open Sys2Proof Sys2Proof.Machine Sys2Proof.Machine.State

/-- The state once a finished copy's regions and state records are put back (R347, steps 3 to 5). -/
def copiedBack (s : State) (x : Restore) (b : Nat → Nat) (bad : Nat → Bool) : State :=
  (if x.src = 1 then s
   else (s.touchRestore x b).storeRegions (hdrRegionList b) 0x100000
     ⟨(List.range (hdrCapBytes b - 0x100000)).map fun i => b (0x100000 + i),
      (List.range ((hdrCapBytes b - 0x100000) / 8)).map fun w => bad (0x100000 + 8 * w)⟩).restoreState b
/-- A copy put back passes the checks of R348 and R349: no poison, every region's CRC-32C, the rank, the generation, and every
tile at the data position. -/
def RestorePasses (s u : State) (x : Restore) (b : Nat → Nat) (bad : Nat → Bool) : Prop :=
  (List.range 0x20000).all (fun w => !bad (8 * w)) = true ∧
    (hdrRegionList b).all (fun e => (List.range (e.2.1 / 8)).all fun w => !u.mem.poisoned (e.1 + 8 * w)) = true ∧
    (hdrRegionList b).all u.regionOk = true ∧ hdrRank b = (if x.src = 1 then x.asRank else s.rank) ∧
    hdrGen b = s.fget 0 MODULE.gen ∧ u.skewOf (hdrDataPos b) = none

end Sys2Proof.Claims

open Sys2Proof Sys2Proof.Machine Sys2Proof.Machine.State Sys2Proof.Claims in
/-- A restore from its start to its outcome. (R347, R348, R349.) -/
def Obligations.RestoreCommands : Prop :=
  (∀ (s : State) (port : Port), Open s port .snap 0 →
      (∀ src asRank, src < 3 → s.fget 0 MODULE.FIREBREAK_state = 0 → s.snap.restore = none →
        Ends (.restoreGo port src asRank) s fun u => holds u 3 = true ∧
          u.fget State.snapP SNAP.RESTORE_STAT_step = 3 ∧
          ∃ x, u.snap.restore = some x ∧ x.src = src ∧ x.number = s.pair State.snapP SNAP.RESTORE_NUM_LO_number ∧
            x.asRank = asRank % 2 ^ 16) ∧
      (∀ asRank, Ends (.restoreGo port 3 asRank) s fun u => u.flag State.snapP SNAP.PAGE_EVT_ctrl_err = true ∧
        u.snap = s.snap ∧ u.mem = s.mem) ∧
      (s.fget State.snapP SNAP.RESTORE_CTRL_src < 3 → s.snap.restore = none →
        (s.fget State.snapP SNAP.RESTORE_STAT_code = 0x50 → Ends (.restoreRealign port) s fun u =>
          ∀ t, t < Member.tiles s.member →
            u.fget (pageNum .rng t) RNG.STEP_value = s.fget State.snapP SNAP.DATA_POS_step ∧
            u.flag (pageNum .rng t) RNG.PAGE_EVT_realign_done = true) ∧
        (s.fget State.snapP SNAP.RESTORE_STAT_code ≠ 0x50 → Ends (.restoreRealign port) s fun u =>
          u.flag State.snapP SNAP.PAGE_EVT_ctrl_err = true ∧ u.snap = s.snap ∧ u.mem = s.mem) ∧
        (s.fget State.snapP SNAP.RESTORE_STAT_code = 0x51 → Ends (.restoreAcceptGen port) s fun u =>
          u.fget State.snapP SNAP.RESTORE_STAT_code = 0x51 ∧ holds u 3 = false ∧
          u.pair State.snapP SNAP.SECURE_LO_number = s.snap.restored.2.1 % 2 ^ 64 ∧
          u.flag State.snapP SNAP.PAGE_EVT_restore_done = true))) ∧
    (∀ (s : State) (x : Restore), s.snap.restore = some x → x.arrived = true → s.fireClosed = false → s.snap.inbox = [] →
      s.domainOn .snap 0 = true → (List.range (Member.stacks s.member)).all (fun k => s.memOpen (stackBase k)) = true →
      (∀ b bad, s.restoreSource x = some (b, bad) → headerOk b = true → hdrNumber b = x.number →
        RestorePasses s (copiedBack s x b bad) x b bad → Ends .restoreCopyDone s fun u =>
          u.snap.restore = none ∧ u.fget State.snapP SNAP.RESTORE_STAT_code = 0 ∧ holds u 3 = false ∧
          u.pair State.snapP SNAP.LAST_CLR_LO_number = x.number % 2 ^ 64 ∧
          u.pair State.snapP SNAP.SECURE_LO_number = x.number % 2 ^ 64 ∧
          u.flag State.snapP SNAP.PAGE_EVT_restore_done = true ∧
          (s.trailSize = 0 → (∀ a, u.mem.readByte a = (copiedBack s x b bad).mem.readByte a) ∧
            ∀ e i, x.src ≠ 1 → hdrRegionList b = [e] → hdrCapBytes b = 0x100000 + e.2.1 → i < e.2.1 →
              isMem s.member (e.1 + i) = true → u.mem.readByte (e.1 + i) = b (0x100000 + i) % 256)) ∧
      (Ends .restoreCopyDone s fun u => u.snap.restore = none) ∧
      (s.restoreSource x = none → Ends .restoreCopyDone s fun u => u.fget State.snapP SNAP.RESTORE_STAT_code = 0x52 ∧
        u.flag State.snapP SNAP.PAGE_EVT_restore_err = true ∧ u.snap.hold = s.snap.hold ∧ u.mem = s.mem)) ∧
    (∀ (s r : State) (rx : Rx) (p : Nat), Delivered s rx r p →
      (∀ rank number, rx.frame.pay = .restoreReq rank number → Ends (.restoreRequestReceive rx) s fun u =>
        (∀ a, u.mem.readByte a = r.mem.readByte a) ∧ u.snap = r.snap ∧ u.seq = r.seq) ∧
      (∀ x, r.snap.inbox = [] → r.snapOpen rx.frame = true → r.restoring rx.frame = some x →
        (∀ off b pz, rx.frame.pay = .restoreSlot off b pz → Ends (.restoreFrameReceive rx) s fun u =>
          (∃ y, u.snap.restore = some y ∧ y.arrived = rx.frame.last ∧ y.number = x.number) ∧
          (off < 0x100000 → u.mem = r.mem)) ∧
        (∀ pos b, rx.frame.pay = .restoreTrail pos b → r.trailSize ≠ 0 → Ends (.restoreFrameReceive rx) s fun u =>
          u.trailHead = (pos + b.length) % 2 ^ 64 ∧ ∃ y, u.snap.restore = some y ∧ y.arrived = rx.frame.last)))

open Sys2Proof Sys2Proof.Machine Sys2Proof.Machine.State Sys2Proof.Claims in
/-- A page of a unit the member lacks reads zero, and writes to it are ignored. (R3.) -/
def Obligations.AbsentPagesReadZero : Prop :=
  (∀ (s : State) (port : Port) (page off n v : Nat), s.reachOf port page = .zero → s.portWaits port = false →
      (manyWords off n = false ∨ off + n ≤ 4096) →
      Ends (.registerWrite port page off n v) s (fun u => u = s.start) ∧
      Ends (.rcRead port page off n) s fun u => (∀ x ∈ u.out, x = .readData port 0) ∧ u.out ≠ [] ∧
        u = { s.start with out := u.out }) ∧
    (∀ (s : State) (port : Port) (page : Nat), pageAt s.member page = none → s.reachOf port page ≠ .none →
      s.reachOf port page ≠ .early → s.reachOf port page = .zero) ∧
    (∀ (s : State) (c : Instr) (port : Port) (ty : PageType) (i : Nat) (f : Fd) (v : Nat),
      ctrlField c = some (port, ty, i, f, v) → pagePresent s.member ty i = false → Ends c s fun u => u = s.start)

namespace Sys2Proof.Claims
open Sys2Proof Sys2Proof.Machine Sys2Proof.Machine.State

/-- A NaN code of a floating element format, by its fields: an exponent of all ones with any fraction bit set; for W8 the two
codes 0x7F and 0xFF (R35 to R40). -/
def isNanCode (fmt code : Nat) : Prop :=
  match fmt with
  | 1 | 6 => natBits code 10 5 = 31 ∧ natBits code 0 10 ≠ 0
  | 2 => natBits code 23 8 = 255 ∧ natBits code 0 23 ≠ 0
  | 3 => natBits code 39 8 = 255 ∧ natBits code 0 39 ≠ 0
  | 4 => natBits code 52 11 = 2047 ∧ natBits code 0 52 ≠ 0
  | 5 => natBits code 0 7 = 127
  | _ => False
/-- The canonical NaN of each format (R53). -/
def canonicalNan : Nat → Nat
  | 1 => 0x7E00 | 2 => 0x7FC00000 | 3 => 0x7FC000000000 | 4 => 0x7FF8000000000000 | 5 => 0x7F | 6 => 0x7E00 | _ => 0
/-- The code of an infinity with a sign, in the formats that have one. -/
def infinity (fmt : Nat) (neg : Bool) : Nat :=
  match fmt with
  | 1 | 6 => if neg then 0xFC00 else 0x7C00
  | 2 => if neg then 0xFF800000 else 0x7F800000
  | 3 => if neg then 0xFF8000000000 else 0x7F8000000000
  | 4 => if neg then 0xFFF0000000000000 else 0x7FF0000000000000
  | _ => 0
/-- The conversion of a source code to a target format. -/
def converted (src dst : Nat) (ks kd : Int) (m : Rnd) (ieee : Bool) (code : Nat) : Conv :=
  convertFmt dst kd m ieee (decodeFmt src ks code)

end Sys2Proof.Claims

open Sys2Proof Sys2Proof.Machine Sys2Proof.Machine.State Sys2Proof.Claims in
/-- NaN converts to the target's canonical NaN, and an infinity keeps its sign or becomes NaN in W8. (R53, R54.) -/
def Obligations.NanAndInfinityConvert : Prop :=
  ∀ (src dst code : Nat) (ks kd : Int) (m : Rnd) (ieee neg : Bool), 1 ≤ src → src ≤ 6 → 1 ≤ dst → dst ≤ 6 →
    (isNanCode src code → (converted src dst ks kd m ieee code).code = canonicalNan dst) ∧
    (src ≠ 5 →
      (converted src dst ks kd m ieee (infinity src neg)).code = (if dst = 5 then 0x7F else infinity dst neg) ∧
      (converted src dst ks kd m ieee (infinity src neg)).overflow = false ∧
      (converted src dst ks kd m ieee (infinity src neg)).saturated = false)

open Sys2Proof Sys2Proof.Machine Sys2Proof.Machine.State Sys2Proof.Claims in
/-- Any one or two flipped bits of a clean word are corrected. (R112, R113, R115.) -/
def Obligations.OneOrTwoFlippedBitsAreCorrected : Prop :=
  ∀ (m : MemSt) (wa : Nat), wa % 8 = 0 → m.diff wa = 0 →
    (∀ i, i < 80 → (m.flip wa i).ecc wa = .single i ∧ (m.flip wa i).wordPoison wa = false ∧
      ∀ a, (m.flip wa i).readByte a = m.readByte a) ∧
    (∀ i j, i < j → j < 80 → ((m.flip wa i).flip wa j).ecc wa = .double i j ∧
      ((m.flip wa i).flip wa j).wordPoison wa = false ∧
      ∀ a, ((m.flip wa i).flip wa j).readByte a = m.readByte a)

namespace Sys2Proof.Claims
open Sys2Proof Sys2Proof.Machine Sys2Proof.Machine.State

/-- An element's exact square, in units of la (R221, R222); NaN and Inf add nothing to la. -/
def squareUnits : Val → Nat
  | .fin _ m e => m * m * 2 ^ (2 * e + 298).toNat
  | _ => 0
/-- The record of CLEAR (R221). -/
def clearRec : NormRec := ⟨0, 0, 0, false, 0⟩
/-- The record after ACCUMULATE of elements. -/
def accumulated (r : NormRec) (vs : List Val) : NormRec := vs.foldl NormRec.addElem r

end Sys2Proof.Claims

open Sys2Proof Sys2Proof.Machine Sys2Proof.Machine.State Sys2Proof.Claims in
/-- The NORM accumulator depends neither on the order nor on the split of its elements. (R222, R223.) -/
def Obligations.NormSumsIgnoreOrderAndSplit : Prop :=
  (∀ (r : NormRec) (xs ys : List Val), xs.Perm ys → accumulated r xs = accumulated r ys) ∧
    (∀ (r : NormRec) (xs : List Val), r.ovf = false → r.la < 2 ^ 576 →
      ((accumulated r xs).ovf = true ↔ 2 ^ 576 ≤ r.la + (xs.map squareUnits).sum) ∧
      ((accumulated r xs).la = if (accumulated r xs).ovf then 2 ^ 576 - 1 else r.la + (xs.map squareUnits).sum)) ∧
    (∀ xs ys : List Val,
      (accumulated clearRec xs).merge (accumulated clearRec ys) = accumulated clearRec (xs ++ ys) ∧
      (accumulated clearRec ys).merge (accumulated clearRec xs) = accumulated clearRec (xs ++ ys))

namespace Sys2Proof.Claims
open Sys2Proof Sys2Proof.Machine Sys2Proof.Machine.State

/-- The commands that are an access of a port, an event of power or of the ranger, or a reset: what they may change is said by
the rules of the register, command or event they name. -/
def throughAPort : Instr → Bool
  | .registerWrite .. | .rcRead .. | .pairLowRead .. | .pairLowWrite .. | .pairHighWrite .. | .pageErrCntRead ..
    | .pageEvtEnWrite .. | .calDataRead .. | .spadSoftReset .. | .spadClassSel .. | .scrubEnable ..
    | .scrubSoftReset .. | .scrubQuiesce .. | .stkSoftReset .. | .stkQuiesce .. | .queueRingWrite .. | .queueEnable ..
    | .queueDisable .. | .queueReset .. | .doorbell .. | .semSet .. | .semAdd .. | .tseqEnable .. | .tseqQuiesce ..
    | .tseqSoftReset .. | .semClear .. | .teEnable .. | .teQuiesce .. | .teSoftReset .. | .dmaEnable ..
    | .dmaQuiesce .. | .dmaSoftReset .. | .veEnable .. | .veQuiesce .. | .veSoftReset .. | .rngJobKeyWrite ..
    | .rngStepWrite .. | .rngDrawWrite .. | .rngRealign .. | .rngEnable .. | .rngQuiesce .. | .rngSoftReset ..
    | .scaleEnable .. | .scaleQuiesce .. | .scaleSoftReset .. | .watchIdxWrite .. | .watchSoftReset ..
    | .normEnable .. | .normQuiesce .. | .groupLoad .. | .groupBaseWrite .. | .collJobKeyWrite ..
    | .reportBaseWrite .. | .collEnable .. | .collQuiesce .. | .collSoftReset .. | .combSelect .. | .chRevive ..
    | .meshCommit .. | .meshCal .. | .shutterForce .. | .peEnable .. | .peSoftReset .. | .peQuiesce ..
    | .pechEnable .. | .pechSoftReset .. | .pechQuiesce .. | .linkOptTest .. | .linkOptPark .. | .linkEnable ..
    | .linkSoftReset .. | .linkQuiesce .. | .planLoad .. | .l3Release .. | .pairGo .. | .replayStart ..
    | .replayStop .. | .lostClr .. | .restoreGo .. | .restoreRealign .. | .restoreAcceptGen .. | .snapEnable ..
    | .snapSoftReset .. | .snapQuiesce .. | .trailEnable .. | .trailSoftReset .. | .trailQuiesce .. | .errEntryRead ..
    | .errPop .. | .errAck .. | .firebreakForce .. | .pwrReq .. | .powerTransitionDone .. | .wakePin ..
    | .wakeStepTimeout .. | .capWrite .. | .tclkDivWrite .. | .sensFlagClear .. | .domainWakeAccess ..
    | .accessTimeout .. | .resetPin .. | .inputPowerApplied .. | .getId .. | .setCoord .. | .setValid ..
    | .clrValid .. | .readReg .. | .writeReg .. | .mgmtPwrReq .. | .readWake .. | .census .. | .censusGo ..
    | .readErr .. | .ackErr .. | .reset .. | .fwWrite .. | .fwActivate .. | .dbgRequest .. | .dbgSubmit ..
    | .flashRead .. | .flashWrite .. | .flashTrim .. | .flashFlush .. | .svcPark .. | .svcCancel .. | .svcUnpark ..
    | .stkphySoftReset .. | .inputPowerLost .. => true
  | _ => false
/-- Beside those, the commands that may change a tensor engine's totals, blocks or occurrence. -/
def changesEngines : Instr → Bool
  | .matmul .. | .drain .. | .blockDrain .. | .heartbeatMiss .. | .lostNoticeReceive .. | .hubCtrlUc ..
    | .unitState .. | .railFault .. | .clockLoss .. | .rangerWdt .. | .thermalSensorSample .. | .fuseCheck ..
    | .latchSensorOpen .. | .phyRetrainDone .. => true
  | _ => false
/-- Beside those, the commands that may change scale slots, their uses or watchers. -/
def changesScales : Instr → Bool
  | .descComplete .. | .drain .. | .blockDrain .. | .move .. | .stash .. | .unstash .. | .vecAdd .. | .vecSub ..
    | .vecMul .. | .vecFma .. | .vecDiv .. | .vecSqrt .. | .vecMax .. | .vecMin .. | .vecAbs .. | .vecNeg ..
    | .vecSel .. | .vecCvt .. | .vecFill .. | .vecRsqrt .. | .vecExp2 .. | .vecLog2 .. | .vecTanh .. | .vecGelu ..
    | .vecSilu .. | .vecGeluBwd .. | .vecSiluBwd .. | .vecExp2sub .. | .vecRescaleAdd .. | .vecCmp .. | .vecBittest ..
    | .vecMand .. | .vecMor .. | .vecMxor .. | .vecMandn .. | .vecRsum .. | .vecRmax .. | .vecRmin .. | .vecRamax ..
    | .vecTopk .. | .optAdamw .. | .optSgdm .. | .rngBits .. | .rngUniform .. | .rngNormal .. | .rngBernoulli ..
    | .rngSetStep .. | .scaleExport .. | .scalePush .. | .scaleSetTarget .. | .scaleLoad .. | .scaleWatchExport ..
    | .restoreCopyDone .. => true
  | _ => false
/-- Beside those, the commands that may change collective contexts, pending opens or groups. -/
def changesColl : Instr → Bool
  | .contextGrant .. | .descComplete .. | .gatherAhead .. | .normExchange .. | .collAllreduce ..
    | .collReduceScatter .. | .collAllgather .. | .collBroadcast .. | .collAlltoall .. | .collSend .. | .collRecv ..
    | .chainPass .. | .groupValidateDone .. | .openReceive .. | .acceptReceive .. | .nakReceived .. | .retryReceive ..
    | .openRetryTimeout .. | .dataReceive .. | .closeReceive .. | .abortReceive .. | .signalReceive ..
    | .frameTransmit .. | .planDrainDone .. | .heartbeatMiss .. | .lostNoticeReceive .. | .restoreCopyDone ..
    | .hubCtrlUc .. | .unitState .. | .railFault .. | .clockLoss .. | .rangerWdt .. | .thermalSensorSample ..
    | .fuseCheck .. | .serviceButton .. | .parkFence .. | .latchSensorOpen .. | .phyRetrainDone .. => true
  | _ => false
/-- Beside those, the commands that may change ring failures, mesh codes and maps, or monitors. -/
def changesOptics : Instr → Bool
  | .combFailover .. | .lineFailed .. | .lockLost .. | .ringAcquireDone .. | .ringAcquireFail .. | .ringScanDone ..
    | .ringVerifyDone .. | .ringLightLost .. | .ringLightRestored .. | .chRetired .. | .pilotWindow ..
    | .meshCommitDone .. | .meshCalDone .. | .meshTrim .. | .monitorLow .. | .plugSensorChange .. | .lossOfSignal ..
    | .probeLightDetect .. | .probeResponseEnd .. | .planDrainDone .. | .dieTempSample .. | .bootStageDone ..
    | .serviceButton .. | .parkFence .. | .latchSensorOpen .. | .latchSensorClose .. => true
  | _ => false
/-- Beside those, the commands that may change clearings, marks, lost ranks, partner copies or restores. -/
def changesSnap : Instr → Bool
  | .nakReceived .. | .clearing .. | .clearingHoldDrained .. | .clrHoldTimeout .. | .barrierRecordReceive ..
    | .barrierVerdictReceive .. | .captureDone .. | .l1AckReceive .. | .l2WriteDone .. | .snapshotFrameReceive ..
    | .trailMirrorReceive .. | .pairRecordReceive .. | .mark .. | .mirrorAckReceive .. | .heartbeatReceive ..
    | .heartbeatMiss .. | .lostNoticeReceive .. | .restoreCopyDone .. | .firebreakNoticeDone .. | .hubCtrlUc ..
    | .unitState .. | .railFault .. | .clockLoss .. | .rangerWdt .. | .thermalSensorSample .. | .fuseCheck ..
    | .serviceButton .. | .parkFence .. | .parkTimeout .. | .latchSensorOpen .. | .phyRetrainDone ..
    | .restoreFrameReceive .. | .trailFlushDone .. => true
  | _ => false
/-- Beside those, the commands that may change flash. -/
def changesFlash : Instr → Bool
  | .l2WriteDone .. | .bootStageDone .. | .flashCmdDone .. | .trailFlushDone .. => true
  | _ => false
/-- Beside those, the commands that may change the host interface and the firmware. -/
def changesHost : Instr → Bool
  | .bootStageDone .. | .censusDone .. | .flashCmdDone .. | .phyRetrainDone .. => true
  | _ => false
/-- Beside those, the commands that may change service, latch or park. -/
def changesSvc : Instr → Bool
  | .bootStageDone .. | .serviceButton .. | .parkFence .. | .latchSensorOpen .. | .latchSensorClose .. => true
  | _ => false
/-- Beside those, the commands that may change plans, ports, replay buffers or channels. -/
def changesNet : Instr → Bool
  | .contextGrant .. | .signal .. | .gatherAhead .. | .normExchange .. | .collAllreduce .. | .collReduceScatter ..
    | .collAllgather .. | .collBroadcast .. | .collAlltoall .. | .collSend .. | .collRecv .. | .chainPass ..
    | .openReceive .. | .acceptReceive .. | .nakReceived .. | .retryReceive .. | .openRetryTimeout ..
    | .dataReceive .. | .portDownEnd .. | .closeReceive .. | .abortReceive .. | .creditReceive .. | .ackReceive ..
    | .replayReqReceive .. | .signalReceive .. | .signalAckReceive .. | .mgmtFrameReceive .. | .frameTransmit ..
    | .ackTimer .. | .replayTimeout .. | .plugSensorChange .. | .probeLightDetect .. | .trainReceive ..
    | .planDrainDone .. | .planDrainTimeout .. | .planReady .. | .heartbeatGraceEnd .. | .portFailover ..
    | .portFailback .. | .clearingHoldDrained .. | .clrHoldTimeout .. | .barrierRecordReceive ..
    | .barrierVerdictReceive .. | .captureDone .. | .l1AckReceive .. | .snapshotFrameReceive ..
    | .trailMirrorReceive .. | .pairRecordReceive .. | .mark .. | .mirrorAckReceive .. | .heartbeatSend ..
    | .heartbeatReceive .. | .heartbeatMiss .. | .lostNoticeReceive .. | .firebreakNoticeDone .. | .hubCtrlUc ..
    | .unitState .. | .railFault .. | .clockLoss .. | .rangerWdt .. | .thermalSensorSample .. | .fuseCheck ..
    | .serviceButton .. | .parkFence .. | .latchSensorOpen .. | .phyRetrainDone .. | .fecDecoderLock ..
    | .restoreRequestReceive .. | .restoreFrameReceive .. => true
  | _ => false
/-- Beside those, the commands that may change queues, occurrences or semaphores. -/
def changesSeq : Instr → Bool
  | .descFetch .. | .dispatch .. | .handOver .. | .contextGrant .. | .descComplete .. | .nop .. | .wait ..
    | .signal .. | .fence .. | .fenceComplete .. | .repeatLoop .. | .repeatComplete .. | .matmul .. | .drain ..
    | .blockDrain .. | .move .. | .stash .. | .unstash .. | .gatherAhead .. | .vecAdd .. | .vecSub .. | .vecMul ..
    | .vecFma .. | .vecDiv .. | .vecSqrt .. | .vecMax .. | .vecMin .. | .vecAbs .. | .vecNeg .. | .vecSel ..
    | .vecCvt .. | .vecFill .. | .vecRsqrt .. | .vecExp2 .. | .vecLog2 .. | .vecTanh .. | .vecGelu .. | .vecSilu ..
    | .vecGeluBwd .. | .vecSiluBwd .. | .vecExp2sub .. | .vecRescaleAdd .. | .vecCmp .. | .vecBittest .. | .vecMand ..
    | .vecMor .. | .vecMxor .. | .vecMandn .. | .vecRsum .. | .vecRmax .. | .vecRmin .. | .vecRamax .. | .vecTopk ..
    | .optAdamw .. | .optSgdm .. | .rngBits .. | .rngUniform .. | .rngNormal .. | .rngBernoulli .. | .rngSetStep ..
    | .scaleExport .. | .scalePush .. | .scaleSetTarget .. | .scaleSave .. | .scaleLoad .. | .scaleWatchExport ..
    | .normClear .. | .normAccumulate .. | .normExchange .. | .normFinal .. | .collAllreduce ..
    | .collReduceScatter .. | .collAllgather .. | .collBroadcast .. | .collAlltoall .. | .collSend .. | .collRecv ..
    | .chainPass .. | .openReceive .. | .nakReceived .. | .abortReceive .. | .signalReceive .. | .signalAckReceive ..
    | .clearing .. | .clearingHoldDrained .. | .clrHoldTimeout .. | .barrierRecordReceive ..
    | .barrierVerdictReceive .. | .captureDone .. | .l1AckReceive .. | .l2WriteDone .. | .mark ..
    | .mirrorAckReceive .. | .markMirrorTimeout .. | .heartbeatMiss .. | .lostNoticeReceive .. | .restoreCopyDone ..
    | .hubCtrlUc .. | .unitState .. | .railFault .. | .clockLoss .. | .rangerWdt .. | .thermalSensorSample ..
    | .fuseCheck .. | .serviceButton .. | .parkFence .. | .latchSensorOpen .. | .phyRetrainDone .. => true
  | _ => false
/-- Beside those, the commands that may change the error FIFO, its latches or ALERT. -/
def changesErrors : Instr → Bool
  | .pcieMemoryWrite .. | .pcieMemoryRead .. | .corrqRewrite .. | .scrubAccess .. | .scrubLate .. | .descFetch ..
    | .dispatch .. | .contextGrant .. | .descComplete .. | .nop .. | .wait .. | .signal .. | .fence ..
    | .fenceComplete .. | .repeatComplete .. | .matmul .. | .drain .. | .blockDrain .. | .move .. | .stash ..
    | .unstash .. | .gatherAhead .. | .vecAdd .. | .vecSub .. | .vecMul .. | .vecFma .. | .vecDiv .. | .vecSqrt ..
    | .vecMax .. | .vecMin .. | .vecAbs .. | .vecNeg .. | .vecSel .. | .vecCvt .. | .vecFill .. | .vecRsqrt ..
    | .vecExp2 .. | .vecLog2 .. | .vecTanh .. | .vecGelu .. | .vecSilu .. | .vecGeluBwd .. | .vecSiluBwd ..
    | .vecExp2sub .. | .vecRescaleAdd .. | .vecCmp .. | .vecBittest .. | .vecMand .. | .vecMor .. | .vecMxor ..
    | .vecMandn .. | .vecRsum .. | .vecRmax .. | .vecRmin .. | .vecRamax .. | .vecTopk .. | .optAdamw .. | .optSgdm ..
    | .rngBits .. | .rngUniform .. | .rngNormal .. | .rngBernoulli .. | .rngSetStep .. | .scaleExport ..
    | .scalePush .. | .scaleSetTarget .. | .scaleSave .. | .scaleLoad .. | .scaleWatchExport .. | .normClear ..
    | .normAccumulate .. | .normExchange .. | .normFinal .. | .collAllreduce .. | .collReduceScatter ..
    | .collAllgather .. | .collBroadcast .. | .collAlltoall .. | .collSend .. | .collRecv .. | .chainPass ..
    | .groupValidateDone .. | .openReceive .. | .acceptReceive .. | .nakReceived .. | .retryReceive ..
    | .dataReceive .. | .closeReceive .. | .abortReceive .. | .creditReceive .. | .ackReceive ..
    | .replayReqReceive .. | .signalReceive .. | .signalAckReceive .. | .mgmtFrameReceive ..
    | .frameIncompleteTimeout .. | .combFailover .. | .lineFailed .. | .ringVerifyDone .. | .chRetired ..
    | .pilotWindow .. | .monitorLow .. | .trainReceive .. | .portFailover .. | .portFailback .. | .clearing ..
    | .clearingHoldDrained .. | .clrHoldTimeout .. | .barrierRecordReceive .. | .barrierVerdictReceive ..
    | .captureDone .. | .l1AckReceive .. | .l2WriteDone .. | .snapshotFrameReceive .. | .trailMirrorReceive ..
    | .pairRecordReceive .. | .mark .. | .mirrorAckReceive .. | .heartbeatReceive .. | .heartbeatMiss ..
    | .lostNoticeReceive .. | .restoreCopyDone .. | .hubCtrlUc .. | .unitState .. | .railFault .. | .clockLoss ..
    | .rangerWdt .. | .dieTempSample .. | .thermalSensorSample .. | .coolantSample .. | .bootStageDone ..
    | .fuseCheck .. | .censusDone .. | .mgmtTimeout .. | .flashCmdDone .. | .serviceButton .. | .parkFence ..
    | .latchSensorOpen .. | .phyRetrainDone .. | .restoreRequestReceive .. | .restoreFrameReceive ..
    | .trailFlushDone .. => true
  | _ => false
/-- Beside those, the commands that may change the power part: state, target, timers or wake records. -/
def changesPower : Instr → Bool
  | .handOver .. | .contextGrant .. | .railFault .. | .powerQuiesceTimeout .. | .autoIdle .. | .alarmExpire ..
    | .powerControlTick .. | .fastLimitAssert .. | .fastLimitRelease .. | .dieTempSample .. | .thermalSensorSample ..
    | .coolantSample .. | .tclkChange .. | .tclkChangeDone .. | .bootStageDone .. => true
  | _ => false
/-- Beside those, the commands that may change a register. -/
def changesRegisters : Instr → Bool
  | .pcieMemoryWrite .. | .pcieMemoryRead .. | .pcieConfigAccess .. | .pcieReset .. | .corrqRewrite ..
    | .scrubAccess .. | .scrubLate .. | .stackTempRead .. | .descFetch .. | .dispatch .. | .handOver ..
    | .contextGrant .. | .descComplete .. | .nop .. | .wait .. | .signal .. | .fence .. | .fenceComplete ..
    | .repeatComplete .. | .qWaitLimitExpire .. | .matmul .. | .drain .. | .blockDrain .. | .move .. | .stash ..
    | .unstash .. | .gatherAhead .. | .vecAdd .. | .vecSub .. | .vecMul .. | .vecFma .. | .vecDiv .. | .vecSqrt ..
    | .vecMax .. | .vecMin .. | .vecAbs .. | .vecNeg .. | .vecSel .. | .vecCvt .. | .vecFill .. | .vecRsqrt ..
    | .vecExp2 .. | .vecLog2 .. | .vecTanh .. | .vecGelu .. | .vecSilu .. | .vecGeluBwd .. | .vecSiluBwd ..
    | .vecExp2sub .. | .vecRescaleAdd .. | .vecCmp .. | .vecBittest .. | .vecMand .. | .vecMor .. | .vecMxor ..
    | .vecMandn .. | .vecRsum .. | .vecRmax .. | .vecRmin .. | .vecRamax .. | .vecTopk .. | .optAdamw .. | .optSgdm ..
    | .rngBits .. | .rngUniform .. | .rngNormal .. | .rngBernoulli .. | .rngSetStep .. | .scaleExport ..
    | .scalePush .. | .scaleSetTarget .. | .scaleSave .. | .scaleLoad .. | .scaleWatchExport .. | .normClear ..
    | .normAccumulate .. | .normExchange .. | .normFinal .. | .collAllreduce .. | .collReduceScatter ..
    | .collAllgather .. | .collBroadcast .. | .collAlltoall .. | .collSend .. | .collRecv .. | .chainPass ..
    | .groupValidateDone .. | .openReceive .. | .acceptReceive .. | .nakReceived .. | .retryReceive ..
    | .openRetryTimeout .. | .dataReceive .. | .closeReceive .. | .abortReceive .. | .creditReceive ..
    | .ackReceive .. | .replayReqReceive .. | .signalReceive .. | .signalAckReceive .. | .mgmtFrameReceive ..
    | .frameTransmit .. | .frameIncompleteTimeout .. | .collWaitLimitExpire .. | .combFailover .. | .lineFailed ..
    | .lockLost .. | .ringAcquireDone .. | .ringAcquireFail .. | .ringScanDone .. | .ringVerifyDone ..
    | .ringLightLost .. | .ringLightRestored .. | .chRetired .. | .pilotWindow .. | .thermalHoldEnd ..
    | .meshCommitDone .. | .meshCalDone .. | .monitorLow .. | .plugSensorChange .. | .lossOfSignal ..
    | .probeLightDetect .. | .trainReceive .. | .planDrainDone .. | .planDrainTimeout .. | .planReady ..
    | .portFailover .. | .portFailback .. | .clearing .. | .clearingHoldDrained .. | .clrHoldTimeout ..
    | .barrierRecordReceive .. | .barrierVerdictReceive .. | .captureDone .. | .l1AckReceive .. | .l2WriteDone ..
    | .snapshotFrameReceive .. | .trailMirrorReceive .. | .pairRecordReceive .. | .mark .. | .mirrorAckReceive ..
    | .markMirrorTimeout .. | .heartbeatSend .. | .heartbeatReceive .. | .heartbeatMiss .. | .lostNoticeReceive ..
    | .restoreCopyDone .. | .firebreakNoticeDone .. | .hubCtrlUc .. | .unitState .. | .railFault .. | .clockLoss ..
    | .rangerWdt .. | .powerQuiesceTimeout .. | .autoIdle .. | .alarmExpire .. | .bclkFallback ..
    | .powerControlTick .. | .fastLimitAssert .. | .fastLimitRelease .. | .dieTempSample .. | .thermalSensorSample ..
    | .coolantSample .. | .tclkChangeDone .. | .sensorWindowUpdate .. | .bootStageDone .. | .fuseCheck ..
    | .censusDone .. | .mgmtTimeout .. | .flashCmdDone .. | .serviceButton .. | .parkFence .. | .parkTimeout ..
    | .latchSensorOpen .. | .latchSensorClose .. | .phyCheck .. | .phyRetrainDone .. | .restoreRequestReceive ..
    | .restoreFrameReceive .. | .trailFlushDone .. => true
  | _ => false
/-- Beside those, the commands that may change the data that a read of memory delivers. -/
def changesMemory : Instr → Bool
  | .pcieMemoryWrite .. | .pcieMemoryRead .. | .corrqRewrite .. | .scrubAccess .. | .scrubLate .. | .dispatch ..
    | .contextGrant .. | .descComplete .. | .nop .. | .wait .. | .signal .. | .fence .. | .fenceComplete ..
    | .repeatComplete .. | .matmul .. | .drain .. | .blockDrain .. | .move .. | .stash .. | .unstash ..
    | .gatherAhead .. | .vecAdd .. | .vecSub .. | .vecMul .. | .vecFma .. | .vecDiv .. | .vecSqrt .. | .vecMax ..
    | .vecMin .. | .vecAbs .. | .vecNeg .. | .vecSel .. | .vecCvt .. | .vecFill .. | .vecRsqrt .. | .vecExp2 ..
    | .vecLog2 .. | .vecTanh .. | .vecGelu .. | .vecSilu .. | .vecGeluBwd .. | .vecSiluBwd .. | .vecExp2sub ..
    | .vecRescaleAdd .. | .vecCmp .. | .vecBittest .. | .vecMand .. | .vecMor .. | .vecMxor .. | .vecMandn ..
    | .vecRsum .. | .vecRmax .. | .vecRmin .. | .vecRamax .. | .vecTopk .. | .optAdamw .. | .optSgdm .. | .rngBits ..
    | .rngUniform .. | .rngNormal .. | .rngBernoulli .. | .rngSetStep .. | .scaleExport .. | .scaleSave ..
    | .scaleWatchExport .. | .normClear .. | .normAccumulate .. | .normExchange .. | .normFinal .. | .collAllreduce ..
    | .collReduceScatter .. | .collAllgather .. | .collBroadcast .. | .collAlltoall .. | .collSend .. | .collRecv ..
    | .chainPass .. | .openReceive .. | .nakReceived .. | .dataReceive .. | .abortReceive .. | .signalAckReceive ..
    | .clearingHoldDrained .. | .clrHoldTimeout .. | .barrierRecordReceive .. | .barrierVerdictReceive ..
    | .captureDone .. | .snapshotFrameReceive .. | .trailMirrorReceive .. | .mark .. | .heartbeatMiss ..
    | .lostNoticeReceive .. | .restoreCopyDone .. | .hubCtrlUc .. | .unitState .. | .railFault .. | .clockLoss ..
    | .rangerWdt .. | .thermalSensorSample .. | .bootStageDone .. | .fuseCheck .. | .censusDone .. | .flashCmdDone ..
    | .serviceButton .. | .parkFence .. | .latchSensorOpen .. | .phyRetrainDone .. | .restoreFrameReceive .. => true
  | _ => false

end Sys2Proof.Claims

open Sys2Proof Sys2Proof.Machine Sys2Proof.Machine.State Sys2Proof.Claims in
/-- What each command leaves unchanged, part by part. (R20, R23, R115, R131, 18_register_pages.md.) -/
def Obligations.FramesOfTheCommands : Prop :=
  ∀ (c : Instr) (s t : State), exec c s = .next t → t.pending = s.pending ∧
    (throughAPort c = false →
      ((∀ i b, c ≠ .bootStageDone i b) → t.fuses = s.fuses) ∧ t.now = s.now ∧
      ((∀ off bs ep, c ≠ .pcieMemoryWrite off bs ep) → (∀ off n ups, c ≠ .pcieMemoryRead off n ups) → t.waits = s.waits) ∧
      (changesEngines c = false → t.te = s.te) ∧
      (changesScales c = false → t.scale = s.scale) ∧
      (changesColl c = false → t.coll = s.coll) ∧
      (changesOptics c = false → t.optics = s.optics) ∧
      (changesSnap c = false → t.snap = s.snap) ∧
      (changesFlash c = false → t.mem.lineCand = s.mem.lineCand → t.mem.rowCand = s.mem.rowCand → t.flash = s.flash) ∧
      (changesHost c = false → t.mem.lineCand = s.mem.lineCand → t.mem.rowCand = s.mem.rowCand → t.host = s.host) ∧
      (changesSvc c = false → t.svc = s.svc) ∧
      (changesNet c = false → t.net = s.net) ∧
      (changesSeq c = false → t.seq = s.seq) ∧
      (changesErrors c = false → t.err = s.err) ∧
      (changesPower c = false → t.pwr = s.pwr) ∧
      (changesRegisters c = false → t.rf = s.rf) ∧
      (changesMemory c = false → ∀ a, t.mem.readByte a = s.mem.readByte a))
end

