-- ==== Sys2Proof/Laws/Sparse.lean ====
section
/-!
SUPPORT. The laws of sparse tables: read after write, and the canonical form is kept.
-/
namespace Sys2Proof.Machine

variable {α : Type}

theorem sparseGet_insert_same (d : Nat → α) (k : Nat) (v : α) (m : List (Nat × α)) :
    sparseGet d (sparseInsert k v m) k = v := by
  induction m with
  | nil => simp [sparseInsert, sparseGet]
  | cons p r ih =>
    obtain ⟨k', v'⟩ := p
    simp only [sparseInsert]
    split
    · simp [sparseGet]
    · split
      · simp [sparseGet]
      · simp [sparseGet, *]

theorem sparseGet_insert_other (d : Nat → α) {k j : Nat} (h : j ≠ k) (v : α) (m : List (Nat × α)) :
    sparseGet d (sparseInsert k v m) j = sparseGet d m j := by
  induction m with
  | nil => simp [sparseInsert, sparseGet, h]
  | cons p r ih =>
    obtain ⟨k', v'⟩ := p
    simp only [sparseInsert]
    split
    · simp [sparseGet, h]
    · split
      · rename_i hk; subst hk; simp [sparseGet, h]
      · simp [sparseGet, ih]

theorem sparseGet_erase_same (d : Nat → α) (k : Nat) (m : List (Nat × α)) :
    sparseGet d (sparseErase k m) k = d k := by
  induction m with
  | nil => rfl
  | cons p r ih =>
    obtain ⟨k', v'⟩ := p
    simp only [sparseErase]
    split
    · exact ih
    · rename_i hk; simp [sparseGet, hk, ih]

theorem sparseGet_erase_other (d : Nat → α) {k j : Nat} (h : j ≠ k) (m : List (Nat × α)) :
    sparseGet d (sparseErase k m) j = sparseGet d m j := by
  induction m with
  | nil => rfl
  | cons p r ih =>
    obtain ⟨k', v'⟩ := p
    simp only [sparseErase]
    split
    · rename_i hk; subst hk; simp [sparseGet, h, ih]
    · simp [sparseGet, ih]

/-- A read after a write of the same key gives the value written. -/
@[simp] theorem sparseGet_put_same [DecidableEq α] (d : Nat → α) (k : Nat) (v : α) (m : List (Nat × α)) :
    sparseGet d (sparsePut d k v m) k = v := by
  unfold sparsePut
  split
  · rename_i h; rw [sparseGet_erase_same, h]
  · exact sparseGet_insert_same d k v m

/-- A write leaves every other key alone. -/
theorem sparseGet_put_other [DecidableEq α] (d : Nat → α) {k j : Nat} (h : j ≠ k) (v : α) (m : List (Nat × α)) :
    sparseGet d (sparsePut d k v m) j = sparseGet d m j := by
  unfold sparsePut
  split
  · exact sparseGet_erase_other d h m
  · exact sparseGet_insert_other d h v m

theorem sparseAbove_insert {j k : Nat} (h : j < k) (v : α) (m : List (Nat × α)) (hm : sparseAbove j m = true) :
    sparseAbove j (sparseInsert k v m) = true := by
  induction m with
  | nil => simp [sparseInsert, sparseAbove, h]
  | cons p r ih =>
    obtain ⟨k', v'⟩ := p
    simp only [sparseAbove, Bool.and_eq_true, decide_eq_true_eq] at hm
    simp only [sparseInsert]
    split
    · simp [sparseAbove, h, hm]
    · split
      · simp [sparseAbove, h, hm]
      · simp [sparseAbove, hm.1, ih hm.2]

theorem sparseAbove_erase {j k : Nat} (m : List (Nat × α)) (hm : sparseAbove j m = true) :
    sparseAbove j (sparseErase k m) = true := by
  induction m with
  | nil => rfl
  | cons p r ih =>
    obtain ⟨k', v'⟩ := p
    simp only [sparseAbove, Bool.and_eq_true, decide_eq_true_eq] at hm
    simp only [sparseErase]
    split
    · exact ih hm.2
    · simp [sparseAbove, hm.1, ih hm.2]

theorem sparseAbove_trans {j k : Nat} (h : j < k) (m : List (Nat × α)) (hm : sparseAbove k m = true) :
    sparseAbove j m = true := by
  induction m with
  | nil => rfl
  | cons p r ih =>
    obtain ⟨k', v'⟩ := p
    simp only [sparseAbove, Bool.and_eq_true, decide_eq_true_eq] at hm ⊢
    exact ⟨by omega, ih hm.2⟩

theorem sparseWf_insert [DecidableEq α] (d : Nat → α) (k : Nat) (v : α) (hv : v ≠ d k) (m : List (Nat × α))
    (hm : sparseWf d m = true) : sparseWf d (sparseInsert k v m) = true := by
  induction m with
  | nil => simp [sparseInsert, sparseWf, sparseAbove, hv]
  | cons p r ih =>
    obtain ⟨k', v'⟩ := p
    simp only [sparseWf, Bool.and_eq_true, decide_eq_true_eq] at hm
    simp only [sparseInsert]
    split
    · rename_i h
      simp [sparseWf, sparseAbove, hv, h, hm, sparseAbove_trans h r hm.1.2]
    · split
      · rename_i h; subst h; simp [sparseWf, hv, hm]
      · have : k' < k := by omega
        simp [sparseWf, hm, ih hm.2, sparseAbove_insert this v r hm.1.2]

theorem sparseWf_erase [DecidableEq α] (d : Nat → α) (k : Nat) (m : List (Nat × α)) (hm : sparseWf d m = true) :
    sparseWf d (sparseErase k m) = true := by
  induction m with
  | nil => rfl
  | cons p r ih =>
    obtain ⟨k', v'⟩ := p
    simp only [sparseWf, Bool.and_eq_true, decide_eq_true_eq] at hm
    simp only [sparseErase]
    split
    · exact ih hm.2
    · simp [sparseWf, hm, ih hm.2, sparseAbove_erase r hm.1.2]

/-- A write keeps the canonical form. -/
theorem sparseWf_put [DecidableEq α] (d : Nat → α) (k : Nat) (v : α) (m : List (Nat × α))
    (hm : sparseWf d m = true) : sparseWf d (sparsePut d k v m) = true := by
  unfold sparsePut
  split
  · exact sparseWf_erase d k m hm
  · rename_i h; exact sparseWf_insert d k v h m hm

theorem sparseAbove_filter (p : Nat × α → Bool) (j : Nat) (m : List (Nat × α)) (hm : sparseAbove j m = true) :
    sparseAbove j (m.filter p) = true := by
  induction m with
  | nil => rfl
  | cons q r ih =>
    simp only [sparseAbove, Bool.and_eq_true, decide_eq_true_eq] at hm
    simp only [List.filter_cons]
    split
    · simp [sparseAbove, hm.1, ih hm.2]
    · exact ih hm.2

/-- Dropping entries keeps the canonical form. -/
theorem sparseWf_filter [DecidableEq α] (d : Nat → α) (p : Nat × α → Bool) (m : List (Nat × α))
    (hm : sparseWf d m = true) : sparseWf d (m.filter p) = true := by
  induction m with
  | nil => rfl
  | cons q r ih =>
    simp only [sparseWf, Bool.and_eq_true, decide_eq_true_eq] at hm
    simp only [List.filter_cons]
    split
    · simp [sparseWf, hm, ih hm.2, sparseAbove_filter p q.1 r hm.1.2]
    · exact ih hm.2

end Sys2Proof.Machine
end

