-- ==== Sys2Proof/Laws/Memory.lean ====
section
/-!
SUPPORT. The laws of memory: every operation keeps the canonical form and the correction queues' bound, and a write
leaves every word it does not touch alone.
-/
namespace Sys2Proof.Machine

/-! ### Queues -/

/-- Marking entries stale leaves every queue's depth alone. -/
@[simp] theorem corrDepth_markStale (m : Member) (o wa : Nat) (q : List CorrEntry) :
    corrDepth m o (markStale wa q) = corrDepth m o q := by
  induction q with
  | nil => rfl
  | cons e r ih =>
    simp only [corrDepth, markStale, List.filter_cons] at ih ⊢
    have h : (if e.addr = wa then { e with stale := true } else e).addr = e.addr := by split <;> rfl
    rw [h]
    split <;> simp [ih]

theorem corrDepth_filter (m : Member) (o : Nat) (p : CorrEntry → Bool) (q : List CorrEntry) :
    corrDepth m o (q.filter p) ≤ corrDepth m o q := by
  exact (List.filter_sublist.filter _).length_le

theorem corrDepth_erase (m : Member) (o : Nat) (e : CorrEntry) (q : List CorrEntry) :
    corrDepth m o (q.erase e) ≤ corrDepth m o q :=
  ((List.erase_sublist).filter _).length_le

theorem corrDepth_append (m : Member) (o : Nat) (e : CorrEntry) (q : List CorrEntry) :
    corrDepth m o (q ++ [e]) = corrDepth m o q + (if corrOwner m e.addr = o then 1 else 0) := by
  unfold corrDepth
  rw [List.filter_append, List.length_append]
  simp only [List.filter_cons, List.filter_nil]
  split <;> simp_all

/-! ### What every operation keeps -/

/-- The canonical form is kept, and no correction queue grows past 16. -/
structure MemSt.Keeps (mb : Member) (m m' : MemSt) : Prop where
  wf : m.wf = true → m'.wf = true
  corrq : (∀ o, corrDepth mb o m.corrq ≤ 16) → ∀ o, corrDepth mb o m'.corrq ≤ 16

namespace MemSt

variable {mb : Member}

theorem Keeps.refl (m : MemSt) : Keeps mb m m := ⟨id, id⟩
theorem Keeps.trans {a b c : MemSt} (h : Keeps mb a b) (k : Keeps mb b c) : Keeps mb a c :=
  ⟨fun x => k.wf (h.wf x), fun x => k.corrq (h.corrq x)⟩
/-- An operation that leaves data, check fields and queues alone. -/
theorem Keeps.of_eq {m m' : MemSt} (h : m'.cells = m.cells) (k : m'.chk = m.chk) (q : m'.corrq = m.corrq) : Keeps mb m m' :=
  ⟨by unfold MemSt.wf; rw [h, k]; exact id, by rw [q]; exact id⟩
/-- An operation that only shortens queues. -/
theorem Keeps.of_le {m m' : MemSt} (h : m'.cells = m.cells) (k : m'.chk = m.chk)
    (q : ∀ o, corrDepth mb o m'.corrq ≤ corrDepth mb o m.corrq) : Keeps mb m m' :=
  ⟨by unfold MemSt.wf; rw [h, k]; exact id, fun x o => Nat.le_trans (q o) (x o)⟩

theorem setByte_keeps (m : MemSt) (a : Nat) (b : Byte) : Keeps mb m (m.setByte a b) := by
  refine ⟨fun h => ?_, id⟩
  simp only [wf, setByte, Bool.and_eq_true] at h ⊢
  exact ⟨sparseWf_put _ a b _ h.1, h.2⟩

theorem setDiff_keeps (m : MemSt) (wa : Nat) (d : BitVec 16) : Keeps mb m (m.setDiff wa d) := by
  refine ⟨fun h => ?_, id⟩
  simp only [wf, setDiff, Bool.and_eq_true] at h ⊢
  exact ⟨h.1, sparseWf_put _ wa d _ h.2⟩

theorem putBytes_keeps (m : MemSt) (a v n : Nat) : Keeps mb m (m.putBytes a v n) := by
  induction n generalizing m a v with
  | zero => exact Keeps.refl m
  | succ n ih => exact (m.setByte_keeps a _).trans (ih _ _ _)

theorem putWord_keeps (m : MemSt) (wa data : Nat) (poison : Bool) : Keeps mb m (m.putWord wa data poison) := by
  unfold putWord
  have h := (putBytes_keeps (mb := mb) m wa (if poison then 0 else data) 8).trans
    (setDiff_keeps _ wa (if poison then poisonField else 0))
  exact h.trans (Keeps.of_le rfl rfl fun o => Nat.le_of_eq (corrDepth_markStale mb o wa _))

theorem flip_keeps (m : MemSt) (wa pos : Nat) : Keeps mb m (m.flip wa pos) :=
  (m.putBytes_keeps wa _ 8).trans (setDiff_keeps _ wa _)

theorem upset_keeps (m : MemSt) (x : Member) (l : List (Nat × Nat)) : Keeps mb m (m.upset x l) := by
  induction l generalizing m with
  | nil => exact Keeps.refl m
  | cons p r ih =>
    obtain ⟨a, pos⟩ := p
    unfold upset
    split
    · exact (m.flip_keeps (wordOf a) pos).trans (ih _)
    · exact ih _

theorem flips_keep (m : MemSt) (wa : Nat) (l : List Nat) :
    Keeps mb m (l.foldl (fun (m : MemSt) pos => m.flip wa pos) m) := by
  induction l generalizing m with
  | nil => exact Keeps.refl m
  | cons p r ih => exact (m.flip_keeps wa p).trans (ih _)

theorem writeWordBytes_keeps (m : MemSt) (wa : Nat) (bs : List WByte) : Keeps mb m (m.writeWordBytes wa bs) := by
  unfold writeWordBytes
  split
  · exact m.putWord_keeps ..
  · split
    · exact m.putWord_keeps ..
    · split <;> exact m.putWord_keeps ..

theorem writeWords_keeps (m : MemSt) (bs : List WByte) (l : List Nat) : Keeps mb m (m.writeWords bs l) := by
  induction l generalizing m with
  | nil => exact Keeps.refl m
  | cons wa r ih => exact (m.writeWordBytes_keeps wa _).trans (ih _)

/-- A write keeps the canonical form. -/
theorem write_keeps (m : MemSt) (bs : List WByte) : Keeps mb m (m.write bs) := m.writeWords_keeps bs _

/-- Dropping entries keeps the canonical form. -/
theorem filter_wf (m : MemSt) (p : Nat × Byte → Bool) (q : Nat × BitVec 16 → Bool) (h : m.wf = true) (m' : MemSt)
    (hc : m'.cells = m.cells.filter p) (hd : m'.chk = m.chk.filter q) : m'.wf = true := by
  simp only [wf, Bool.and_eq_true] at h ⊢
  rw [hc, hd]
  exact ⟨sparseWf_filter _ p _ h.1, sparseWf_filter _ q _ h.2⟩

/-! ### Read after write -/

@[simp] theorem byte_setByte_same (m : MemSt) (a : Nat) (b : Byte) : (m.setByte a b).byte a = b := by
  simp [byte, setByte]
theorem byte_setByte_other (m : MemSt) {a a' : Nat} (h : a' ≠ a) (b : Byte) : (m.setByte a b).byte a' = m.byte a' := by
  simp [byte, setByte, sparseGet_put_other _ h]
@[simp] theorem chk_setByte (m : MemSt) (a : Nat) (b : Byte) : (m.setByte a b).chk = m.chk := rfl
@[simp] theorem byte_setDiff (m : MemSt) (wa a : Nat) (d : BitVec 16) : (m.setDiff wa d).byte a = m.byte a := rfl
@[simp] theorem diff_setDiff_same (m : MemSt) (wa : Nat) (d : BitVec 16) : (m.setDiff wa d).diff wa = d := by
  simp [diff, setDiff]
theorem diff_setDiff_other (m : MemSt) {wa wb : Nat} (h : wb ≠ wa) (d : BitVec 16) :
    (m.setDiff wa d).diff wb = m.diff wb := by simp [diff, setDiff, sparseGet_put_other _ h]

@[simp] theorem chk_putBytes (m : MemSt) (a v n : Nat) : (m.putBytes a v n).chk = m.chk := by
  induction n generalizing m a v with
  | zero => rfl
  | succ n ih => exact (ih _ _ _).trans rfl
@[simp] theorem diff_putBytes (m : MemSt) (a v n wa : Nat) : (m.putBytes a v n).diff wa = m.diff wa := by
  simp [diff]

theorem byte_putBytes_other (m : MemSt) (a v n b : Nat) (h : b < a ∨ a + n ≤ b) : (m.putBytes a v n).byte b = m.byte b := by
  induction n generalizing m a v with
  | zero => rfl
  | succ n ih =>
    have h1 : b ≠ a := by omega
    have h2 : b < a + 1 ∨ a + 1 + n ≤ b := by omega
    exact (ih _ _ _ h2).trans (byte_setByte_other m h1 _)

theorem byte_putBytes_in (m : MemSt) (a v n i : Nat) (h : i < n) :
    (m.putBytes a v n).byte (a + i) = BitVec.ofNat 8 (v / 256 ^ i % 256) := by
  induction n generalizing m a v i with
  | zero => omega
  | succ n ih =>
    cases i with
    | zero =>
      have h1 : a < a + 1 ∨ a + 1 + n ≤ a := by omega
      have h2 := (byte_putBytes_other (m.setByte a (BitVec.ofNat 8 (v % 256))) (a + 1) (v / 256) n a h1).trans
        (byte_setByte_same m a _)
      simpa [putBytes] using h2
    | succ i =>
      have := ih (m.setByte a (BitVec.ofNat 8 (v % 256))) (a + 1) (v / 256) i (by omega)
      rw [show a + 1 + i = a + (i + 1) by omega] at this
      refine this.trans ?_
      rw [Nat.div_div_eq_div_mul, Nat.pow_succ, Nat.mul_comm]

theorem rawBytes_congr (m m' : MemSt) (a n : Nat) (h : ∀ i, i < n → m'.byte (a + i) = m.byte (a + i)) :
    m'.rawBytes a n = m.rawBytes a n := by
  induction n generalizing a with
  | zero => rfl
  | succ n ih =>
    have h0 := h 0 (by omega)
    have h1 := ih (a + 1) (fun i hi => by have := h (i + 1) (by omega); rwa [show a + (i + 1) = a + 1 + i by omega] at this)
    simp only [rawBytes, Nat.add_zero] at *
    rw [h0, h1]

/-- Two memories agree at a word: its stored data and its check field. -/
def sameWord (m m' : MemSt) (wa : Nat) : Prop := m'.rawWord wa = m.rawWord wa ∧ m'.diff wa = m.diff wa

theorem sameWord.data {m m' : MemSt} {wa : Nat} (h : sameWord m m' wa) : m'.wordData wa = m.wordData wa := by
  unfold wordData ecc; rw [h.1, h.2]
theorem sameWord.poison {m m' : MemSt} {wa : Nat} (h : sameWord m m' wa) : m'.wordPoison wa = m.wordPoison wa := by
  unfold wordPoison ecc; rw [h.2]
theorem sameWord.trans {a b c : MemSt} {wa : Nat} (h : sameWord a b wa) (k : sameWord b c wa) : sameWord a c wa :=
  ⟨k.1.trans h.1, k.2.trans h.2⟩

theorem putWord_other (m : MemSt) {wa wb : Nat} (data : Nat) (poison : Bool) (h : wb + 8 ≤ wa ∨ wa + 8 ≤ wb) :
    sameWord m (m.putWord wa data poison) wb := by
  constructor
  · refine rawBytes_congr _ _ _ _ fun i hi => ?_
    exact byte_putBytes_other m wa _ 8 _ (by omega)
  · refine (diff_setDiff_other _ (by omega) _).trans ?_
    simp

theorem writeWordBytes_other (m : MemSt) {wa wb : Nat} (bs : List WByte) (h : wb + 8 ≤ wa ∨ wa + 8 ≤ wb) :
    sameWord m (m.writeWordBytes wa bs) wb := by
  unfold writeWordBytes
  split
  · exact putWord_other m _ _ h
  · split
    · exact putWord_other m _ _ h
    · split <;> exact putWord_other m _ _ h

theorem writeWords_other (m : MemSt) (bs : List WByte) (l : List Nat) (wb : Nat)
    (h : ∀ wa ∈ l, wb + 8 ≤ wa ∨ wa + 8 ≤ wb) : sameWord m (m.writeWords bs l) wb := by
  induction l generalizing m with
  | nil => exact ⟨rfl, rfl⟩
  | cons wa r ih =>
    exact (writeWordBytes_other m (bytesIn wa bs) (h wa (by simp))).trans (ih _ fun x hx => h x (by simp [hx]))

theorem touchedWords_aligned (bs : List WByte) : ∀ wa ∈ touchedWords bs, wa % 8 = 0 := by
  induction bs with
  | nil => simp [touchedWords]
  | cons b r ih =>
    intro wa h
    simp only [touchedWords, List.mem_cons, List.mem_filter] at h
    rcases h with rfl | h
    · simp [wordOf]
    · exact ih wa h.1

theorem mem_touchedWords (bs : List WByte) (wa : Nat) : wa ∈ touchedWords bs ↔ ∃ b ∈ bs, wordOf b.addr = wa := by
  induction bs with
  | nil => simp [touchedWords]
  | cons b r ih =>
    simp only [touchedWords, List.mem_cons, List.mem_filter, ih, decide_eq_true_eq, exists_eq_or_imp]
    by_cases h : wa = wordOf b.addr
    · simp [h]
    · constructor
      · rintro (h' | ⟨h', _⟩)
        · exact absurd h' h
        · exact Or.inr h'
      · rintro (h' | h')
        · exact absurd h'.symm h
        · exact Or.inr ⟨h', h⟩

/-- A byte of a word that a write does not touch reads as before. -/
theorem readByte_write_other (m : MemSt) (bs : List WByte) (a : Nat) (h : ∀ b ∈ bs, wordOf b.addr ≠ wordOf a) :
    (m.write bs).readByte a = m.readByte a ∧ (m.write bs).poisoned a = m.poisoned a := by
  have k : sameWord m (m.write bs) (wordOf a) := by
    refine writeWords_other m bs _ _ fun wa hw => ?_
    have h1 := touchedWords_aligned bs wa hw
    obtain ⟨b, hb, hw⟩ := (mem_touchedWords bs wa).1 hw
    have := h b hb
    simp only [wordOf] at *
    omega
  exact ⟨by unfold readByte; rw [k.data], k.poison⟩

end MemSt
end Sys2Proof.Machine
end

