-- ==== Sys2Proof/Laws/Keeps.lean ====
section
/-!
SUPPORT. What every operation keeps: the queue of commands, the fuses but the security version, the canonical forms of
memory and the register file, and the bounds of the error FIFO and the correction queues. One lemma per operation.
-/
namespace Sys2Proof.Machine

/-- What every operation keeps between a state and a later one. -/
structure Keeps (s t : State) : Prop where
  pending : t.pending = s.pending
  fuses : t.fuses = { s.fuses with svn := t.fuses.svn }
  svn : s.fuses.svn ≤ 64 → s.fuses.svn ≤ t.fuses.svn ∧ t.fuses.svn ≤ 64
  free : s.free ≤ t.free
  mem : s.mem.Keeps s.fuses.member t.mem
  regs : s.regsWf = true → t.regsWf = true
  fifo : s.err.fifo.length ≤ 64 → t.err.fifo.length ≤ 64

theorem Keeps.member {s t : State} (h : Keeps s t) : t.fuses.member = s.fuses.member := by rw [h.fuses]

theorem Keeps.refl (s : State) : Keeps s s :=
  ⟨rfl, rfl, fun h => ⟨Nat.le_refl _, h⟩, Nat.le_refl _, .refl _, id, id⟩

theorem keeps_opt {s₀ x a : State} {c : Prop} [Decidable c] (hx : Keeps s₀ x) (ha : Keeps s₀ x → Keeps s₀ a) :
    Keeps s₀ (if c then a else x) := by split <;> simp_all
theorem keeps_opt' {s₀ x a : State} {c : Prop} [Decidable c] (hx : Keeps s₀ x) (ha : Keeps s₀ x → Keeps s₀ a) :
    Keeps s₀ (if c then x else a) := by split <;> simp_all
theorem keeps_ite {s₀ a b : State} {c : Prop} [Decidable c] (ha : Keeps s₀ a) (hb : Keeps s₀ b) :
    Keeps s₀ (if c then a else b) := by split <;> assumption
theorem keeps_ite_fst {α : Type} {s₀ : State} {a b : State × α} {c : Prop} [Decidable c] (ha : Keeps s₀ a.1)
    (hb : Keeps s₀ b.1) : Keeps s₀ (if c then a else b).1 := by split <;> assumption
theorem keeps_cond {s₀ a b : State} {c : Bool} (ha : Keeps s₀ a) (hb : Keeps s₀ b) :
    Keeps s₀ (bif c then a else b) := by cases c <;> assumption
theorem keeps_foldl {α : Type} {s₀ s : State} {f : State → α → State} (hf : ∀ x a, Keeps s₀ x → Keeps s₀ (f x a))
    (l : List α) (h : Keeps s₀ s) : Keeps s₀ (l.foldl f s) := by
  induction l generalizing s with
  | nil => exact h
  | cons a r ih => exact ih (hf s a h)
theorem keeps_foldl_fst {α β : Type} {s₀ : State} {p : State × β} {f : State × β → α → State × β}
    (hf : ∀ x a, Keeps s₀ x.1 → Keeps s₀ (f x a).1) (l : List α) (h : Keeps s₀ p.1) : Keeps s₀ (l.foldl f p).1 := by
  induction l generalizing p with
  | nil => exact h
  | cons a r ih => exact ih (hf p a h)

/-- An update of other fields. -/
theorem Keeps.mk_upd {s₀ x : State} {now out rf seq te scale err coll net optics snap flash pwr host svc waits woken}
    (h : Keeps s₀ x) (hr : rf.cells = x.rf.cells) (he : err.fifo = x.err.fifo) :
    Keeps s₀ (State.mk x.pending now x.free out x.fuses rf x.mem seq te scale err coll net optics snap flash pwr host svc waits woken) := by
  obtain ⟨a, b, c, d, e, f, g⟩ := h
  exact ⟨a, b, c, d, e, fun z => by simpa [State.regsWf, hr] using f z, fun z => by simpa [he] using g z⟩

/-- An update of memory. -/
theorem Keeps.mk_mem {s₀ x : State} {now out rf mem seq te scale err coll net optics snap flash pwr host svc waits woken}
    (h : Keeps s₀ x) (hr : rf.cells = x.rf.cells) (he : err.fifo = x.err.fifo) (hm : x.mem.Keeps s₀.fuses.member mem) :
    Keeps s₀ (State.mk x.pending now x.free out x.fuses rf mem seq te scale err coll net optics snap flash pwr host svc waits woken) := by
  obtain ⟨a, b, c, d, e, f, g⟩ := h
  exact ⟨a, b, c, d, e.trans hm, fun z => by simpa [State.regsWf, hr] using f z, fun z => by simpa [he] using g z⟩

/-- The error FIFO never grows past 64 entries (14 R359). -/
theorem enter_fifo (e : ErrSt) (code page detail rank time : Nat) (h : e.fifo.length ≤ 64) :
    (e.enter code page detail rank time).1.fifo.length ≤ 64 := by
  unfold ErrSt.enter
  dsimp only
  split
  · rename_i x hx
    have : 0 < e.fifo.length := by
      cases hf : e.fifo with
      | nil => simp [hf] at hx
      | cons a r => simp
    split
    · simp only [List.length_append, List.length_dropLast, List.length_cons, List.length_nil]; omega
    · by_cases hl : e.fifo.length < (if errClass code = 4 then 64 else 63)
      · rw [if_pos hl]
        have : e.fifo.length < 64 := by split at hl <;> omega
        simp only [List.length_append, List.length_cons, List.length_nil]; omega
      · rw [if_neg hl]; exact h
  · simp

/-- An outcome that is a next state, which keeps what every operation keeps. -/
def NextKeeps (s : State) (o : Host.Outcome State Fault Refusal) : Prop := ∃ t, o = .next t ∧ Keeps s t

theorem next_keeps {s₀ t : State} (h : Keeps s₀ t) : NextKeeps s₀ (.next t) := ⟨t, rfl, h⟩
theorem next_ite {s₀ : State} {a b : Host.Outcome State Fault Refusal} {c : Prop} [Decidable c] (ha : NextKeeps s₀ a)
    (hb : NextKeeps s₀ b) : NextKeeps s₀ (if c then a else b) := by split <;> assumption

/-- An update of the errors. -/
theorem Keeps.mk_err {s₀ x : State} {now out rf seq te scale err coll net optics snap flash pwr host svc waits woken}
    (h : Keeps s₀ x) (hr : rf.cells = x.rf.cells)
    (hf : x.err.fifo.length ≤ 64 → err.fifo.length ≤ 64) : Keeps s₀ (State.mk x.pending now x.free out x.fuses rf x.mem seq te scale err coll net optics snap flash pwr host svc waits woken) := by
  obtain ⟨a, b, c, d, e, f, g⟩ := h
  exact ⟨a, b, c, d, e, fun z => by simpa [State.regsWf, hr] using f z, fun z => hf (g z)⟩

/-- DEEP keeps the stacks' bytes. -/
theorem MemSt.strip_keeps (mb : Member) (m : MemSt) : m.Keeps mb { MemSt.reset with
    cells := m.cells.filter fun c => decide (0x10000000000 ≤ c.1), chk := m.chk.filter fun c => decide (0x10000000000 ≤ c.1),
    lineCand := m.lineCand, rowCand := m.rowCand, lineFix := m.lineFix, rowFix := m.rowFix } :=
  ⟨fun h => m.filter_wf _ _ h _ rfl rfl, fun _ _ => Nat.zero_le _⟩

/-- Queue entries that only turn stale. -/
theorem corrDepth_map (mb : Member) (o : Nat) (f : CorrEntry → CorrEntry) (hf : ∀ e, (f e).addr = e.addr)
    (q : List CorrEntry) : corrDepth mb o (q.map f) = corrDepth mb o q := by
  unfold corrDepth
  rw [List.filter_map, List.length_map]
  congr 1
  refine List.filter_congr fun e _ => ?_
  simp [hf]

/-- A census clears its MiB. -/
theorem MemSt.census_keeps (mb : Member) (m : MemSt) (p : Nat × Byte → Bool) (q : Nat × BitVec 16 → Bool)
    (c : Nat → Prop) [DecidablePred c] : m.Keeps mb { m with
    cells := m.cells.filter p, chk := m.chk.filter q,
    corrq := m.corrq.map fun e => if c e.addr then { e with stale := true } else e } := by
  refine ⟨fun h => m.filter_wf _ _ h _ rfl rfl, fun z o => ?_⟩
  show corrDepth mb o (m.corrq.map _) ≤ 16
  rw [corrDepth_map mb o _ (fun e => by split <;> rfl)]
  exact z o

/-- ALERT# moves alone. -/
theorem keeps_alert {s₀ x : State} (b : Bool) (h : Keeps s₀ x) : Keeps s₀ { x with err := { x.err with alert := b } } :=
  ⟨h.pending, h.fuses, h.svn, h.free, h.mem, h.regs, h.fifo⟩
theorem keeps_pwr {s₀ x : State} (p : PwrSt) (h : Keeps s₀ x) : Keeps s₀ { x with pwr := p } :=
  ⟨h.pending, h.fuses, h.svn, h.free, h.mem, h.regs, h.fifo⟩

theorem keeps_id {s₀ x : State} (h : Keeps s₀ x) : Keeps s₀ (id x) := h

variable {s₀ : State}

theorem State.setReg_keeps {s : State} (page off : Nat) (v : Word) (h : Keeps s₀ s) : Keeps s₀ (State.setReg s
    page off v) := by
  obtain ⟨a, b, c, d, e, f, g⟩ := h
  refine ⟨a, b, c, d, e, fun z => ?_, g⟩
  exact sparseWf_put _ _ v _ (f z)

theorem State.fset_keeps {s : State} (page : Nat) (f : Fd) (v : Nat) (h : Keeps s₀ s) : Keeps s₀ (State.fset s
    page f v) := by
  unfold State.fset
  with_reducible repeat' (first
    | assumption | (intro _) | exact Keeps.refl _ | apply State.setReg_keeps | dsimp only
    | (refine Keeps.mk_upd ?_ rfl rfl))

theorem State.setPair_keeps {s : State} (page : Nat) (f : Fd) (v : Nat) (h : Keeps s₀ s) : Keeps s₀
    (State.setPair s page f v) := by
  unfold State.setPair
  with_reducible repeat' (first
    | assumption | (intro _) | exact Keeps.refl _ | apply State.setReg_keeps | dsimp only
    | (refine Keeps.mk_upd ?_ rfl rfl))

theorem State.useFree_keeps {s : State} (h : Keeps s₀ s) : Keeps s₀ (State.useFree s) := by
  obtain ⟨a, b, c, d, e, f, g⟩ := h
  exact ⟨a, b, c, Nat.le_succ_of_le d, e, f, g⟩

theorem State.addWrap_keeps {s : State} (page : Nat) (f : Fd) (n : Nat) (h : Keeps s₀ s) : Keeps s₀
    (State.addWrap s page f n) := by
  unfold State.addWrap
  with_reducible repeat' (first
    | assumption | (intro _) | exact Keeps.refl _ | apply State.fset_keeps | dsimp only
    | (refine Keeps.mk_upd ?_ rfl rfl))

theorem State.addPair_keeps {s : State} (page : Nat) (f : Fd) (n : Nat) (h : Keeps s₀ s) : Keeps s₀
    (State.addPair s page f n) := by
  unfold State.addPair
  with_reducible repeat' (first
    | assumption | (intro _) | exact Keeps.refl _ | apply State.setPair_keeps | dsimp only
    | (refine Keeps.mk_upd ?_ rfl rfl))

theorem State.addSat_keeps {s : State} (page : Nat) (f : Fd) (n : Nat) (h : Keeps s₀ s) : Keeps s₀ (State.addSat
    s page f n) := by
  unfold State.addSat
  with_reducible repeat' (first
    | assumption | (intro _) | exact Keeps.refl _ | apply State.fset_keeps | dsimp only
    | (refine Keeps.mk_upd ?_ rfl rfl))

theorem State.addFree_keeps {s : State} (page : Nat) (f : Fd) (n : Nat) (h : Keeps s₀ s) : Keeps s₀
    (State.addFree s page f n) := by
  unfold State.addFree
  with_reducible repeat' (first
    | assumption | (intro _) | exact Keeps.refl _ | apply State.fset_keeps | apply State.useFree_keeps
    | apply keeps_opt | apply keeps_opt' | apply keeps_ite | (split) | dsimp only | (refine Keeps.mk_upd ?_ rfl rfl))

theorem State.wearFlash_keeps {s : State} (h : Keeps s₀ s) : Keeps s₀ (State.wearFlash s) := by
  unfold State.wearFlash
  with_reducible repeat' (first
    | assumption | (intro _) | exact Keeps.refl _ | apply State.useFree_keeps | apply State.fset_keeps
    | apply keeps_opt | apply keeps_opt' | apply keeps_ite | (split) | dsimp only | (refine Keeps.mk_upd ?_ rfl rfl))

theorem State.count_keeps {s : State} (page : Nat) (f : Fd) (h : Keeps s₀ s) : Keeps s₀ (State.count s page f) := by
  unfold State.count
  with_reducible repeat' (first
    | assumption | (intro _) | exact Keeps.refl _ | apply State.addFree_keeps | dsimp only
    | (refine Keeps.mk_upd ?_ rfl rfl))

theorem State.emit_keeps {s : State} (o : Output) (h : Keeps s₀ s) : Keeps s₀ (State.emit s o) := by
  unfold State.emit
  with_reducible repeat' (first
    | assumption | (intro _) | exact Keeps.refl _ | dsimp only | (refine Keeps.mk_upd ?_ rfl rfl))

theorem State.start_keeps {s : State} (h : Keeps s₀ s) : Keeps s₀ (State.start s) := by
  unfold State.start
  with_reducible repeat' (first
    | assumption | (intro _) | exact Keeps.refl _ | dsimp only | (refine Keeps.mk_upd ?_ rfl rfl))

theorem State.tick_keeps {s : State} (h : Keeps s₀ s) : Keeps s₀ (State.tick s) := by
  unfold State.tick
  with_reducible repeat' (first
    | assumption | (intro _) | exact Keeps.refl _ | dsimp only | (refine Keeps.mk_upd ?_ rfl rfl))

theorem State.raiseVector_keeps {s : State} (v : Nat) (h : Keeps s₀ s) : Keeps s₀ (State.raiseVector s v) := by
  unfold State.raiseVector
  with_reducible repeat' (first
    | assumption | (intro _) | exact Keeps.refl _ | apply State.fset_keeps | apply State.emit_keeps
    | apply keeps_opt | apply keeps_opt' | apply keeps_ite | (split) | dsimp only | (refine Keeps.mk_upd ?_ rfl rfl))

theorem State.event_keeps {s : State} (ty : PageType) (i : Nat) (f : Fd) (h : Keeps s₀ s) : Keeps s₀
    (State.event s ty i f) := by
  unfold State.event
  with_reducible repeat' (first
    | assumption | (intro _) | exact Keeps.refl _ | apply State.fset_keeps | apply State.raiseVector_keeps
    | apply keeps_opt | apply keeps_opt' | apply keeps_ite | (split) | dsimp only | (refine Keeps.mk_upd ?_ rfl rfl))

theorem State.svcEvent_keeps {s : State} (f : Fd) (h : Keeps s₀ s) : Keeps s₀ (State.svcEvent s f) := by
  unfold State.svcEvent
  with_reducible repeat' (first
    | assumption | (intro _) | exact Keeps.refl _ | apply State.fset_keeps | apply State.raiseVector_keeps
    | apply keeps_opt | apply keeps_opt' | apply keeps_ite | (split) | dsimp only | (refine Keeps.mk_upd ?_ rfl rfl))

theorem State.pageErr_keeps {s : State} (ty : PageType) (i code : Nat) (h : Keeps s₀ s) : Keeps s₀
    (State.pageErr s ty i code) := by
  unfold State.pageErr
  with_reducible repeat' (first
    | assumption | (intro _) | exact Keeps.refl _ | apply State.addSat_keeps | apply State.fset_keeps
    | apply keeps_opt | apply keeps_opt' | apply keeps_ite | (split) | dsimp only | (refine Keeps.mk_upd ?_ rfl rfl))

theorem State.errSummary_keeps {s : State} (cls : Nat) (h : Keeps s₀ s) : Keeps s₀ (State.errSummary s cls) := by
  unfold State.errSummary
  with_reducible repeat' (first
    | assumption | (intro _) | exact Keeps.refl _ | apply State.fset_keeps | apply State.raiseVector_keeps
    | apply keeps_opt | apply keeps_opt' | apply keeps_ite | (split) | dsimp only | (refine Keeps.mk_upd ?_ rfl rfl))

theorem State.errEvent_keeps {s : State} (ty : PageType) (i code detail rank : Nat) (h : Keeps s₀ s) : Keeps s₀
    (State.errEvent s ty i code detail rank) := by
  unfold State.errEvent
  have hp : Keeps s₀ (s.pageErr ty i code) := State.pageErr_keeps ty i code h
  generalize s.pageErr ty i code = u at hp
  have he : Keeps s₀ { u with err := (u.err.enter code (pageNum ty i) (detail % 2 ^ 32) (rank % 2 ^ 16) u.now).1 } := by
    obtain ⟨a, b, c, d, e, f, g⟩ := hp
    exact ⟨a, b, c, d, e, f, fun z => enter_fifo _ _ _ _ _ _ (g z)⟩
  with_reducible repeat' (first
    | assumption | (intro _) | exact Keeps.refl _ | apply State.pageErr_keeps | apply State.count_keeps
    | apply State.errSummary_keeps | apply keeps_opt | apply keeps_opt' | apply keeps_ite | apply keeps_ite_fst
    | apply keeps_foldl_fst | (split) | dsimp only | (refine Keeps.mk_upd ?_ rfl rfl))

theorem State.ctrlIgnored_keeps {s : State} (ty : PageType) (i off : Nat) (h : Keeps s₀ s) : Keeps s₀
    (State.ctrlIgnored s ty i off) := by
  unfold State.ctrlIgnored
  with_reducible repeat' (first
    | assumption | (intro _) | exact Keeps.refl _ | apply State.errEvent_keeps | apply State.event_keeps | (split)
    | dsimp only | (refine Keeps.mk_upd ?_ rfl rfl))

theorem State.saveCands_keeps {s : State} (h : Keeps s₀ s) : Keeps s₀ (State.saveCands s) := by
  unfold State.saveCands
  with_reducible repeat' (first
    | assumption | (intro _) | exact Keeps.refl _ | apply keeps_opt | apply keeps_opt' | apply keeps_ite
    | apply keeps_foldl | apply keeps_ite_fst | apply keeps_foldl_fst | (split) | dsimp only
    | (refine Keeps.mk_upd ?_ rfl rfl))

theorem State.candidate_keeps {s : State} (a : Nat) (h : Keeps s₀ s) : Keeps s₀ (State.candidate s a) := by
  unfold State.candidate
  with_reducible repeat' (first
    | assumption | (intro _) | exact Keeps.refl _ | apply State.saveCands_keeps | apply State.event_keeps
    | apply State.errEvent_keeps | apply keeps_opt | apply keeps_opt' | apply keeps_ite | (split) | dsimp only
    | (refine Keeps.mk_upd ?_ rfl rfl) | (refine Keeps.mk_mem ?_ rfl rfl ?_) | exact MemSt.write_keeps ..
    | exact MemSt.upset_keeps .. | exact MemSt.putWord_keeps ..)
  all_goals exact MemSt.Keeps.of_eq rfl rfl rfl

theorem State.queueCorrection_keeps {s : State} (a : Nat) (h : Keeps s₀ s) : Keeps s₀ (State.queueCorrection s
    a) := by
  unfold State.queueCorrection
  split
  · rename_i hlt
    have hm := h.member
    obtain ⟨a, b, c, d, e, f, g⟩ := h
    refine ⟨a, b, c, d, ⟨e.wf, fun z o => ?_⟩, f, g⟩
    have z' := e.corrq z o
    simp only [corrDepth_append]
    simp only [State.member] at hlt
    rw [hm] at hlt
    split
    · rename_i ho; subst ho; omega
    · simpa using z'
  · with_reducible repeat' (first
    | assumption | (intro _) | exact Keeps.refl _ | apply State.event_keeps | apply State.errEvent_keeps
    | apply State.count_keeps | apply keeps_opt | apply keeps_opt' | apply keeps_ite | (split) | dsimp only
    | (refine Keeps.mk_upd ?_ rfl rfl) | (refine Keeps.mk_mem ?_ rfl rfl ?_) | exact MemSt.write_keeps ..
    | exact MemSt.upset_keeps .. | exact MemSt.putWord_keeps ..)
  all_goals exact MemSt.Keeps.of_eq rfl rfl rfl

theorem State.noteCorrected_keeps {s : State} (a : Nat) (double : Bool) (h : Keeps s₀ s) : Keeps s₀
    (State.noteCorrected s a double) := by
  unfold State.noteCorrected
  with_reducible repeat' (first
    | assumption | (intro _) | exact Keeps.refl _ | apply State.event_keeps | apply State.errEvent_keeps
    | apply State.count_keeps | apply keeps_opt | apply keeps_opt' | apply keeps_ite | (split) | dsimp only
    | (refine Keeps.mk_upd ?_ rfl rfl))

theorem State.noteUncorrectable_keeps {s : State} (a : Nat) (h : Keeps s₀ s) : Keeps s₀ (State.noteUncorrectable
    s a) := by
  unfold State.noteUncorrectable
  with_reducible repeat' (first
    | assumption | (intro _) | exact Keeps.refl _ | apply State.fset_keeps | apply State.setPair_keeps
    | apply State.event_keeps | apply State.errEvent_keeps | apply State.count_keeps | apply keeps_opt
    | apply keeps_opt' | apply keeps_ite | (split) | dsimp only | (refine Keeps.mk_upd ?_ rfl rfl))

theorem State.notePoisonRead_keeps {s : State} (a : Nat) (h : Keeps s₀ s) : Keeps s₀ (State.notePoisonRead s a) := by
  unfold State.notePoisonRead
  with_reducible repeat' (first
    | assumption | (intro _) | exact Keeps.refl _ | apply State.event_keeps | apply State.count_keeps | (split)
    | dsimp only | (refine Keeps.mk_upd ?_ rfl rfl))

theorem State.readPoison_keeps {s : State} (wa : Nat) (h : Keeps s₀ s) : Keeps s₀ (State.readPoison s wa) := by
  unfold State.readPoison
  with_reducible repeat' (first
    | assumption | (intro _) | exact Keeps.refl _ | apply State.notePoisonRead_keeps | apply keeps_opt
    | apply keeps_opt' | apply keeps_ite | (split) | dsimp only | (refine Keeps.mk_upd ?_ rfl rfl))

theorem State.touchWord_keeps {s : State} (wa : Nat) (h : Keeps s₀ s) : Keeps s₀ (State.touchWord s wa) := by
  unfold State.touchWord
  with_reducible repeat' (first
    | assumption | (intro _) | exact Keeps.refl _ | apply State.readPoison_keeps | apply State.queueCorrection_keeps
    | apply State.noteCorrected_keeps | apply State.candidate_keeps | apply State.noteUncorrectable_keeps | (split)
    | dsimp only | (refine Keeps.mk_upd ?_ rfl rfl) | (refine Keeps.mk_mem ?_ rfl rfl ?_)
    | exact MemSt.write_keeps .. | exact MemSt.upset_keeps .. | exact MemSt.putWord_keeps ..)
  all_goals exact MemSt.Keeps.of_eq rfl rfl rfl

theorem State.touch_keeps {s : State} (x1 : List Nat) (h : Keeps s₀ s) : Keeps s₀ (State.touch s x1) := by
  induction x1 generalizing s with
  | nil => exact h
  | cons a r ih => exact ih (State.touchWord_keeps a h)

theorem State.stackBytes_keeps {s : State} (f : Fd) (a n : Nat) (h : Keeps s₀ s) : Keeps s₀ (State.stackBytes s
    f a n) := by
  unfold State.stackBytes
  with_reducible repeat' (first
    | assumption | (intro _) | exact Keeps.refl _ | apply State.addPair_keeps | (split) | dsimp only
    | (refine Keeps.mk_upd ?_ rfl rfl))

theorem State.store_keeps {s : State} (bs : List WByte) (h : Keeps s₀ s) : Keeps s₀ (State.store s bs) := by
  unfold State.store
  have h := State.touch_keeps (partialWords bs) h
  refine Keeps.mk_mem h rfl rfl ?_
  exact MemSt.write_keeps ..

theorem State.fabricFix_keeps {s : State} (x : Nat × Nat) (h : Keeps s₀ s) : Keeps s₀ (State.fabricFix s x) := by
  unfold State.fabricFix
  with_reducible repeat' (first
    | assumption | (intro _) | exact Keeps.refl _ | apply State.errEvent_keeps | apply State.count_keeps
    | apply keeps_opt | apply keeps_opt' | apply keeps_ite | apply keeps_ite_fst | apply keeps_foldl_fst | (split)
    | dsimp only | (refine Keeps.mk_upd ?_ rfl rfl))

theorem State.crossFabric_keeps {s : State} (rs : List (Nat × Nat)) (h : Keeps s₀ s) : Keeps s₀
    (State.crossFabric s rs) := by
  unfold State.crossFabric
  with_reducible repeat' (first
    | assumption | (intro _) | exact Keeps.refl _ | apply State.fabricFix_keeps | apply keeps_foldl
    | apply keeps_ite_fst | apply keeps_foldl_fst | (split) | dsimp only | (refine Keeps.mk_upd ?_ rfl rfl)
    | (refine Keeps.mk_mem ?_ rfl rfl ?_) | exact MemSt.write_keeps .. | exact MemSt.upset_keeps ..
    | exact MemSt.putWord_keeps ..)
  all_goals exact MemSt.Keeps.of_eq rfl rfl rfl

theorem State.crossFrom_keeps {s : State} (t : Nat) (rs : List (Nat × Nat)) (h : Keeps s₀ s) : Keeps s₀
    (State.crossFrom s t rs) := by
  unfold State.crossFrom
  with_reducible repeat' (first
    | assumption | (intro _) | exact Keeps.refl _ | apply State.crossFabric_keeps | apply keeps_ite_fst
    | apply keeps_foldl_fst | (split) | dsimp only | (refine Keeps.mk_upd ?_ rfl rfl))

theorem State.upset_keeps {s : State} (ups : List (Nat × Nat)) (h : Keeps s₀ s) : Keeps s₀ (State.upset s ups) := by
  unfold State.upset
  refine Keeps.mk_mem h rfl rfl ?_
  exact (MemSt.upset_keeps ..).trans (MemSt.Keeps.of_eq rfl rfl rfl)

theorem State.touchRange_keeps {s : State} (a n : Nat) (h : Keeps s₀ s) : Keeps s₀ (State.touchRange s a n) := by
  unfold State.touchRange
  with_reducible repeat' (first
    | assumption | (intro _) | exact Keeps.refl _ | apply State.stackBytes_keeps | apply State.touch_keeps
    | dsimp only | (refine Keeps.mk_upd ?_ rfl rfl))

theorem State.storeRange_keeps {s : State} (a v n : Nat) (poison : Bool) (h : Keeps s₀ s) : Keeps s₀
    (State.storeRange s a v n poison) := by
  unfold State.storeRange
  with_reducible repeat' (first
    | assumption | (intro _) | exact Keeps.refl _ | apply State.stackBytes_keeps | apply State.store_keeps
    | dsimp only | (refine Keeps.mk_upd ?_ rfl rfl))

theorem State.hubTouch_keeps {s : State} (a n : Nat) (h : Keeps s₀ s) : Keeps s₀ (State.hubTouch s a n) := by
  unfold State.hubTouch
  with_reducible repeat' (first
    | assumption | (intro _) | exact Keeps.refl _ | apply State.crossFabric_keeps | apply State.touchRange_keeps
    | dsimp only | (refine Keeps.mk_upd ?_ rfl rfl))

theorem State.hubStore_keeps {s : State} (a v n : Nat) (poison : Bool) (h : Keeps s₀ s) : Keeps s₀
    (State.hubStore s a v n poison) := by
  unfold State.hubStore
  with_reducible repeat' (first
    | assumption | (intro _) | exact Keeps.refl _ | apply State.crossFabric_keeps | apply State.storeRange_keeps
    | dsimp only | (refine Keeps.mk_upd ?_ rfl rfl))

theorem State.tileTouch_keeps {s : State} (t a n : Nat) (h : Keeps s₀ s) : Keeps s₀ (State.tileTouch s t a n) := by
  unfold State.tileTouch
  with_reducible repeat' (first
    | assumption | (intro _) | exact Keeps.refl _ | apply State.crossFrom_keeps | apply State.touchRange_keeps
    | dsimp only | (refine Keeps.mk_upd ?_ rfl rfl))

theorem State.tileStore_keeps {s : State} (t a v n : Nat) (h : Keeps s₀ s) : Keeps s₀ (State.tileStore s t a v
    n) := by
  unfold State.tileStore
  with_reducible repeat' (first
    | assumption | (intro _) | exact Keeps.refl _ | apply State.crossFrom_keeps | apply State.storeRange_keeps
    | dsimp only | (refine Keeps.mk_upd ?_ rfl rfl))

theorem State.freeBytes_keeps {s : State} (a n : Nat) (h : Keeps s₀ s) : Keeps s₀ (State.freeBytes s a n) := by
  unfold State.freeBytes
  with_reducible repeat' (first
    | assumption | (intro _) | exact Keeps.refl _ | apply State.useFree_keeps | apply State.store_keeps
    | apply keeps_foldl | (split) | dsimp only | (refine Keeps.mk_upd ?_ rfl rfl))

theorem State.undefine_keeps {s : State} (rs : List (Int × Nat)) (h : Keeps s₀ s) : Keeps s₀ (State.undefine s
    rs) := by
  unfold State.undefine
  with_reducible repeat' (first
    | assumption | (intro _) | exact Keeps.refl _ | apply State.freeBytes_keeps | apply keeps_foldl
    | apply keeps_ite_fst | apply keeps_foldl_fst | (split) | dsimp only | (refine Keeps.mk_upd ?_ rfl rfl))

theorem State.setSem_keeps {s : State} (tile n v : Nat) (h : Keeps s₀ s) : Keeps s₀ (State.setSem s tile n v) := by
  unfold State.setSem
  with_reducible repeat' (first
    | assumption | (intro _) | exact Keeps.refl _ | (split) | dsimp only | (refine Keeps.mk_upd ?_ rfl rfl))

theorem State.signalSem_keeps {s : State} (tile n : Nat) (set : Bool) (v : Nat) (h : Keeps s₀ s) : Keeps s₀
    (State.signalSem s tile n set v) := by
  unfold State.signalSem
  with_reducible repeat' (first
    | assumption | (intro _) | exact Keeps.refl _ | apply State.setSem_keeps | apply keeps_opt | apply keeps_opt'
    | apply keeps_ite | (split) | dsimp only | (refine Keeps.mk_upd ?_ rfl rfl))

theorem State.setWatch_keeps {s : State} (tile slot : Nat) (c : List Nat) (h : Keeps s₀ s) : Keeps s₀
    (State.setWatch s tile slot c) := by
  unfold State.setWatch
  with_reducible repeat' (first
    | assumption | (intro _) | exact Keeps.refl _ | (split) | dsimp only | (refine Keeps.mk_upd ?_ rfl rfl))

theorem State.watchAdd_keeps {s : State} (tile slot : Nat) (classes : List Nat) (h : Keeps s₀ s) : Keeps s₀
    (State.watchAdd s tile slot classes) := by
  unfold State.watchAdd
  with_reducible repeat' (first
    | assumption | (intro _) | exact Keeps.refl _ | apply State.setWatch_keeps | apply State.event_keeps
    | apply keeps_opt | apply keeps_opt' | apply keeps_ite | apply keeps_foldl | (split) | dsimp only
    | (refine Keeps.mk_upd ?_ rfl rfl))

theorem State.setSlot_keeps {s : State} (tile slot : Nat) (x : Slot) (h : Keeps s₀ s) : Keeps s₀ (State.setSlot
    s tile slot x) := by
  unfold State.setSlot
  with_reducible repeat' (first
    | assumption | (intro _) | exact Keeps.refl _ | (split) | dsimp only | (refine Keeps.mk_upd ?_ rfl rfl))

theorem State.mergeAmax_keeps {s : State} (tile slot a : Nat) (h : Keeps s₀ s) : Keeps s₀ (State.mergeAmax s
    tile slot a) := by
  unfold State.mergeAmax
  with_reducible repeat' (first
    | assumption | (intro _) | exact Keeps.refl _ | apply State.setSlot_keeps | dsimp only
    | (refine Keeps.mk_upd ?_ rfl rfl))

theorem State.touchReads_keeps {s : State} (rs : List (Nat × Nat)) (h : Keeps s₀ s) : Keeps s₀ (State.touchReads
    s rs) := by
  unfold State.touchReads
  with_reducible repeat' (first
    | assumption | (intro _) | exact Keeps.refl _ | apply State.touch_keeps | apply keeps_ite_fst
    | apply keeps_foldl_fst | (split) | dsimp only | (refine Keeps.mk_upd ?_ rfl rfl))

theorem State.setQueue_keeps {s : State} (t q : Nat) (x : QueueSt) (h : Keeps s₀ s) : Keeps s₀ (State.setQueue s
    t q x) := by
  unfold State.setQueue
  with_reducible repeat' (first
    | assumption | (intro _) | exact Keeps.refl _ | (split) | dsimp only | (refine Keeps.mk_upd ?_ rfl rfl))

theorem State.setQReg_keeps {s : State} (t q off v : Nat) (h : Keeps s₀ s) : Keeps s₀ (State.setQReg s t q off
    v) := by
  unfold State.setQReg
  with_reducible repeat' (first
    | assumption | (intro _) | exact Keeps.refl _ | apply State.setReg_keeps | dsimp only
    | (refine Keeps.mk_upd ?_ rfl rfl))

theorem State.putOcc_keeps {s : State} (o : Occ) (h : Keeps s₀ s) : Keeps s₀ (State.putOcc s o) := by
  unfold State.putOcc
  with_reducible repeat' (first
    | assumption | (intro _) | exact Keeps.refl _ | apply keeps_opt | apply keeps_opt' | apply keeps_ite | (split)
    | dsimp only | (refine Keeps.mk_upd ?_ rfl rfl))

theorem State.addOcc_keeps {s : State} (o : Occ) (h : Keeps s₀ s) : Keeps s₀ (State.addOcc s o) := by
  unfold State.addOcc
  with_reducible repeat' (first
    | assumption | (intro _) | exact Keeps.refl _ | dsimp only | (refine Keeps.mk_upd ?_ rfl rfl))

theorem State.dropOcc_keeps {s : State} (id : Nat) (h : Keeps s₀ s) : Keeps s₀ (State.dropOcc s id) := by
  unfold State.dropOcc
  with_reducible repeat' (first
    | assumption | (intro _) | exact Keeps.refl _ | (split) | dsimp only | (refine Keeps.mk_upd ?_ rfl rfl))

theorem State.tseqFirst_keeps {s : State} (t code q slot : Nat) (h : Keeps s₀ s) : Keeps s₀ (State.tseqFirst s t
    code q slot) := by
  unfold State.tseqFirst
  with_reducible repeat' (first
    | assumption | (intro _) | exact Keeps.refl _ | apply State.fset_keeps | apply keeps_opt | apply keeps_opt'
    | apply keeps_ite | (split) | dsimp only | (refine Keeps.mk_upd ?_ rfl rfl))

theorem State.haltQueue_keeps {s : State} (t q code slot : Nat) (h : Keeps s₀ s) : Keeps s₀ (State.haltQueue s t
    q code slot) := by
  unfold State.haltQueue
  with_reducible repeat' (first
    | assumption | (intro _) | exact Keeps.refl _ | apply State.fset_keeps | apply State.tseqFirst_keeps
    | apply State.event_keeps | apply State.errEvent_keeps | dsimp only | (refine Keeps.mk_upd ?_ rfl rfl))

theorem State.noteDescError_keeps {s : State} (o : Occ) (h : Keeps s₀ s) : Keeps s₀ (State.noteDescError s o) := by
  unfold State.noteDescError
  with_reducible repeat' (first
    | assumption | (intro _) | exact Keeps.refl _ | apply State.count_keeps | apply State.tseqFirst_keeps
    | apply State.event_keeps | apply State.errEvent_keeps | apply keeps_opt | apply keeps_opt' | apply keeps_ite
    | (split) | dsimp only | (refine Keeps.mk_upd ?_ rfl rfl))

theorem State.applySignal_keeps {s : State} (o : Occ) (h : Keeps s₀ s) : Keeps s₀ (State.applySignal s o) := by
  unfold State.applySignal
  with_reducible repeat' (first
    | assumption | (intro _) | exact Keeps.refl _ | apply State.signalSem_keeps | apply keeps_opt | apply keeps_opt'
    | apply keeps_ite | (split) | dsimp only | (refine Keeps.mk_upd ?_ rfl rfl))

theorem State.freeHead_keeps {s : State} (o : Occ) (h : Keeps s₀ s) : Keeps s₀ (State.freeHead s o) := by
  unfold State.freeHead
  with_reducible repeat' (first
    | assumption | (intro _) | exact Keeps.refl _ | apply State.setQueue_keeps | apply keeps_opt | apply keeps_opt'
    | apply keeps_ite | (split) | dsimp only | (refine Keeps.mk_upd ?_ rfl rfl))

theorem State.eventIf_keeps {s : State} (c : Bool) (ty : PageType) (i : Nat) (f : Fd) (h : Keeps s₀ s) : Keeps
    s₀ (State.eventIf s c ty i f) := by
  unfold State.eventIf
  with_reducible repeat' (first
    | assumption | (intro _) | exact Keeps.refl _ | apply State.event_keeps | apply keeps_opt | apply keeps_opt'
    | apply keeps_ite | (split) | dsimp only | (refine Keeps.mk_upd ?_ rfl rfl))

theorem State.countIf_keeps {s : State} (c : Bool) (page : Nat) (f : Fd) (h : Keeps s₀ s) : Keeps s₀
    (State.countIf s c page f) := by
  unfold State.countIf
  with_reducible repeat' (first
    | assumption | (intro _) | exact Keeps.refl _ | apply State.count_keeps | apply keeps_opt | apply keeps_opt'
    | apply keeps_ite | (split) | dsimp only | (refine Keeps.mk_upd ?_ rfl rfl))

theorem State.noteTe_keeps {s : State} (o : Occ) (i : Nat) (h : Keeps s₀ s) : Keeps s₀ (State.noteTe s o i) := by
  unfold State.noteTe
  with_reducible repeat' (first
    | assumption | (intro _) | exact Keeps.refl _ | apply State.fset_keeps | apply State.countIf_keeps
    | apply State.eventIf_keeps | apply State.event_keeps | dsimp only | (refine Keeps.mk_upd ?_ rfl rfl))

theorem State.noteVe_keeps {s : State} (o : Occ) (h : Keeps s₀ s) : Keeps s₀ (State.noteVe s o) := by
  unfold State.noteVe
  with_reducible repeat' (first
    | assumption | (intro _) | exact Keeps.refl _ | apply State.setReg_keeps | apply State.fset_keeps
    | apply State.addWrap_keeps | apply State.addPair_keeps | apply State.eventIf_keeps | apply State.event_keeps
    | apply keeps_opt | apply keeps_opt' | apply keeps_ite | (split) | dsimp only | (refine Keeps.mk_upd ?_ rfl rfl))

theorem State.noteDma_keeps {s : State} (o : Occ) (h : Keeps s₀ s) : Keeps s₀ (State.noteDma s o) := by
  unfold State.noteDma
  with_reducible repeat' (first
    | assumption | (intro _) | exact Keeps.refl _ | apply State.fset_keeps | apply State.countIf_keeps
    | apply State.addWrap_keeps | apply State.event_keeps | apply State.eventIf_keeps | dsimp only
    | (refine Keeps.mk_upd ?_ rfl rfl))

theorem State.noteUnit_keeps {s : State} (o : Occ) (h : Keeps s₀ s) : Keeps s₀ (State.noteUnit s o) := by
  unfold State.noteUnit
  with_reducible repeat' (first
    | assumption | (intro _) | exact Keeps.refl _ | apply State.noteTe_keeps | apply State.noteVe_keeps
    | apply State.noteDma_keeps | apply State.event_keeps | (split) | dsimp only | (refine Keeps.mk_upd ?_ rfl rfl))

theorem State.completeOcc_keeps {s : State} (o : Occ) (h : Keeps s₀ s) : Keeps s₀ (State.completeOcc s o) := by
  unfold State.completeOcc
  with_reducible repeat' (first
    | assumption | (intro _) | exact Keeps.refl _ | apply State.freeHead_keeps | apply State.dropOcc_keeps
    | apply State.noteUnit_keeps | apply State.setQReg_keeps | apply State.tileStore_keeps
    | apply State.noteDescError_keeps | apply State.event_keeps | apply State.count_keeps
    | apply State.applySignal_keeps | apply keeps_opt | apply keeps_opt' | apply keeps_ite | (split) | dsimp only
    | (refine Keeps.mk_upd ?_ rfl rfl))

theorem State.endInTseq_keeps {s : State} (o : Occ) (h : Keeps s₀ s) : Keeps s₀ (State.endInTseq s o) := by
  unfold State.endInTseq
  with_reducible repeat' (first
    | assumption | (intro _) | exact Keeps.refl _ | apply State.putOcc_keeps | apply State.freeHead_keeps
    | apply State.completeOcc_keeps | apply keeps_opt | apply keeps_opt' | apply keeps_ite | (split) | dsimp only
    | (refine Keeps.mk_upd ?_ rfl rfl))

theorem State.markTails_keeps {s : State} (ids : List Nat) (h : Keeps s₀ s) : Keeps s₀ (State.markTails s ids) := by
  unfold State.markTails
  with_reducible repeat' (first
    | assumption | (intro _) | exact Keeps.refl _ | apply keeps_opt | apply keeps_opt' | apply keeps_ite | (split)
    | dsimp only | (refine Keeps.mk_upd ?_ rfl rfl))

theorem State.passSlot_keeps {s : State} (t q : Nat) (h : Keeps s₀ s) : Keeps s₀ (State.passSlot s t q) := by
  unfold State.passSlot
  with_reducible repeat' (first
    | assumption | (intro _) | exact Keeps.refl _ | apply State.markTails_keeps | apply State.setQueue_keeps
    | apply keeps_ite_fst | apply keeps_foldl_fst | dsimp only | (refine Keeps.mk_upd ?_ rfl rfl))

theorem State.fetchSlot_keeps {s : State} (t q : Nat) (h : Keeps s₀ s) : Keeps s₀ (State.fetchSlot s t q) := by
  unfold State.fetchSlot
  with_reducible repeat' (first
    | assumption | (intro _) | exact Keeps.refl _ | apply State.tileTouch_keeps | apply State.haltQueue_keeps
    | apply State.setQueue_keeps | apply keeps_opt | apply keeps_opt' | apply keeps_ite | (split) | dsimp only
    | (refine Keeps.mk_upd ?_ rfl rfl))

theorem State.touchEntry_keeps {s : State} (t td : Nat) (h : Keeps s₀ s) : Keeps s₀ (State.touchEntry s t td) := by
  unfold State.touchEntry
  with_reducible repeat' (first
    | assumption | (intro _) | exact Keeps.refl _ | apply State.tileTouch_keeps | apply keeps_opt | apply keeps_opt'
    | apply keeps_ite | (split) | dsimp only | (refine Keeps.mk_upd ?_ rfl rfl))

theorem State.touchTds_keeps {s : State} (t : Nat) (d : BitVec 512) (h : Keeps s₀ s) : Keeps s₀ (State.touchTds
    s t d) := by
  unfold State.touchTds
  with_reducible repeat' (first
    | assumption | (intro _) | exact Keeps.refl _ | apply State.touchEntry_keeps | apply keeps_foldl | (split)
    | dsimp only | (refine Keeps.mk_upd ?_ rfl rfl))

theorem State.touchWins_keeps {s : State} (t : Nat) (d : BitVec 512) (h : Keeps s₀ s) : Keeps s₀
    (State.touchWins s t d) := by
  unfold State.touchWins
  with_reducible repeat' (first
    | assumption | (intro _) | exact Keeps.refl _ | apply State.tileTouch_keeps | apply keeps_foldl | (split)
    | dsimp only | (refine Keeps.mk_upd ?_ rfl rfl))

theorem State.touchScales_keeps {s : State} (t : Nat) (x : Option Tensor) (h : Keeps s₀ s) : Keeps s₀
    (State.touchScales s t x) := by
  unfold State.touchScales
  with_reducible repeat' (first
    | assumption | (intro _) | exact Keeps.refl _ | apply State.crossFrom_keeps | apply State.stackBytes_keeps
    | apply State.touchReads_keeps | apply keeps_foldl | (split) | dsimp only | (refine Keeps.mk_upd ?_ rfl rfl))

theorem State.touchCounts_keeps {s : State} (t : Nat) (x : Option Tensor) (h : Keeps s₀ s) : Keeps s₀
    (State.touchCounts s t x) := by
  unfold State.touchCounts
  with_reducible repeat' (first
    | assumption | (intro _) | exact Keeps.refl _ | apply State.tileTouch_keeps | apply keeps_foldl | (split)
    | dsimp only | (refine Keeps.mk_upd ?_ rfl rfl))

theorem State.touchStep3_keeps {s : State} (t : Nat) (d : BitVec 512) (c : CheckOut) (h : Keeps s₀ s) : Keeps s₀
    (State.touchStep3 s t d c) := by
  unfold State.touchStep3
  with_reducible repeat' (first
    | assumption | (intro _) | exact Keeps.refl _ | apply State.touchWins_keeps | apply State.touchTds_keeps
    | apply State.touchCounts_keeps | apply State.touchScales_keeps | apply keeps_opt | apply keeps_opt'
    | apply keeps_ite | (split) | dsimp only | (refine Keeps.mk_upd ?_ rfl rfl))

theorem State.judge_keeps {s : State} (t q : Nat) (d : BitVec 512) (its : List Nat) (gated : Bool) (h : Keeps s₀
    s) : Keeps s₀ (State.judge s t q d its gated).1 := by
  unfold State.judge
  with_reducible repeat' (first
    | assumption | (intro _) | exact Keeps.refl _ | apply State.touchEntry_keeps | apply State.tileTouch_keeps
    | apply State.touchStep3_keeps | apply keeps_opt | apply keeps_opt' | apply keeps_ite | apply keeps_ite_fst
    | apply keeps_foldl_fst | (split) | dsimp only | (refine Keeps.mk_upd ?_ rfl rfl))

theorem State.dispatchHead_keeps {s : State} (t q : Nat) (h : Keeps s₀ s) : Keeps s₀ (State.dispatchHead s t q) := by
  unfold State.dispatchHead
  with_reducible repeat' (first
    | assumption | (intro _) | exact Keeps.refl _ | apply State.fset_keeps | apply State.addPair_keeps
    | apply State.setSem_keeps | apply State.endInTseq_keeps | apply State.passSlot_keeps | apply State.addOcc_keeps
    | apply State.judge_keeps | apply State.haltQueue_keeps | apply State.setQueue_keeps | apply keeps_opt
    | apply keeps_opt' | apply keeps_ite | apply keeps_ite_fst | apply keeps_foldl_fst | (split) | dsimp only
    | (refine Keeps.mk_upd ?_ rfl rfl))

theorem State.handOver_keeps {s : State} (o : Occ) (h : Keeps s₀ s) : Keeps s₀ (State.handOver s o) := by
  unfold State.handOver
  with_reducible repeat' (first
    | assumption | (intro _) | exact Keeps.refl _ | apply State.addOcc_keeps | apply State.freeHead_keeps
    | apply State.dropOcc_keeps | dsimp only | (refine Keeps.mk_upd ?_ rfl rfl))

theorem State.serveQueue_keeps {s : State} (t q : Nat) (o : Occ) (h : Keeps s₀ s) : Keeps s₀ (State.serveQueue s
    t q o) := by
  unfold State.serveQueue
  with_reducible repeat' (first
    | assumption | (intro _) | exact Keeps.refl _ | apply State.handOver_keeps | (split) | dsimp only
    | (refine Keeps.mk_upd ?_ rfl rfl))

theorem State.startMove_keeps {s : State} (target src : Nat) (h : Keeps s₀ s) : Keeps s₀ (State.startMove s
    target src) := by
  unfold State.startMove
  with_reducible repeat' (first
    | assumption | (intro _) | exact Keeps.refl _ | apply State.fset_keeps | apply keeps_opt | apply keeps_opt'
    | apply keeps_ite | apply keeps_foldl | (split) | dsimp only | (refine Keeps.mk_upd ?_ rfl rfl))

theorem State.restoreQuiesce_keeps {s : State} (h : Keeps s₀ s) : Keeps s₀ (State.restoreQuiesce s) := by
  unfold State.restoreQuiesce
  with_reducible repeat' (first
    | assumption | (intro _) | exact Keeps.refl _ | apply State.fset_keeps | apply keeps_foldl | apply keeps_ite_fst
    | apply keeps_foldl_fst | (split) | dsimp only | (refine Keeps.mk_upd ?_ rfl rfl))

theorem State.refuseQuiesce_keeps {s : State} (h : Keeps s₀ s) : Keeps s₀ (State.refuseQuiesce s) := by
  unfold State.refuseQuiesce
  with_reducible repeat' (first
    | assumption | (intro _) | exact Keeps.refl _ | apply State.restoreQuiesce_keeps | apply State.fset_keeps
    | apply keeps_opt | apply keeps_opt' | apply keeps_ite | apply keeps_foldl | apply keeps_ite_fst
    | apply keeps_foldl_fst | (split) | dsimp only | (refine Keeps.mk_upd ?_ rfl rfl))

theorem State.pwrRequest_keeps {s : State} (target src : Nat) (h : Keeps s₀ s) : Keeps s₀ (State.pwrRequest s
    target src) := by
  unfold State.pwrRequest
  with_reducible repeat' (first
    | assumption | (intro _) | exact Keeps.refl _ | apply State.event_keeps | apply State.fset_keeps
    | apply State.startMove_keeps | apply keeps_opt | apply keeps_opt' | apply keeps_ite | (split) | dsimp only
    | (refine Keeps.mk_upd ?_ rfl rfl))

theorem State.wakeForWork_keeps {s : State} (h : Keeps s₀ s) : Keeps s₀ (State.wakeForWork s) := by
  unfold State.wakeForWork
  with_reducible repeat' (first
    | assumption | (intro _) | exact Keeps.refl _ | apply State.pwrRequest_keeps | apply keeps_opt
    | apply keeps_opt' | apply keeps_ite | (split) | dsimp only | (refine Keeps.mk_upd ?_ rfl rfl))

theorem State.chSet_keeps {s : State} (l k : Nat) (f : Fd) (v : Nat) (h : Keeps s₀ s) : Keeps s₀ (State.chSet s
    l k f v) := by
  unfold State.chSet
  with_reducible repeat' (first
    | assumption | (intro _) | exact Keeps.refl _ | apply State.fset_keeps | dsimp only
    | (refine Keeps.mk_upd ?_ rfl rfl))

theorem State.setCh_keeps {s : State} (l k : Nat) (c : ChSt) (h : Keeps s₀ s) : Keeps s₀ (State.setCh s l k c) := by
  unfold State.setCh
  with_reducible repeat' (first
    | assumption | (intro _) | exact Keeps.refl _ | (split) | dsimp only | (refine Keeps.mk_upd ?_ rfl rfl))

theorem State.setPort_keeps {s : State} (p : Nat) (x : PortSt) (h : Keeps s₀ s) : Keeps s₀ (State.setPort s p x) := by
  unfold State.setPort
  with_reducible repeat' (first
    | assumption | (intro _) | exact Keeps.refl _ | (split) | dsimp only | (refine Keeps.mk_upd ?_ rfl rfl))

theorem State.setWhich_keeps {s : State} (dest vc w : Nat) (h : Keeps s₀ s) : Keeps s₀ (State.setWhich s dest vc
    w) := by
  unfold State.setWhich
  with_reducible repeat' (first
    | assumption | (intro _) | exact Keeps.refl _ | (split) | dsimp only | (refine Keeps.mk_upd ?_ rfl rfl))

theorem State.enqueue_keeps {s : State} (p : Nat) (f : Frame) (h : Keeps s₀ s) : Keeps s₀ (State.enqueue s p f) := by
  unfold State.enqueue
  with_reducible repeat' (first
    | assumption | (intro _) | exact Keeps.refl _ | apply State.setPort_keeps | dsimp only
    | (refine Keeps.mk_upd ?_ rfl rfl))

theorem State.sendTo_keeps {s : State} (f : Frame) (h : Keeps s₀ s) : Keeps s₀ (State.sendTo s f) := by
  unfold State.sendTo
  with_reducible repeat' (first
    | assumption | (intro _) | exact Keeps.refl _ | apply State.enqueue_keeps | apply State.count_keeps | (split)
    | dsimp only | (refine Keeps.mk_upd ?_ rfl rfl))

theorem State.control_keeps {s : State} (p typ vc seq offset : Nat) (h : Keeps s₀ s) : Keeps s₀ (State.control s
    p typ vc seq offset) := by
  unfold State.control
  with_reducible repeat' (first
    | assumption | (intro _) | exact Keeps.refl _ | apply State.setPort_keeps | dsimp only
    | (refine Keeps.mk_upd ?_ rfl rfl))

theorem State.holdSides_keeps {s : State} (tx : List (Nat × Nat)) (rx : List (Nat × Nat)) (h : Keeps s₀ s) :
    Keeps s₀ (State.holdSides s tx rx) := by
  unfold State.holdSides
  with_reducible repeat' (first
    | assumption | (intro _) | exact Keeps.refl _ | apply State.setCh_keeps | apply keeps_foldl
    | apply keeps_ite_fst | apply keeps_foldl_fst | (split) | dsimp only | (refine Keeps.mk_upd ?_ rfl rfl))

theorem State.untrain_keeps {s : State} (cs : List (Nat × Nat)) (h : Keeps s₀ s) : Keeps s₀ (State.untrain s cs) := by
  unfold State.untrain
  with_reducible repeat' (first
    | assumption | (intro _) | exact Keeps.refl _ | apply State.setCh_keeps | apply keeps_foldl
    | apply keeps_ite_fst | apply keeps_foldl_fst | (split) | dsimp only | (refine Keeps.mk_upd ?_ rfl rfl))

theorem State.retrainPort_keeps {s : State} (p : Nat) (h : Keeps s₀ s) : Keeps s₀ (State.retrainPort s p) := by
  unfold State.retrainPort
  with_reducible repeat' (first
    | assumption | (intro _) | exact Keeps.refl _ | apply State.holdSides_keeps | apply State.event_keeps
    | apply State.errEvent_keeps | apply State.count_keeps | apply State.setPort_keeps | apply keeps_opt
    | apply keeps_opt' | apply keeps_ite | (split) | dsimp only | (refine Keeps.mk_upd ?_ rfl rfl))

theorem State.portOver_keeps {s : State} (p : Nat) (h : Keeps s₀ s) : Keeps s₀ (State.portOver s p) := by
  unfold State.portOver
  with_reducible repeat' (first
    | assumption | (intro _) | exact Keeps.refl _ | apply State.setPort_keeps | apply State.retrainPort_keeps
    | apply keeps_opt | apply keeps_opt' | apply keeps_ite | (split) | dsimp only | (refine Keeps.mk_upd ?_ rfl rfl))

theorem State.portCrc_keeps {s : State} (p : Nat) (h : Keeps s₀ s) : Keeps s₀ (State.portCrc s p) := by
  unfold State.portCrc
  with_reducible repeat' (first
    | assumption | (intro _) | exact Keeps.refl _ | apply State.setPort_keeps | apply State.retrainPort_keeps
    | apply keeps_opt | apply keeps_opt' | apply keeps_ite | (split) | dsimp only | (refine Keeps.mk_upd ?_ rfl rfl))

theorem State.portReq_keeps {s : State} (p : Nat) (h : Keeps s₀ s) : Keeps s₀ (State.portReq s p) := by
  unfold State.portReq
  with_reducible repeat' (first
    | assumption | (intro _) | exact Keeps.refl _ | apply State.setPort_keeps | apply State.retrainPort_keeps
    | apply keeps_opt | apply keeps_opt' | apply keeps_ite | (split) | dsimp only | (refine Keeps.mk_upd ?_ rfl rfl))

theorem State.takeAck_keeps {s : State} (p a : Nat) (h : Keeps s₀ s) : Keeps s₀ (State.takeAck s p a) := by
  unfold State.takeAck
  with_reducible repeat' (first
    | assumption | (intro _) | exact Keeps.refl _ | apply State.setPort_keeps | (split) | dsimp only
    | (refine Keeps.mk_upd ?_ rfl rfl))

theorem State.replayFrom_keeps {s : State} (p n : Nat) (h : Keeps s₀ s) : Keeps s₀ (State.replayFrom s p n) := by
  unfold State.replayFrom
  with_reducible repeat' (first
    | assumption | (intro _) | exact Keeps.refl _ | apply State.setPort_keeps | apply keeps_opt | apply keeps_opt'
    | apply keeps_ite | (split) | dsimp only | (refine Keeps.mk_upd ?_ rfl rfl))

theorem State.dropBad_keeps {s : State} (r : Rx) (check : Nat) (h : Keeps s₀ s) : Keeps s₀ (State.dropBad s r
    check) := by
  unfold State.dropBad
  with_reducible repeat' (first
    | assumption | (intro _) | exact Keeps.refl _ | apply State.fset_keeps | dsimp only
    | (refine Keeps.mk_upd ?_ rfl rfl))

theorem State.dropMalformed_keeps {s : State} (r : Rx) (h : Keeps s₀ s) : Keeps s₀ (State.dropMalformed s r) := by
  unfold State.dropMalformed
  with_reducible repeat' (first
    | assumption | (intro _) | exact Keeps.refl _ | apply State.errEvent_keeps | apply State.dropBad_keeps
    | apply State.count_keeps | dsimp only | (refine Keeps.mk_upd ?_ rfl rfl))

theorem State.dropMisaddr_keeps {s : State} (r : Rx) (check : Nat) (h : Keeps s₀ s) : Keeps s₀
    (State.dropMisaddr s r check) := by
  unfold State.dropMisaddr
  with_reducible repeat' (first
    | assumption | (intro _) | exact Keeps.refl _ | apply State.event_keeps | apply State.errEvent_keeps
    | apply State.dropBad_keeps | apply State.count_keeps | dsimp only | (refine Keeps.mk_upd ?_ rfl rfl))

theorem State.noteCodewords_keeps {s : State} (l k ce uc : Nat) (h : Keeps s₀ s) : Keeps s₀ (State.noteCodewords
    s l k ce uc) := by
  unfold State.noteCodewords
  with_reducible repeat' (first
    | assumption | (intro _) | exact Keeps.refl _ | apply State.addFree_keeps | apply State.errEvent_keeps
    | apply keeps_foldl | (split) | dsimp only | (refine Keeps.mk_upd ?_ rfl rfl))

theorem State.topUp_keeps {s : State} (p vc : Nat) (h : Keeps s₀ s) : Keeps s₀ (State.topUp s p vc) := by
  unfold State.topUp
  with_reducible repeat' (first
    | assumption | (intro _) | exact Keeps.refl _ | apply State.control_keeps | apply State.setPort_keeps
    | apply keeps_opt | apply keeps_opt' | apply keeps_ite | (split) | dsimp only | (refine Keeps.mk_upd ?_ rfl rfl))

theorem State.topUpVc_keeps {s : State} (vc : Nat) (h : Keeps s₀ s) : Keeps s₀ (State.topUpVc s vc) := by
  unfold State.topUpVc
  with_reducible repeat' (first
    | assumption | (intro _) | exact Keeps.refl _ | apply State.topUp_keeps | apply keeps_foldl | (split)
    | dsimp only | (refine Keeps.mk_upd ?_ rfl rfl))

theorem State.acceptSeq_keeps {s : State} (p : Nat) (f : Frame) (h : Keeps s₀ s) : Keeps s₀ (State.acceptSeq s p
    f) := by
  unfold State.acceptSeq
  with_reducible repeat' (first
    | assumption | (intro _) | exact Keeps.refl _ | apply State.setPort_keeps | dsimp only
    | (refine Keeps.mk_upd ?_ rfl rfl))

theorem State.gap_keeps {s : State} (p : Nat) (r : Rx) (h : Keeps s₀ s) : Keeps s₀ (State.gap s p r) := by
  unfold State.gap
  with_reducible repeat' (first
    | assumption | (intro _) | exact Keeps.refl _ | apply State.errEvent_keeps | apply State.count_keeps
    | apply State.control_keeps | apply State.setPort_keeps | apply keeps_opt | apply keeps_opt' | apply keeps_ite
    | (split) | dsimp only | (refine Keeps.mk_upd ?_ rfl rfl))

theorem State.receive_keeps {s : State} (r : Rx) (h : Keeps s₀ s) : Keeps s₀ (State.receive s r).1 := by
  unfold State.receive
  with_reducible repeat' (first
    | assumption | (intro _) | exact Keeps.refl _ | apply State.addSat_keeps | apply State.noteCodewords_keeps
    | apply State.portCrc_keeps | apply State.count_keeps | apply State.dropMalformed_keeps
    | apply State.dropMisaddr_keeps | apply State.takeAck_keeps | apply State.portOver_keeps
    | apply State.errEvent_keeps | apply State.setPort_keeps | apply State.gap_keeps | apply State.acceptSeq_keeps
    | apply State.topUp_keeps | apply State.addWrap_keeps | apply State.sendTo_keeps | apply keeps_opt
    | apply keeps_opt' | apply keeps_ite | apply keeps_ite_fst | apply keeps_foldl_fst | (split) | dsimp only
    | (refine Keeps.mk_upd ?_ rfl rfl))

theorem State.markUnicast_keeps {s : State} (f : Frame) (h : Keeps s₀ s) : Keeps s₀ (State.markUnicast s f) := by
  unfold State.markUnicast
  with_reducible repeat' (first
    | assumption | (intro _) | exact Keeps.refl _ | apply State.event_keeps | apply State.count_keeps
    | apply keeps_opt | apply keeps_opt' | apply keeps_ite | (split) | dsimp only | (refine Keeps.mk_upd ?_ rfl rfl))

theorem State.usePay_keeps {s : State} (f : Frame) (h : Keeps s₀ s) : Keeps s₀ (State.usePay s f) := by
  unfold State.usePay
  obtain ⟨a, b, c, d, e, f, g⟩ := h
  split
  · exact ⟨a, b, c, d, e, f, g⟩
  · exact ⟨a, b, c, Nat.le_add_right_of_le d, e, f, g⟩

theorem State.emitFrame_keeps {s : State} (p : Nat) (cs : List (Nat × Nat)) (f : Frame) (h : Keeps s₀ s) : Keeps
    s₀ (State.emitFrame s p cs f) := by
  unfold State.emitFrame
  with_reducible repeat' (first
    | assumption | (intro _) | exact Keeps.refl _ | apply State.setPort_keeps | apply State.emit_keeps
    | apply State.usePay_keeps | apply keeps_opt | apply keeps_opt' | apply keeps_ite | apply keeps_ite_fst
    | apply keeps_foldl_fst | (split) | dsimp only | (refine Keeps.mk_upd ?_ rfl rfl))

theorem State.startOn_keeps {s : State} (p : Nat) (g f : Frame) (cs : List (Nat × Nat)) (h : Keeps s₀ s) : Keeps
    s₀ (State.startOn s p g f cs) := by
  unfold State.startOn
  with_reducible repeat' (first
    | assumption | (intro _) | exact Keeps.refl _ | apply State.setPort_keeps | apply State.emitFrame_keeps
    | apply keeps_ite_fst | apply keeps_foldl_fst | dsimp only | (refine Keeps.mk_upd ?_ rfl rfl))

theorem State.startFrame_keeps {s : State} (p vc turn left : Nat) (cs : List (Nat × Nat)) (h : Keeps s₀ s) :
    Keeps s₀ (State.startFrame s p vc turn left cs) := by
  unfold State.startFrame
  with_reducible repeat' (first
    | assumption | (intro _) | exact Keeps.refl _ | apply State.setPort_keeps | apply State.startOn_keeps
    | apply State.markUnicast_keeps | apply keeps_opt | apply keeps_opt' | apply keeps_ite | apply keeps_foldl
    | apply keeps_ite_fst | apply keeps_foldl_fst | (split) | dsimp only | (refine Keeps.mk_upd ?_ rfl rfl))

theorem State.transmit_keeps {s : State} (p : Nat) (h : Keeps s₀ s) : Keeps s₀ (State.transmit s p) := by
  unfold State.transmit
  with_reducible repeat' (first
    | assumption | (intro _) | exact Keeps.refl _ | apply State.emitFrame_keeps | apply State.setPort_keeps
    | apply State.count_keeps | apply State.startFrame_keeps | apply keeps_opt | apply keeps_opt' | apply keeps_ite
    | apply keeps_ite_fst | apply keeps_foldl_fst | (split) | dsimp only | (refine Keeps.mk_upd ?_ rfl rfl))

theorem State.moveStream_keeps {s : State} (dest vc w : Nat) (h : Keeps s₀ s) : Keeps s₀ (State.moveStream s
    dest vc w) := by
  unfold State.moveStream
  with_reducible repeat' (first
    | assumption | (intro _) | exact Keeps.refl _ | apply State.setWhich_keeps | apply State.setPort_keeps
    | apply State.enqueue_keeps | apply State.errEvent_keeps | apply State.count_keeps | apply keeps_foldl | (split)
    | dsimp only | (refine Keeps.mk_upd ?_ rfl rfl))

theorem State.sendTraining_keeps {s : State} (l k epoch : Nat) (h : Keeps s₀ s) : Keeps s₀ (State.sendTraining s
    l k epoch) := by
  unfold State.sendTraining
  with_reducible repeat' (first
    | assumption | (intro _) | exact Keeps.refl _ | apply State.useFree_keeps | apply State.emit_keeps
    | apply State.usePay_keeps | apply keeps_opt | apply keeps_opt' | apply keeps_ite | (split) | dsimp only
    | (refine Keeps.mk_upd ?_ rfl rfl))

theorem State.train_keeps {s : State} (l k : Nat) (r : TrainRec) (h : Keeps s₀ s) : Keeps s₀ (State.train s l k
    r) := by
  unfold State.train
  with_reducible repeat' (first
    | assumption | (intro _) | exact Keeps.refl _ | apply State.chSet_keeps | apply State.setCh_keeps
    | apply State.event_keeps | apply State.errEvent_keeps | apply State.count_keeps | apply State.fset_keeps
    | apply State.eventIf_keeps | apply keeps_opt | apply keeps_opt' | apply keeps_ite | (split) | dsimp only
    | (refine Keeps.mk_upd ?_ rfl rfl))

theorem State.endReset_keeps {s : State} (p : Nat) (h : Keeps s₀ s) : Keeps s₀ (State.endReset s p) := by
  unfold State.endReset
  with_reducible repeat' (first
    | assumption | (intro _) | exact Keeps.refl _ | apply keeps_opt | apply keeps_opt' | apply keeps_ite | (split)
    | dsimp only | (refine Keeps.mk_upd ?_ rfl rfl))

theorem State.setRing_keeps {s : State} (l k : Nat) (r : Ring) (v : Nat) (h : Keeps s₀ s) : Keeps s₀
    (State.setRing s l k r v) := by
  unfold State.setRing
  with_reducible repeat' (first
    | assumption | (intro _) | exact Keeps.refl _ | apply State.chSet_keeps | apply State.endReset_keeps
    | apply keeps_opt | apply keeps_opt' | apply keeps_ite | (split) | dsimp only | (refine Keeps.mk_upd ?_ rfl rfl))

theorem State.sideDark_keeps {s : State} (l k : Nat) (rx : Bool) (h : Keeps s₀ s) : Keeps s₀ (State.sideDark s l
    k rx) := by
  unfold State.sideDark
  with_reducible repeat' (first
    | assumption | (intro _) | exact Keeps.refl _ | apply State.setRing_keeps | apply keeps_opt | apply keeps_opt'
    | apply keeps_ite | (split) | dsimp only | (refine Keeps.mk_upd ?_ rfl rfl))

theorem State.seek_keeps {s : State} (l k : Nat) (r : Ring) (h : Keeps s₀ s) : Keeps s₀ (State.seek s l k r) := by
  unfold State.seek
  with_reducible repeat' (first
    | assumption | (intro _) | exact Keeps.refl _ | apply State.setRing_keeps | apply keeps_opt | apply keeps_opt'
    | apply keeps_ite | (split) | dsimp only | (refine Keeps.mk_upd ?_ rfl rfl))

theorem State.sideAcquire_keeps {s : State} (l k : Nat) (rx : Bool) (h : Keeps s₀ s) : Keeps s₀
    (State.sideAcquire s l k rx) := by
  unfold State.sideAcquire
  with_reducible repeat' (first
    | assumption | (intro _) | exact Keeps.refl _ | apply State.seek_keeps | apply State.setRing_keeps
    | apply keeps_opt | apply keeps_opt' | apply keeps_ite | (split) | dsimp only | (refine Keeps.mk_upd ?_ rfl rfl))

theorem State.serveSide_keeps {s : State} (l k : Nat) (rx : Bool) (h : Keeps s₀ s) : Keeps s₀ (State.serveSide s
    l k rx) := by
  unfold State.serveSide
  with_reducible repeat' (first
    | assumption | (intro _) | exact Keeps.refl _ | apply State.sideAcquire_keeps | apply State.sideDark_keeps
    | apply keeps_opt | apply keeps_opt' | apply keeps_ite | (split) | dsimp only | (refine Keeps.mk_upd ?_ rfl rfl))

theorem State.serveLink_keeps {s : State} (l : Nat) (h : Keeps s₀ s) : Keeps s₀ (State.serveLink s l) := by
  unfold State.serveLink
  with_reducible repeat' (first
    | assumption | (intro _) | exact Keeps.refl _ | apply State.serveSide_keeps | apply keeps_foldl | (split)
    | dsimp only | (refine Keeps.mk_upd ?_ rfl rfl))

theorem State.serveEngine_keeps {s : State} (p : Nat) (h : Keeps s₀ s) : Keeps s₀ (State.serveEngine s p) := by
  unfold State.serveEngine
  with_reducible repeat' (first
    | assumption | (intro _) | exact Keeps.refl _ | apply State.serveLink_keeps | apply keeps_foldl | (split)
    | dsimp only | (refine Keeps.mk_upd ?_ rfl rfl))

theorem State.restartLink_keeps {s : State} (l : Nat) (h : Keeps s₀ s) : Keeps s₀ (State.restartLink s l) := by
  unfold State.restartLink
  with_reducible repeat' (first
    | assumption | (intro _) | exact Keeps.refl _ | apply State.serveLink_keeps | apply State.sideDark_keeps
    | apply keeps_foldl | (split) | dsimp only | (refine Keeps.mk_upd ?_ rfl rfl))

theorem State.restartEngine_keeps {s : State} (p : Nat) (h : Keeps s₀ s) : Keeps s₀ (State.restartEngine s p) := by
  unfold State.restartEngine
  with_reducible repeat' (first
    | assumption | (intro _) | exact Keeps.refl _ | apply State.restartLink_keeps | apply State.endReset_keeps
    | apply keeps_foldl | (split) | dsimp only | (refine Keeps.mk_upd ?_ rfl rfl))

theorem State.retire_keeps {s : State} (l k : Nat) (rx : Bool) (cause : Nat) (h : Keeps s₀ s) : Keeps s₀
    (State.retire s l k rx cause) := by
  unfold State.retire
  with_reducible repeat' (first
    | assumption | (intro _) | exact Keeps.refl _ | apply State.fset_keeps | apply State.chSet_keeps
    | apply State.sideDark_keeps | apply State.errEvent_keeps | apply State.count_keeps | apply State.event_keeps
    | apply keeps_opt | apply keeps_opt' | apply keeps_ite | (split) | dsimp only | (refine Keeps.mk_upd ?_ rfl rfl))

theorem State.revive_keeps {s : State} (l k : Nat) (h : Keeps s₀ s) : Keeps s₀ (State.revive s l k) := by
  unfold State.revive
  with_reducible repeat' (first
    | assumption | (intro _) | exact Keeps.refl _ | apply State.serveSide_keeps | apply State.chSet_keeps
    | apply State.fset_keeps | apply keeps_opt | apply keeps_opt' | apply keeps_ite | (split) | dsimp only
    | (refine Keeps.mk_upd ?_ rfl rfl))

theorem State.target_keeps {s : State} (l k txLine txEn rxLine rxEn : Nat) (h : Keeps s₀ s) : Keeps s₀
    (State.target s l k txLine txEn rxLine rxEn) := by
  unfold State.target
  with_reducible repeat' (first
    | assumption | (intro _) | exact Keeps.refl _ | apply State.chSet_keeps | apply State.serveSide_keeps
    | apply State.sideDark_keeps | apply keeps_opt | apply keeps_opt' | apply keeps_ite | (split) | dsimp only
    | (refine Keeps.mk_upd ?_ rfl rfl))

theorem State.wrongLine_keeps {s : State} (l k : Nat) (r : Ring) (line : Nat) (h : Keeps s₀ s) : Keeps s₀
    (State.wrongLine s l k r line) := by
  unfold State.wrongLine
  with_reducible repeat' (first
    | assumption | (intro _) | exact Keeps.refl _ | apply State.count_keeps | apply State.setRing_keeps
    | apply State.errEvent_keeps | apply State.event_keeps | dsimp only | (refine Keeps.mk_upd ?_ rfl rfl))

theorem State.startModulator_keeps {s : State} (l k : Nat) (h : Keeps s₀ s) : Keeps s₀ (State.startModulator s l
    k) := by
  unfold State.startModulator
  with_reducible repeat' (first
    | assumption | (intro _) | exact Keeps.refl _ | apply State.setRing_keeps | apply keeps_opt | apply keeps_opt'
    | apply keeps_ite | (split) | dsimp only | (refine Keeps.mk_upd ?_ rfl rfl))

theorem State.setCombOk_keeps {s : State} (p comb v : Nat) (h : Keeps s₀ s) : Keeps s₀ (State.setCombOk s p comb
    v) := by
  unfold State.setCombOk
  with_reducible repeat' (first
    | assumption | (intro _) | exact Keeps.refl _ | apply State.fset_keeps | apply keeps_opt | apply keeps_opt'
    | apply keeps_ite | (split) | dsimp only | (refine Keeps.mk_upd ?_ rfl rfl))

theorem State.holdEngine_keeps {s : State} (p : Nat) (h : Keeps s₀ s) : Keeps s₀ (State.holdEngine s p) := by
  unfold State.holdEngine
  with_reducible repeat' (first
    | assumption | (intro _) | exact Keeps.refl _ | apply State.setRing_keeps | apply keeps_opt | apply keeps_opt'
    | apply keeps_ite | apply keeps_foldl | (split) | dsimp only | (refine Keeps.mk_upd ?_ rfl rfl))

theorem State.releaseEngine_keeps {s : State} (p : Nat) (h : Keeps s₀ s) : Keeps s₀ (State.releaseEngine s p) := by
  unfold State.releaseEngine
  with_reducible repeat' (first
    | assumption | (intro _) | exact Keeps.refl _ | apply State.sideAcquire_keeps | apply keeps_opt
    | apply keeps_opt' | apply keeps_ite | apply keeps_foldl | (split) | dsimp only
    | (refine Keeps.mk_upd ?_ rfl rfl))

theorem State.switchComb_keeps {s : State} (p : Nat) (h : Keeps s₀ s) : Keeps s₀ (State.switchComb s p) := by
  unfold State.switchComb
  with_reducible repeat' (first
    | assumption | (intro _) | exact Keeps.refl _ | apply State.fset_keeps | apply State.holdEngine_keeps
    | apply State.errEvent_keeps | apply State.count_keeps | apply State.event_keeps | (split) | dsimp only
    | (refine Keeps.mk_upd ?_ rfl rfl))

theorem State.combLost_keeps {s : State} (p : Nat) (h : Keeps s₀ s) : Keeps s₀ (State.combLost s p) := by
  unfold State.combLost
  with_reducible repeat' (first
    | assumption | (intro _) | exact Keeps.refl _ | apply State.errEvent_keeps | apply State.fset_keeps
    | apply State.event_keeps | apply State.retire_keeps | apply keeps_foldl | (split) | dsimp only
    | (refine Keeps.mk_upd ?_ rfl rfl))

theorem State.combFail_keeps {s : State} (p : Nat) (h : Keeps s₀ s) : Keeps s₀ (State.combFail s p) := by
  unfold State.combFail
  with_reducible repeat' (first
    | assumption | (intro _) | exact Keeps.refl _ | apply State.switchComb_keeps | apply State.setCombOk_keeps
    | apply State.combLost_keeps | apply keeps_opt | apply keeps_opt' | apply keeps_ite | (split) | dsimp only
    | (refine Keeps.mk_upd ?_ rfl rfl))

theorem State.lineFail_keeps {s : State} (p line : Nat) (h : Keeps s₀ s) : Keeps s₀ (State.lineFail s p line) := by
  unfold State.lineFail
  with_reducible repeat' (first
    | assumption | (intro _) | exact Keeps.refl _ | apply State.event_keeps | apply State.errEvent_keeps
    | apply State.fset_keeps | apply State.retire_keeps | apply keeps_opt | apply keeps_opt' | apply keeps_ite
    | apply keeps_foldl | (split) | dsimp only | (refine Keeps.mk_upd ?_ rfl rfl))

theorem State.noteShutters_keeps {s : State} {s' : State} (h : Keeps s₀ s) (h1 : Keeps s₀ s') : Keeps s₀
    (State.noteShutters s s') := by
  unfold State.noteShutters
  with_reducible repeat' (first
    | assumption | (intro _) | exact Keeps.refl _ | apply State.eventIf_keeps | apply keeps_foldl | (split)
    | dsimp only | (refine Keeps.mk_upd ?_ rfl rfl))

theorem State.setSeen_keeps {s : State} (l : Nat) (v : Bool) (h : Keeps s₀ s) : Keeps s₀ (State.setSeen s l v) := by
  unfold State.setSeen
  with_reducible repeat' (first
    | assumption | (intro _) | exact Keeps.refl _ | apply keeps_opt | apply keeps_opt' | apply keeps_ite | (split)
    | dsimp only | (refine Keeps.mk_upd ?_ rfl rfl))

theorem State.probing_keeps {s : State} (l : Nat) (h : Keeps s₀ s) : Keeps s₀ (State.probing s l) := by
  unfold State.probing
  with_reducible repeat' (first
    | assumption | (intro _) | exact Keeps.refl _ | apply State.setSeen_keeps | apply State.fset_keeps
    | apply State.sideDark_keeps | apply State.serveSide_keeps | apply keeps_foldl | (split) | dsimp only
    | (refine Keeps.mk_upd ?_ rfl rfl))

theorem State.mate_keeps {s : State} (l : Nat) (h : Keeps s₀ s) : Keeps s₀ (State.mate s l) := by
  unfold State.mate
  with_reducible repeat' (first
    | assumption | (intro _) | exact Keeps.refl _ | apply State.fset_keeps | apply State.setSeen_keeps
    | apply State.event_keeps | apply State.untrain_keeps | apply State.serveLink_keeps | apply State.sideDark_keeps
    | dsimp only | (refine Keeps.mk_upd ?_ rfl rfl))

theorem State.mateSeen_keeps {s : State} (p : Nat) (h : Keeps s₀ s) : Keeps s₀ (State.mateSeen s p) := by
  unfold State.mateSeen
  with_reducible repeat' (first
    | assumption | (intro _) | exact Keeps.refl _ | apply State.mate_keeps | apply keeps_opt | apply keeps_opt'
    | apply keeps_ite | apply keeps_foldl | (split) | dsimp only | (refine Keeps.mk_upd ?_ rfl rfl))

theorem State.thermalStep_keeps {s : State} (t : Nat) (h : Keeps s₀ s) : Keeps s₀ (State.thermalStep s t) := by
  unfold State.thermalStep
  with_reducible repeat' (first
    | assumption | (intro _) | exact Keeps.refl _ | apply State.event_keeps | apply State.errEvent_keeps
    | apply State.count_keeps | apply State.fset_keeps | apply keeps_opt | apply keeps_opt' | apply keeps_ite
    | apply keeps_foldl | (split) | dsimp only | (refine Keeps.mk_upd ?_ rfl rfl))

theorem State.meshCommit_keeps {s : State} (p : Nat) (h : Keeps s₀ s) : Keeps s₀ (State.meshCommit s p) := by
  unfold State.meshCommit
  with_reducible repeat' (first
    | assumption | (intro _) | exact Keeps.refl _ | apply State.ctrlIgnored_keeps | apply State.fset_keeps
    | apply keeps_opt | apply keeps_opt' | apply keeps_ite | apply keeps_ite_fst | apply keeps_foldl_fst | (split)
    | dsimp only | (refine Keeps.mk_upd ?_ rfl rfl))

theorem State.moveRings_keeps {s : State} (p : Nat) (old : Option Nat) (h : Keeps s₀ s) : Keeps s₀
    (State.moveRings s p old) := by
  unfold State.moveRings
  with_reducible repeat' (first
    | assumption | (intro _) | exact Keeps.refl _ | apply State.serveSide_keeps | apply State.sideDark_keeps
    | apply keeps_opt | apply keeps_opt' | apply keeps_ite | apply keeps_foldl | (split) | dsimp only
    | (refine Keeps.mk_upd ?_ rfl rfl))

theorem State.meshDone_keeps {s : State} (p : Nat) (h : Keeps s₀ s) : Keeps s₀ (State.meshDone s p) := by
  unfold State.meshDone
  with_reducible repeat' (first
    | assumption | (intro _) | exact Keeps.refl _ | apply State.moveRings_keeps | apply State.fset_keeps
    | apply keeps_foldl | apply keeps_ite_fst | apply keeps_foldl_fst | (split) | dsimp only
    | (refine Keeps.mk_upd ?_ rfl rfl))

theorem State.calibrated_keeps {s : State} (p : Nat) (ok : Bool) (h : Keeps s₀ s) : Keeps s₀ (State.calibrated s
    p ok) := by
  unfold State.calibrated
  with_reducible repeat' (first
    | assumption | (intro _) | exact Keeps.refl _ | apply State.fset_keeps | apply State.event_keeps
    | apply keeps_opt | apply keeps_opt' | apply keeps_ite | (split) | dsimp only | (refine Keeps.mk_upd ?_ rfl rfl))

theorem State.meshCal_keeps {s : State} (p : Nat) (h : Keeps s₀ s) : Keeps s₀ (State.meshCal s p) := by
  unfold State.meshCal
  with_reducible repeat' (first
    | assumption | (intro _) | exact Keeps.refl _ | apply State.fset_keeps | apply State.ctrlIgnored_keeps
    | apply keeps_opt | apply keeps_opt' | apply keeps_ite | (split) | dsimp only | (refine Keeps.mk_upd ?_ rfl rfl))

theorem State.setMon_keeps {s : State} (p idx v : Nat) (h : Keeps s₀ s) : Keeps s₀ (State.setMon s p idx v) := by
  unfold State.setMon
  with_reducible repeat' (first
    | assumption | (intro _) | exact Keeps.refl _ | dsimp only | (refine Keeps.mk_upd ?_ rfl rfl))

theorem State.clearMon_keeps {s : State} (l k : Nat) (h : Keeps s₀ s) : Keeps s₀ (State.clearMon s l k) := by
  unfold State.clearMon
  with_reducible repeat' (first
    | assumption | (intro _) | exact Keeps.refl _ | apply keeps_ite_fst | apply keeps_foldl_fst | (split)
    | dsimp only | (refine Keeps.mk_upd ?_ rfl rfl))

theorem State.trimCells_keeps {s : State} (p : Nat) (cells : List Nat) (h : Keeps s₀ s) : Keeps s₀
    (State.trimCells s p cells) := by
  unfold State.trimCells
  with_reducible repeat' (first
    | assumption | (intro _) | exact Keeps.refl _ | apply State.useFree_keeps | apply keeps_opt | apply keeps_opt'
    | apply keeps_ite | apply keeps_foldl | (split) | dsimp only | (refine Keeps.mk_upd ?_ rfl rfl))

theorem State.lossAction_keeps {s : State} (l k stage : Nat) (many : Bool) (h : Keeps s₀ s) : Keeps s₀
    (State.lossAction s l k stage many) := by
  unfold State.lossAction
  with_reducible repeat' (first
    | assumption | (intro _) | exact Keeps.refl _ | apply State.combFail_keeps | apply State.lineFail_keeps
    | apply State.seek_keeps | apply State.setRing_keeps | apply State.trimCells_keeps | apply keeps_opt
    | apply keeps_opt' | apply keeps_ite | (split) | dsimp only | (refine Keeps.mk_upd ?_ rfl rfl))

theorem State.identify_keeps {s : State} (l k : Nat) (r : Ring) (line : Nat) (h : Keeps s₀ s) : Keeps s₀
    (State.identify s l k r line) := by
  unfold State.identify
  with_reducible repeat' (first
    | assumption | (intro _) | exact Keeps.refl _ | apply State.chSet_keeps | apply keeps_opt | apply keeps_opt'
    | apply keeps_ite | (split) | dsimp only | (refine Keeps.mk_upd ?_ rfl rfl))

theorem State.answerProbe_keeps {s : State} (l : Nat) (h : Keeps s₀ s) : Keeps s₀ (State.answerProbe s l) := by
  unfold State.answerProbe
  with_reducible repeat' (first
    | assumption | (intro _) | exact Keeps.refl _ | apply State.emit_keeps | (split) | dsimp only
    | (refine Keeps.mk_upd ?_ rfl rfl))

theorem normFinal_keeps {s : State} (out : Tensor) (r : NormRec) (m : Nat) (poison : Bool) (h : Keeps s₀ s) :
    Keeps s₀ (normFinal s out r m poison).1 := by
  unfold normFinal
  with_reducible repeat' (first
    | assumption | (intro _) | exact Keeps.refl _ | apply State.store_keeps | apply State.setPair_keeps
    | apply State.setReg_keeps | apply State.eventIf_keeps | apply keeps_opt | apply keeps_opt' | apply keeps_ite
    | apply keeps_ite_fst | apply keeps_foldl_fst | (split) | dsimp only | (refine Keeps.mk_upd ?_ rfl rfl))

theorem normDone_keeps {s : State} (o : Occ) (poison : Bool) (h : Keeps s₀ s) : Keeps s₀ (normDone s o poison) := by
  unfold normDone
  with_reducible repeat' (first
    | assumption | (intro _) | exact Keeps.refl _ | apply State.putOcc_keeps | dsimp only
    | (refine Keeps.mk_upd ?_ rfl rfl))

theorem normClear_keeps {s : State} (o : Occ) (h : Keeps s₀ s) : Keeps s₀ (normClear s o) := by
  unfold normClear
  with_reducible repeat' (first
    | assumption | (intro _) | exact Keeps.refl _ | apply normDone_keeps | apply State.store_keeps | (split)
    | dsimp only | (refine Keeps.mk_upd ?_ rfl rfl))

theorem normAccumulate_keeps {s : State} (o : Occ) (h : Keeps s₀ s) : Keeps s₀ (normAccumulate s o) := by
  unfold normAccumulate
  with_reducible repeat' (first
    | assumption | (intro _) | exact Keeps.refl _ | apply State.touchReads_keeps | apply State.store_keeps
    | apply State.fset_keeps | apply normDone_keeps | apply State.eventIf_keeps | apply keeps_foldl | (split)
    | dsimp only | (refine Keeps.mk_upd ?_ rfl rfl))

theorem normFinalOp_keeps {s : State} (o : Occ) (h : Keeps s₀ s) : Keeps s₀ (normFinalOp s o) := by
  unfold normFinalOp
  with_reducible repeat' (first
    | assumption | (intro _) | exact Keeps.refl _ | apply normFinal_keeps | apply State.touchReads_keeps
    | apply normDone_keeps | apply keeps_ite_fst | apply keeps_foldl_fst | (split) | dsimp only
    | (refine Keeps.mk_upd ?_ rfl rfl))

theorem State.runNorm_keeps {s : State} (t sub : Nat) (f : State → Occ → State) (h : Keeps s₀ s) (hf : ∀ x y0,
    Keeps s₀ x → Keeps s₀ (f x y0)) : Keeps s₀ (State.runNorm s t sub f) := by
  unfold State.runNorm
  with_reducible repeat' (first
    | assumption | (intro _) | exact Keeps.refl _ | apply keeps_opt | apply keeps_opt' | apply keeps_ite | apply hf
    | (split) | dsimp only | (refine Keeps.mk_upd ?_ rfl rfl))

theorem State.stackElems_keeps {s : State} (f : Fd) (t : Tensor) (h : Keeps s₀ s) : Keeps s₀ (State.stackElems s
    f t) := by
  unfold State.stackElems
  with_reducible repeat' (first
    | assumption | (intro _) | exact Keeps.refl _ | apply State.stackBytes_keeps | apply keeps_foldl | (split)
    | dsimp only | (refine Keeps.mk_upd ?_ rfl rfl))

theorem State.moveRun_keeps {s : State} (o : Occ) (src dst post : Tensor) (cvt : Nat) (h : Keeps s₀ s) : Keeps
    s₀ (State.moveRun s o src dst post cvt) := by
  unfold State.moveRun
  with_reducible repeat' (first
    | assumption | (intro _) | exact Keeps.refl _ | apply State.stackElems_keeps | apply State.touchReads_keeps
    | apply State.crossFrom_keeps | apply State.store_keeps | apply State.watchAdd_keeps | apply State.addPair_keeps
    | apply State.putOcc_keeps | apply keeps_opt | apply keeps_opt' | apply keeps_ite | apply keeps_ite_fst
    | apply keeps_foldl_fst | (split) | dsimp only | (refine Keeps.mk_upd ?_ rfl rfl))

theorem State.runMove_keeps {s : State} (t op : Nat) (h : Keeps s₀ s) : Keeps s₀ (State.runMove s t op) := by
  unfold State.runMove
  with_reducible repeat' (first
    | assumption | (intro _) | exact Keeps.refl _ | apply State.moveRun_keeps | apply keeps_opt | apply keeps_opt'
    | apply keeps_ite | (split) | dsimp only | (refine Keeps.mk_upd ?_ rfl rfl))

theorem State.touchStream_keeps {s : State} (t : Tensor) (off n : Nat) (h : Keeps s₀ s) : Keeps s₀
    (State.touchStream s t off n) := by
  unfold State.touchStream
  with_reducible repeat' (first
    | assumption | (intro _) | exact Keeps.refl _ | apply State.crossFabric_keeps | apply State.stackBytes_keeps
    | apply State.touchReads_keeps | apply keeps_foldl | (split) | dsimp only | (refine Keeps.mk_upd ?_ rfl rfl))

theorem State.landPiece_keeps {s : State} (t : Tensor) (off : Nat) (p : Piece) (h : Keeps s₀ s) : Keeps s₀
    (State.landPiece s t off p) := by
  unfold State.landPiece
  with_reducible repeat' (first
    | assumption | (intro _) | exact Keeps.refl _ | apply State.crossFabric_keeps | apply State.stackBytes_keeps
    | apply State.store_keeps | apply keeps_foldl | (split) | dsimp only | (refine Keeps.mk_upd ?_ rfl rfl))

theorem State.gatherBytes_keeps {s : State} (o : Occ) (f : Fd) (n : Nat) (h : Keeps s₀ s) : Keeps s₀
    (State.gatherBytes s o f n) := by
  unfold State.gatherBytes
  with_reducible repeat' (first
    | assumption | (intro _) | exact Keeps.refl _ | apply State.addPair_keeps | apply keeps_opt | apply keeps_opt'
    | apply keeps_ite | (split) | dsimp only | (refine Keeps.mk_upd ?_ rfl rfl))

theorem State.putCtx_keeps {s : State} (c : Ctx) (h : Keeps s₀ s) : Keeps s₀ (State.putCtx s c) := by
  unfold State.putCtx
  with_reducible repeat' (first
    | assumption | (intro _) | exact Keeps.refl _ | apply keeps_opt | apply keeps_opt' | apply keeps_ite | (split)
    | dsimp only | (refine Keeps.mk_upd ?_ rfl rfl))

theorem State.touchScaleBytes_keeps {s : State} (o : Occ) (i n : Nat) (h : Keeps s₀ s) : Keeps s₀
    (State.touchScaleBytes s o i n) := by
  unfold State.touchScaleBytes
  with_reducible repeat' (first
    | assumption | (intro _) | exact Keeps.refl _ | apply State.touchStream_keeps | apply keeps_opt
    | apply keeps_opt' | apply keeps_ite | (split) | dsimp only | (refine Keeps.mk_upd ?_ rfl rfl))

theorem State.post_keeps {s : State} (id k : Nat) (f : Frame) (h : Keeps s₀ s) : Keeps s₀ (State.post s id k f) := by
  unfold State.post
  with_reducible repeat' (first
    | assumption | (intro _) | exact Keeps.refl _ | apply State.sendTo_keeps | apply State.putCtx_keeps
    | apply keeps_opt | apply keeps_opt' | apply keeps_ite | (split) | dsimp only | (refine Keeps.mk_upd ?_ rfl rfl))

theorem State.sendOpen_keeps {s : State} (c : Ctx) (o : Occ) (st : Stream) (h : Keeps s₀ s) : Keeps s₀
    (State.sendOpen s c o st) := by
  unfold State.sendOpen
  with_reducible repeat' (first
    | assumption | (intro _) | exact Keeps.refl _ | apply State.sendTo_keeps | dsimp only
    | (refine Keeps.mk_upd ?_ rfl rfl))

theorem State.withdraw_keeps {s : State} (c : Ctx) (h : Keeps s₀ s) : Keeps s₀ (State.withdraw s c) := by
  unfold State.withdraw
  with_reducible repeat' (first
    | assumption | (intro _) | exact Keeps.refl _ | apply keeps_ite_fst | apply keeps_foldl_fst | (split)
    | dsimp only | (refine Keeps.mk_upd ?_ rfl rfl))

theorem State.endCtx_keeps {s : State} (id code nak peer : Nat) (h : Keeps s₀ s) : Keeps s₀ (State.endCtx s id
    code nak peer) := by
  unfold State.endCtx
  with_reducible repeat' (first
    | assumption | (intro _) | exact Keeps.refl _ | apply State.withdraw_keeps | apply State.sendTo_keeps
    | apply State.undefine_keeps | apply State.fset_keeps | apply State.putCtx_keeps | apply State.putOcc_keeps
    | apply keeps_opt | apply keeps_opt' | apply keeps_ite | apply keeps_foldl | (split) | dsimp only
    | (refine Keeps.mk_upd ?_ rfl rfl))

theorem State.endCtxs_keeps {s : State} (p : Ctx → Bool) (code nak : Nat) (peer : Ctx → Nat) (h : Keeps s₀ s) :
    Keeps s₀ (State.endCtxs s p code nak peer) := by
  unfold State.endCtxs
  with_reducible repeat' (first
    | assumption | (intro _) | exact Keeps.refl _ | apply State.endCtx_keeps | apply keeps_foldl | (split)
    | dsimp only | (refine Keeps.mk_upd ?_ rfl rfl))

theorem State.sendNak_keeps {s : State} (dst vc seq bucket code : Nat) (h : Keeps s₀ s) : Keeps s₀
    (State.sendNak s dst vc seq bucket code) := by
  unfold State.sendNak
  with_reducible repeat' (first
    | assumption | (intro _) | exact Keeps.refl _ | apply State.sendTo_keeps | apply State.count_keeps
    | apply State.errEvent_keeps | apply keeps_opt | apply keeps_opt' | apply keeps_ite | (split) | dsimp only
    | (refine Keeps.mk_upd ?_ rfl rfl))

theorem State.lateFrame_keeps {s : State} (h : Keeps s₀ s) : Keeps s₀ (State.lateFrame s) := by
  unfold State.lateFrame
  with_reducible repeat' (first
    | assumption | (intro _) | exact Keeps.refl _ | apply State.event_keeps | apply State.count_keeps | dsimp only
    | (refine Keeps.mk_upd ?_ rfl rfl))

theorem State.tryClose_keeps {s : State} (id : Nat) (h : Keeps s₀ s) : Keeps s₀ (State.tryClose s id) := by
  unfold State.tryClose
  with_reducible repeat' (first
    | assumption | (intro _) | exact Keeps.refl _ | apply State.putCtx_keeps | apply State.post_keeps
    | apply keeps_opt | apply keeps_opt' | apply keeps_ite | apply keeps_foldl | (split) | dsimp only
    | (refine Keeps.mk_upd ?_ rfl rfl))

theorem State.postPiece_keeps {s : State} (id k off : Nat) (p : Piece) (h : Keeps s₀ s) : Keeps s₀
    (State.postPiece s id k off p) := by
  unfold State.postPiece
  with_reducible repeat' (first
    | assumption | (intro _) | exact Keeps.refl _ | apply State.post_keeps | apply keeps_foldl | apply keeps_ite_fst
    | apply keeps_foldl_fst | (split) | dsimp only | (refine Keeps.mk_upd ?_ rfl rfl))

theorem State.landResult_keeps {s : State} (c : Ctx) (o : Occ) (off : Nat) (p : Piece) (h : Keeps s₀ s) : Keeps
    s₀ (State.landResult s c o off p) := by
  unfold State.landResult
  with_reducible repeat' (first
    | assumption | (intro _) | exact Keeps.refl _ | apply State.touchScaleBytes_keeps | apply State.stackBytes_keeps
    | apply State.store_keeps | apply State.crossFabric_keeps | apply State.putCtx_keeps | apply keeps_opt
    | apply keeps_opt' | apply keeps_ite | apply keeps_foldl | (split) | dsimp only
    | (refine Keeps.mk_upd ?_ rfl rfl))

theorem State.sendResult_keeps {s : State} (c : Ctx) (o : Occ) (off : Nat) (p : Piece) (h : Keeps s₀ s) : Keeps
    s₀ (State.sendResult s c o off p) := by
  unfold State.sendResult
  with_reducible repeat' (first
    | assumption | (intro _) | exact Keeps.refl _ | apply State.postPiece_keeps | apply keeps_opt | apply keeps_opt'
    | apply keeps_ite | apply keeps_foldl | (split) | dsimp only | (refine Keeps.mk_upd ?_ rfl rfl))

theorem State.hop_keeps {s : State} (id off n : Nat) (inc : Option Piece) (h : Keeps s₀ s) : Keeps s₀ (State.hop
    s id off n inc) := by
  unfold State.hop
  with_reducible repeat' (first
    | assumption | (intro _) | exact Keeps.refl _ | apply State.touchStream_keeps
    | apply State.touchScaleBytes_keeps | apply State.putCtx_keeps | apply State.landResult_keeps
    | apply State.sendResult_keeps | apply State.postPiece_keeps | apply State.tryClose_keeps | apply keeps_opt
    | apply keeps_opt' | apply keeps_ite | (split) | dsimp only | (refine Keeps.mk_upd ?_ rfl rfl))

theorem State.ownPiece_keeps {s : State} (id : Nat) (h : Keeps s₀ s) : Keeps s₀ (State.ownPiece s id) := by
  unfold State.ownPiece
  with_reducible repeat' (first
    | assumption | (intro _) | exact Keeps.refl _ | apply State.putCtx_keeps | apply State.gatherBytes_keeps
    | apply State.touchStream_keeps | apply State.landPiece_keeps | apply State.post_keeps | apply keeps_opt
    | apply keeps_opt' | apply keeps_ite | apply keeps_foldl | apply keeps_ite_fst | apply keeps_foldl_fst | (split)
    | dsimp only | (refine Keeps.mk_upd ?_ rfl rfl))

theorem State.blockPieces_keeps {s : State} (id : Nat) (h : Keeps s₀ s) : Keeps s₀ (State.blockPieces s id) := by
  unfold State.blockPieces
  with_reducible repeat' (first
    | assumption | (intro _) | exact Keeps.refl _ | apply State.putCtx_keeps | apply State.touchStream_keeps
    | apply State.post_keeps | apply keeps_opt | apply keeps_opt' | apply keeps_ite | apply keeps_foldl
    | apply keeps_ite_fst | apply keeps_foldl_fst | (split) | dsimp only | (refine Keeps.mk_upd ?_ rfl rfl))

theorem State.chainPiece_keeps {s : State} (id : Nat) (h : Keeps s₀ s) : Keeps s₀ (State.chainPiece s id) := by
  unfold State.chainPiece
  with_reducible repeat' (first
    | assumption | (intro _) | exact Keeps.refl _ | apply State.hop_keeps | apply State.putCtx_keeps
    | apply keeps_opt | apply keeps_opt' | apply keeps_ite | (split) | dsimp only | (refine Keeps.mk_upd ?_ rfl rfl))

theorem State.collPiece_keeps {s : State} (id : Nat) (h : Keeps s₀ s) : Keeps s₀ (State.collPiece s id) := by
  unfold State.collPiece
  with_reducible repeat' (first
    | assumption | (intro _) | exact Keeps.refl _ | apply State.putCtx_keeps | apply State.chainPiece_keeps
    | apply State.ownPiece_keeps | apply State.blockPieces_keeps | apply keeps_opt | apply keeps_opt'
    | apply keeps_ite | (split) | dsimp only | (refine Keeps.mk_upd ?_ rfl rfl))

theorem State.exchangeEnd_keeps {s : State} (c : Ctx) (o : Occ) (r : NormRec) (poison : Bool) (h : Keeps s₀ s) :
    Keeps s₀ (State.exchangeEnd s c o r poison) := by
  unfold State.exchangeEnd
  with_reducible repeat' (first
    | assumption | (intro _) | exact Keeps.refl _ | apply State.store_keeps | apply normFinal_keeps
    | apply State.putCtx_keeps | apply keeps_ite_fst | apply keeps_foldl_fst | (split) | dsimp only
    | (refine Keeps.mk_upd ?_ rfl rfl))

theorem State.exchangeStep_keeps {s : State} (id : Nat) (h : Keeps s₀ s) : Keeps s₀ (State.exchangeStep s id) := by
  unfold State.exchangeStep
  with_reducible repeat' (first
    | assumption | (intro _) | exact Keeps.refl _ | apply State.post_keeps | apply State.exchangeEnd_keeps
    | apply State.putCtx_keeps | apply State.touchReads_keeps | apply State.eventIf_keeps | apply keeps_opt
    | apply keeps_opt' | apply keeps_ite | (split) | dsimp only | (refine Keeps.mk_upd ?_ rfl rfl))

theorem State.sendAccept_keeps {s : State} (c : Ctx) (rank : Nat) (h : Keeps s₀ s) : Keeps s₀ (State.sendAccept
    s c rank) := by
  unfold State.sendAccept
  with_reducible repeat' (first
    | assumption | (intro _) | exact Keeps.refl _ | apply State.sendTo_keeps | dsimp only
    | (refine Keeps.mk_upd ?_ rfl rfl))

theorem State.lend_keeps {s : State} (id : Nat) (h : Keeps s₀ s) : Keeps s₀ (State.lend s id) := by
  unfold State.lend
  with_reducible repeat' (first
    | assumption | (intro _) | exact Keeps.refl _ | apply State.putCtx_keeps | apply keeps_foldl | (split)
    | dsimp only | (refine Keeps.mk_upd ?_ rfl rfl))

theorem State.countsArrived_keeps {s : State} (id : Nat) (h : Keeps s₀ s) : Keeps s₀ (State.countsArrived s id) := by
  unfold State.countsArrived
  with_reducible repeat' (first
    | assumption | (intro _) | exact Keeps.refl _ | apply State.stackBytes_keeps | apply State.putCtx_keeps
    | apply State.store_keeps | apply State.sendNak_keeps | apply State.endCtx_keeps | apply State.topUpVc_keeps
    | apply State.lend_keeps | apply State.sendAccept_keeps | apply keeps_opt | apply keeps_opt' | apply keeps_ite
    | apply keeps_foldl | apply keeps_ite_fst | apply keeps_foldl_fst | (split) | dsimp only
    | (refine Keeps.mk_upd ?_ rfl rfl))

theorem State.settleCounts_keeps {s : State} (id : Nat) (h : Keeps s₀ s) : Keeps s₀ (State.settleCounts s id) := by
  unfold State.settleCounts
  with_reducible repeat' (first
    | assumption | (intro _) | exact Keeps.refl _ | apply State.countsArrived_keeps | apply keeps_opt
    | apply keeps_opt' | apply keeps_ite | (split) | dsimp only | (refine Keeps.mk_upd ?_ rfl rfl))

theorem State.answerOpen_keeps {s : State} (id src : Nat) (r : OpenRec) (h : Keeps s₀ s) : Keeps s₀
    (State.answerOpen s id src r) := by
  unfold State.answerOpen
  with_reducible repeat' (first
    | assumption | (intro _) | exact Keeps.refl _ | apply State.endCtx_keeps | apply State.sendNak_keeps
    | apply State.settleCounts_keeps | apply State.putCtx_keeps | apply State.sendAccept_keeps
    | apply State.topUpVc_keeps | apply State.lend_keeps | apply keeps_opt | apply keeps_opt' | apply keeps_ite
    | (split) | dsimp only | (refine Keeps.mk_upd ?_ rfl rfl))

theorem State.answerPending_keeps {s : State} (c : Ctx) (h : Keeps s₀ s) : Keeps s₀ (State.answerPending s c) := by
  unfold State.answerPending
  with_reducible repeat' (first
    | assumption | (intro _) | exact Keeps.refl _ | apply State.answerOpen_keeps | apply State.sendNak_keeps
    | apply keeps_opt | apply keeps_opt' | apply keeps_ite | apply keeps_foldl | (split) | dsimp only
    | (refine Keeps.mk_upd ?_ rfl rfl))

theorem State.dropPending_keeps {s : State} (c : Ctx) (h : Keeps s₀ s) : Keeps s₀ (State.dropPending s c) := by
  unfold State.dropPending
  with_reducible repeat' (first
    | assumption | (intro _) | exact Keeps.refl _ | apply State.sendNak_keeps | apply keeps_foldl | (split)
    | dsimp only | (refine Keeps.mk_upd ?_ rfl rfl))

theorem State.openCtx_keeps {s : State} (o : Occ) (h : Keeps s₀ s) : Keeps s₀ (State.openCtx s o) := by
  unfold State.openCtx
  with_reducible repeat' (first
    | assumption | (intro _) | exact Keeps.refl _ | apply State.serveQueue_keeps | apply State.hubTouch_keeps
    | apply State.putOcc_keeps | apply State.dropPending_keeps | apply State.endCtx_keeps | apply State.putCtx_keeps
    | apply State.count_keeps | apply State.touchScaleBytes_keeps | apply State.touchStream_keeps
    | apply State.sendOpen_keeps | apply State.event_keeps | apply State.addFree_keeps
    | apply State.answerPending_keeps | apply State.topUpVc_keeps | apply State.countsArrived_keeps
    | apply keeps_opt | apply keeps_opt' | apply keeps_ite | apply keeps_foldl | apply keeps_ite_fst
    | apply keeps_foldl_fst | (split) | dsimp only | (refine Keeps.mk_upd ?_ rfl rfl))

theorem State.grant_keeps {s : State} (vc : Nat) (h : Keeps s₀ s) : Keeps s₀ (State.grant s vc) := by
  unfold State.grant
  with_reducible repeat' (first
    | assumption | (intro _) | exact Keeps.refl _ | apply State.wakeForWork_keeps | apply State.openCtx_keeps
    | apply keeps_opt | apply keeps_opt' | apply keeps_ite | (split) | dsimp only | (refine Keeps.mk_upd ?_ rfl rfl))

theorem State.collFinal_keeps {s : State} (o : Occ) (c : Ctx) (h : Keeps s₀ s) : Keeps s₀ (State.collFinal s o
    c).1 := by
  unfold State.collFinal
  with_reducible repeat' (first
    | assumption | (intro _) | exact Keeps.refl _ | apply State.hubStore_keeps | apply State.watchAdd_keeps
    | apply State.eventIf_keeps | apply State.event_keeps | apply State.addWrap_keeps | apply keeps_opt
    | apply keeps_opt' | apply keeps_ite | apply keeps_ite_fst | apply keeps_foldl_fst | (split) | dsimp only
    | (refine Keeps.mk_upd ?_ rfl rfl))

theorem State.gotOpen_keeps {s : State} (rx : Rx) (f : Frame) (r : OpenRec) (h : Keeps s₀ s) : Keeps s₀
    (State.gotOpen s rx f r) := by
  unfold State.gotOpen
  with_reducible repeat' (first
    | assumption | (intro _) | exact Keeps.refl _ | apply State.sendNak_keeps | apply State.lateFrame_keeps
    | apply State.count_keeps | apply State.answerOpen_keeps | apply State.sendTo_keeps | apply keeps_opt
    | apply keeps_opt' | apply keeps_ite | (split) | dsimp only | (refine Keeps.mk_upd ?_ rfl rfl))

theorem State.gotAccept_keeps {s : State} (f : Frame) (h : Keeps s₀ s) : Keeps s₀ (State.gotAccept s f) := by
  unfold State.gotAccept
  with_reducible repeat' (first
    | assumption | (intro _) | exact Keeps.refl _ | apply State.sendTo_keeps | apply State.putCtx_keeps
    | apply State.lateFrame_keeps | apply keeps_opt | apply keeps_opt' | apply keeps_ite | apply keeps_foldl
    | (split) | dsimp only | (refine Keeps.mk_upd ?_ rfl rfl))

theorem State.gotNak_keeps {s : State} (f : Frame) (code : Nat) (h : Keeps s₀ s) : Keeps s₀ (State.gotNak s f
    code) := by
  unfold State.gotNak
  with_reducible repeat' (first
    | assumption | (intro _) | exact Keeps.refl _ | apply State.errEvent_keeps | apply State.count_keeps
    | apply State.endCtx_keeps | apply keeps_opt | apply keeps_opt' | apply keeps_ite | (split) | dsimp only
    | (refine Keeps.mk_upd ?_ rfl rfl))

theorem State.gotRetry_keeps {s : State} (f : Frame) (h : Keeps s₀ s) : Keeps s₀ (State.gotRetry s f) := by
  unfold State.gotRetry
  with_reducible repeat' (first
    | assumption | (intro _) | exact Keeps.refl _ | apply State.putCtx_keeps | apply State.lateFrame_keeps
    | apply keeps_opt | apply keeps_opt' | apply keeps_ite | (split) | dsimp only | (refine Keeps.mk_upd ?_ rfl rfl))

theorem State.gotAbort_keeps {s : State} (f : Frame) (h : Keeps s₀ s) : Keeps s₀ (State.gotAbort s f) := by
  unfold State.gotAbort
  with_reducible repeat' (first
    | assumption | (intro _) | exact Keeps.refl _ | apply State.endCtx_keeps | apply State.lateFrame_keeps
    | apply keeps_opt | apply keeps_opt' | apply keeps_ite | (split) | dsimp only | (refine Keeps.mk_upd ?_ rfl rfl))

theorem State.storeForward_keeps {s : State} (id k : Nat) (f : Frame) (h : Keeps s₀ s) : Keeps s₀
    (State.storeForward s id k f) := by
  unfold State.storeForward
  with_reducible repeat' (first
    | assumption | (intro _) | exact Keeps.refl _ | apply State.post_keeps | (split) | dsimp only
    | (refine Keeps.mk_upd ?_ rfl rfl))

theorem State.land_keeps {s : State} (id base : Nat) (f : Frame) (p : Piece) (h : Keeps s₀ s) : Keeps s₀
    (State.land s id base f p) := by
  unfold State.land
  with_reducible repeat' (first
    | assumption | (intro _) | exact Keeps.refl _ | apply State.putCtx_keeps | apply State.gatherBytes_keeps
    | apply State.landPiece_keeps | (split) | dsimp only | (refine Keeps.mk_upd ?_ rfl rfl))

theorem State.takeData_keeps {s : State} (c : Ctx) (o : Occ) (f : Frame) (p : Piece) (h : Keeps s₀ s) : Keeps s₀
    (State.takeData s c o f p) := by
  unfold State.takeData
  with_reducible repeat' (first
    | assumption | (intro _) | exact Keeps.refl _ | apply State.hop_keeps | apply State.landResult_keeps
    | apply State.storeForward_keeps | apply State.land_keeps | apply State.exchangeStep_keeps
    | apply State.putCtx_keeps | apply keeps_opt | apply keeps_opt' | apply keeps_ite | (split) | dsimp only
    | (refine Keeps.mk_upd ?_ rfl rfl))

theorem State.takeInbox_keeps {s : State} (id : Nat) (h : Keeps s₀ s) : Keeps s₀ (State.takeInbox s id) := by
  unfold State.takeInbox
  with_reducible repeat' (first
    | assumption | (intro _) | exact Keeps.refl _ | apply State.settleCounts_keeps | apply State.topUpVc_keeps
    | apply State.takeData_keeps | apply State.putCtx_keeps | apply keeps_opt | apply keeps_opt' | apply keeps_ite
    | apply keeps_foldl | (split) | dsimp only | (refine Keeps.mk_upd ?_ rfl rfl))

theorem State.gotData_keeps {s : State} (rx : Rx) (f : Frame) (p : Piece) (h : Keeps s₀ s) : Keeps s₀
    (State.gotData s rx f p) := by
  unfold State.gotData
  with_reducible repeat' (first
    | assumption | (intro _) | exact Keeps.refl _ | apply State.sendNak_keeps | apply State.lateFrame_keeps
    | apply State.count_keeps | apply State.takeData_keeps | apply State.putCtx_keeps | apply keeps_opt
    | apply keeps_opt' | apply keeps_ite | (split) | dsimp only | (refine Keeps.mk_upd ?_ rfl rfl))

theorem State.gotClose_keeps {s : State} (rx : Rx) (f : Frame) (h : Keeps s₀ s) : Keeps s₀ (State.gotClose s rx
    f) := by
  unfold State.gotClose
  with_reducible repeat' (first
    | assumption | (intro _) | exact Keeps.refl _ | apply State.lateFrame_keeps | apply State.count_keeps
    | apply State.tryClose_keeps | apply State.putCtx_keeps | apply State.post_keeps | apply keeps_opt
    | apply keeps_opt' | apply keeps_ite | (split) | dsimp only | (refine Keeps.mk_upd ?_ rfl rfl))

theorem State.signal_keeps {s : State} (o : Occ) (h : Keeps s₀ s) : Keeps s₀ (State.signal s o) := by
  unfold State.signal
  with_reducible repeat' (first
    | assumption | (intro _) | exact Keeps.refl _ | apply State.completeOcc_keeps | apply State.signalSem_keeps
    | apply State.count_keeps | apply State.sendTo_keeps | apply State.putOcc_keeps | apply State.freeHead_keeps
    | apply keeps_opt | apply keeps_opt' | apply keeps_ite | (split) | dsimp only | (refine Keeps.mk_upd ?_ rfl rfl))

theorem State.gotSignal_keeps {s : State} (rx : Rx) (f : Frame) (id tile sem : Nat) (set : Bool) (value : Nat)
    (h : Keeps s₀ s) : Keeps s₀ (State.gotSignal s rx f id tile sem set value) := by
  unfold State.gotSignal
  with_reducible repeat' (first
    | assumption | (intro _) | exact Keeps.refl _ | apply State.count_keeps | apply State.signalSem_keeps
    | apply State.sendTo_keeps | apply keeps_opt | apply keeps_opt' | apply keeps_ite | (split) | dsimp only
    | (refine Keeps.mk_upd ?_ rfl rfl))

theorem State.gotSignalAck_keeps {s : State} (f : Frame) (id : Nat) (ok : Bool) (h : Keeps s₀ s) : Keeps s₀
    (State.gotSignalAck s f id ok) := by
  unfold State.gotSignalAck
  with_reducible repeat' (first
    | assumption | (intro _) | exact Keeps.refl _ | apply State.completeOcc_keeps | apply State.putOcc_keeps
    | apply keeps_opt | apply keeps_opt' | apply keeps_ite | (split) | dsimp only | (refine Keeps.mk_upd ?_ rfl rfl))

theorem State.validateGroup_keeps {s : State} (i : Nat) (h : Keeps s₀ s) : Keeps s₀ (State.validateGroup s i) := by
  unfold State.validateGroup
  with_reducible repeat' (first
    | assumption | (intro _) | exact Keeps.refl _ | apply State.hubTouch_keeps | apply State.fset_keeps
    | apply State.event_keeps | apply keeps_opt | apply keeps_opt' | apply keeps_ite | apply keeps_foldl
    | apply keeps_ite_fst | apply keeps_foldl_fst | (split) | dsimp only | (refine Keeps.mk_upd ?_ rfl rfl))

theorem State.collRun_keeps {s : State} (sub vc seq bucket : Nat) (h : Keeps s₀ s) : Keeps s₀ (State.collRun s
    sub vc seq bucket) := by
  unfold State.collRun
  with_reducible repeat' (first
    | assumption | (intro _) | exact Keeps.refl _ | apply State.collPiece_keeps | apply State.takeInbox_keeps
    | apply keeps_opt | apply keeps_opt' | apply keeps_ite | (split) | dsimp only | (refine Keeps.mk_upd ?_ rfl rfl))

theorem State.planFail_keeps {s : State} (code idx : Nat) (h : Keeps s₀ s) : Keeps s₀ (State.planFail s code
    idx) := by
  unfold State.planFail
  with_reducible repeat' (first
    | assumption | (intro _) | exact Keeps.refl _ | apply State.fset_keeps | apply State.event_keeps | dsimp only
    | (refine Keeps.mk_upd ?_ rfl rfl))

theorem State.writeTargets_keeps {s : State} (t : PlanTab) (h : Keeps s₀ s) : Keeps s₀ (State.writeTargets s t) := by
  unfold State.writeTargets
  with_reducible repeat' (first
    | assumption | (intro _) | exact Keeps.refl _ | apply State.revive_keeps | apply State.target_keeps
    | apply keeps_foldl | apply keeps_ite_fst | apply keeps_foldl_fst | (split) | dsimp only
    | (refine Keeps.mk_upd ?_ rfl rfl))

theorem State.install_keeps {s : State} (epoch : Nat) (t : Option PlanTab) (h : Keeps s₀ s) : Keeps s₀
    (State.install s epoch t) := by
  unfold State.install
  with_reducible repeat' (first
    | assumption | (intro _) | exact Keeps.refl _ | apply State.setReg_keeps | apply State.writeTargets_keeps
    | apply State.untrain_keeps | apply State.sendTo_keeps | apply keeps_foldl | (split) | dsimp only
    | (refine Keeps.mk_upd ?_ rfl rfl))

theorem State.planGo_keeps {s : State} (h : Keeps s₀ s) : Keeps s₀ (State.planGo s) := by
  unfold State.planGo
  with_reducible repeat' (first
    | assumption | (intro _) | exact Keeps.refl _ | apply State.ctrlIgnored_keeps | apply State.hubTouch_keeps
    | apply State.planFail_keeps | apply State.fset_keeps | apply keeps_opt | apply keeps_opt' | apply keeps_ite
    | apply keeps_ite_fst | apply keeps_foldl_fst | (split) | dsimp only | (refine Keeps.mk_upd ?_ rfl rfl))

theorem State.planBack_keeps {s : State} (epoch : Nat) (old : PlanTab) (h : Keeps s₀ s) : Keeps s₀
    (State.planBack s epoch old) := by
  unfold State.planBack
  with_reducible repeat' (first
    | assumption | (intro _) | exact Keeps.refl _ | apply State.install_keeps | apply State.setPort_keeps
    | apply State.fset_keeps | apply keeps_opt | apply keeps_opt' | apply keeps_ite | apply keeps_foldl
    | apply keeps_ite_fst | apply keeps_foldl_fst | (split) | dsimp only | (refine Keeps.mk_upd ?_ rfl rfl))

theorem State.planCoordLost_keeps {s : State} (h : Keeps s₀ s) : Keeps s₀ (State.planCoordLost s) := by
  unfold State.planCoordLost
  with_reducible repeat' (first
    | assumption | (intro _) | exact Keeps.refl _ | apply State.planFail_keeps | apply State.planBack_keeps
    | apply keeps_opt | apply keeps_opt' | apply keeps_ite | apply keeps_ite_fst | apply keeps_foldl_fst | (split)
    | dsimp only | (refine Keeps.mk_upd ?_ rfl rfl))

theorem drainBlock_keeps {s : State} (j : DrainJob) (r0 c0 w : Nat) (vals : List (Nat × Bool)) (h : Keeps s₀ s)
    : Keeps s₀ (drainBlock s j r0 c0 w vals).1 := by
  unfold drainBlock
  with_reducible repeat' (first
    | assumption | (intro _) | exact Keeps.refl _ | apply State.touchReads_keeps | apply State.store_keeps
    | apply State.watchAdd_keeps | apply State.mergeAmax_keeps | apply keeps_opt | apply keeps_opt'
    | apply keeps_ite | apply keeps_foldl | apply keeps_ite_fst | apply keeps_foldl_fst | (split) | dsimp only
    | (refine Keeps.mk_upd ?_ rfl rfl) | (refine Keeps.mk_mem ?_ rfl rfl ?_) | exact MemSt.write_keeps ..
    | exact MemSt.upset_keeps .. | exact MemSt.putWord_keeps ..)
  all_goals exact MemSt.Keeps.of_eq rfl rfl rfl

theorem State.setTe_keeps {s : State} (i : Nat) (x : TeSt) (h : Keeps s₀ s) : Keeps s₀ (State.setTe s i x) := by
  unfold State.setTe
  with_reducible repeat' (first
    | assumption | (intro _) | exact Keeps.refl _ | (split) | dsimp only | (refine Keeps.mk_upd ?_ rfl rfl))

theorem State.blockTotals_keeps {s : State} (j : MulJob) (row col : Nat) (fresh : Bool) (h : Keeps s₀ s) : Keeps
    s₀ (State.blockTotals s j row col fresh).1 := by
  unfold State.blockTotals
  with_reducible repeat' (first
    | assumption | (intro _) | exact Keeps.refl _ | apply State.touchReads_keeps | apply keeps_opt
    | apply keeps_opt' | apply keeps_ite | apply keeps_ite_fst | apply keeps_foldl_fst | (split) | dsimp only
    | (refine Keeps.mk_upd ?_ rfl rfl))

theorem State.beginMul_keeps {s : State} (i : Nat) (o : Occ) (h : Keeps s₀ s) : Keeps s₀ (State.beginMul s i o) := by
  unfold State.beginMul
  with_reducible repeat' (first
    | assumption | (intro _) | exact Keeps.refl _ | apply State.setPair_keeps | apply State.putOcc_keeps
    | apply State.setTe_keeps | apply keeps_foldl | (split) | dsimp only | (refine Keeps.mk_upd ?_ rfl rfl))

theorem State.parkTe_keeps {s : State} (ks : List Nat) (x : TeSt) (h : Keeps s₀ s) : Keeps s₀ (State.parkTe s ks
    x) := by
  unfold State.parkTe
  with_reducible repeat' (first
    | assumption | (intro _) | exact Keeps.refl _ | apply State.setTe_keeps | apply keeps_foldl | (split)
    | dsimp only | (refine Keeps.mk_upd ?_ rfl rfl))

theorem State.endBlock_keeps {s : State} (i : Nat) (o : Occ) (j : MulJob) (h : Keeps s₀ s) : Keeps s₀
    (State.endBlock s i o j) := by
  unfold State.endBlock
  with_reducible repeat' (first
    | assumption | (intro _) | exact Keeps.refl _ | apply State.setTe_keeps | apply State.putOcc_keeps
    | apply State.parkTe_keeps | apply keeps_opt | apply keeps_opt' | apply keeps_ite | (split) | dsimp only
    | (refine Keeps.mk_upd ?_ rfl rfl))

theorem State.endRun_keeps {s : State} (i : Nat) (o : Occ) (j : MulJob) (g : Nat) (h : Keeps s₀ s) : Keeps s₀
    (State.endRun s i o j g) := by
  unfold State.endRun
  with_reducible repeat' (first
    | assumption | (intro _) | exact Keeps.refl _ | apply State.touchReads_keeps | apply State.endBlock_keeps
    | apply State.setTe_keeps | apply State.blockTotals_keeps | apply State.putOcc_keeps | apply State.store_keeps
    | apply keeps_opt | apply keeps_opt' | apply keeps_ite | apply keeps_ite_fst | apply keeps_foldl_fst | (split)
    | dsimp only | (refine Keeps.mk_upd ?_ rfl rfl))

theorem State.mulGroup_keeps {s : State} (i : Nat) (o : Occ) (j : MulJob) (h : Keeps s₀ s) : Keeps s₀
    (State.mulGroup s i o j) := by
  unfold State.mulGroup
  with_reducible repeat' (first
    | assumption | (intro _) | exact Keeps.refl _ | apply State.addPair_keeps | apply State.endRun_keeps
    | apply State.setTe_keeps | apply keeps_opt | apply keeps_opt' | apply keeps_ite | apply keeps_foldl | (split)
    | dsimp only | (refine Keeps.mk_upd ?_ rfl rfl))

theorem State.mulStep_keeps {s : State} (t e : Nat) (h : Keeps s₀ s) : Keeps s₀ (State.mulStep s t e) := by
  unfold State.mulStep
  with_reducible repeat' (first
    | assumption | (intro _) | exact Keeps.refl _ | apply State.mulGroup_keeps | apply State.beginMul_keeps
    | apply keeps_opt | apply keeps_opt' | apply keeps_ite | (split) | dsimp only | (refine Keeps.mk_upd ?_ rfl rfl))

theorem State.mulSteps_keeps (t e x2 : Nat) {x3 : State} (h : Keeps s₀ x3) : Keeps s₀ (State.mulSteps t e x2 x3) := by
  induction x2 generalizing x3 with
  | zero => exact h
  | succ n ih => exact ih (State.mulStep_keeps t e h)

theorem State.countDrains_keeps {s : State} (is : List Nat) (n : Nat) (h : Keeps s₀ s) : Keeps s₀
    (State.countDrains s is n) := by
  unfold State.countDrains
  with_reducible repeat' (first
    | assumption | (intro _) | exact Keeps.refl _ | apply State.addWrap_keeps | apply keeps_foldl | (split)
    | dsimp only | (refine Keeps.mk_upd ?_ rfl rfl))

theorem State.drainNext_keeps {s : State} (t e : Nat) (h : Keeps s₀ s) : Keeps s₀ (State.drainNext s t e) := by
  unfold State.drainNext
  with_reducible repeat' (first
    | assumption | (intro _) | exact Keeps.refl _ | apply State.setTe_keeps | apply State.blockTotals_keeps
    | apply drainBlock_keeps | apply State.store_keeps | apply State.countDrains_keeps | apply State.putOcc_keeps
    | apply keeps_opt | apply keeps_opt' | apply keeps_ite | apply keeps_ite_fst | apply keeps_foldl_fst | (split)
    | dsimp only | (refine Keeps.mk_upd ?_ rfl rfl))

theorem State.readingBlock_keeps (n : Nat) {s : State} (d : DrainJob) (tot : Tensor) {bp : State × Bool} (rc :
    Nat × Nat) (h : Keeps s₀ s) (hbp : Keeps s₀ bp.1) : Keeps s₀ (State.readingBlock n s d tot bp rc).1 := by
  unfold State.readingBlock
  with_reducible repeat' (first
    | assumption | (intro _) | exact Keeps.refl _ | apply drainBlock_keeps | apply keeps_ite_fst
    | apply keeps_foldl_fst | (split) | dsimp only | (refine Keeps.mk_upd ?_ rfl rfl))

theorem State.drainSample_keeps {s : State} (t e : Nat) (o mo : Occ) (j : MulJob) (h : Keeps s₀ s) : Keeps s₀
    (State.drainSample s t e o mo j) := by
  unfold State.drainSample
  with_reducible repeat' (first
    | assumption | (intro _) | exact Keeps.refl _ | apply State.touchReads_keeps | apply State.blockTotals_keeps
    | apply State.setTe_keeps | apply State.store_keeps | apply State.putOcc_keeps | apply drainBlock_keeps
    | apply State.countDrains_keeps | apply keeps_opt | apply keeps_opt' | apply keeps_ite | apply keeps_ite_fst
    | apply keeps_foldl_fst | (split) | dsimp only | (refine Keeps.mk_upd ?_ rfl rfl))

theorem State.drainRead_keeps {s : State} (t e : Nat) (o : Occ) (tot : Tensor) (h : Keeps s₀ s) : Keeps s₀
    (State.drainRead s t e o tot) := by
  unfold State.drainRead
  with_reducible repeat' (first
    | assumption | (intro _) | exact Keeps.refl _ | apply State.readingBlock_keeps | apply State.touchReads_keeps
    | apply State.putOcc_keeps | apply State.countDrains_keeps | apply keeps_opt | apply keeps_opt'
    | apply keeps_ite | apply keeps_foldl | apply keeps_ite_fst | apply keeps_foldl_fst | (split) | dsimp only
    | (refine Keeps.mk_upd ?_ rfl rfl))

theorem State.drainRun_keeps {s : State} (t e : Nat) (o : Occ) (tot : Tensor) (h : Keeps s₀ s) : Keeps s₀
    (State.drainRun s t e o tot) := by
  unfold State.drainRun
  with_reducible repeat' (first
    | assumption | (intro _) | exact Keeps.refl _ | apply State.drainSample_keeps | apply State.drainRead_keeps
    | apply keeps_ite_fst | apply keeps_foldl_fst | (split) | dsimp only | (refine Keeps.mk_upd ?_ rfl rfl))

theorem State.onTiles_keeps {s : State} (slot : Nat) (f : Slot → Slot) (h : Keeps s₀ s) : Keeps s₀
    (State.onTiles s slot f) := by
  unfold State.onTiles
  with_reducible repeat' (first
    | assumption | (intro _) | exact Keeps.refl _ | apply State.setSlot_keeps | apply keeps_foldl | (split)
    | dsimp only | (refine Keeps.mk_upd ?_ rfl rfl))

theorem scaleExport_keeps {s : State} (o : Occ) (x : Tensor) (h : Keeps s₀ s) : Keeps s₀ (scaleExport s o x) := by
  unfold scaleExport
  with_reducible repeat' (first
    | assumption | (intro _) | exact Keeps.refl _ | apply State.touchReads_keeps | apply State.store_keeps
    | apply State.setSlot_keeps | apply State.putOcc_keeps | apply keeps_opt | apply keeps_opt' | apply keeps_ite
    | apply keeps_foldl | apply keeps_ite_fst | apply keeps_foldl_fst | (split) | dsimp only
    | (refine Keeps.mk_upd ?_ rfl rfl))

theorem pushSlot_keeps (t slot code : Nat) (poison : Bool) {s : State} (h : Keeps s₀ s) : Keeps s₀ (pushSlot t
    slot code poison s) := by
  unfold pushSlot
  with_reducible repeat' (first
    | assumption | (intro _) | exact Keeps.refl _ | apply State.event_keeps | apply State.count_keeps
    | apply State.onTiles_keeps | apply State.fset_keeps | apply keeps_opt | apply keeps_opt' | apply keeps_ite
    | (split) | dsimp only | (refine Keeps.mk_upd ?_ rfl rfl))

theorem scalePush_keeps {s : State} (o : Occ) (x : Tensor) (h : Keeps s₀ s) : Keeps s₀ (scalePush s o x) := by
  unfold scalePush
  with_reducible repeat' (first
    | assumption | (intro _) | exact Keeps.refl _ | apply State.touchReads_keeps | apply pushSlot_keeps
    | apply State.putOcc_keeps | apply keeps_foldl | apply keeps_ite_fst | apply keeps_foldl_fst | (split)
    | dsimp only | (refine Keeps.mk_upd ?_ rfl rfl))

theorem scaleSetTarget_keeps {s : State} (o : Occ) (x : Tensor) (h : Keeps s₀ s) : Keeps s₀ (scaleSetTarget s o
    x) := by
  unfold scaleSetTarget
  with_reducible repeat' (first
    | assumption | (intro _) | exact Keeps.refl _ | apply State.touchReads_keeps | apply State.putOcc_keeps
    | apply State.onTiles_keeps | apply keeps_opt | apply keeps_opt' | apply keeps_ite | apply keeps_foldl
    | apply keeps_ite_fst | apply keeps_foldl_fst | (split) | dsimp only | (refine Keeps.mk_upd ?_ rfl rfl))

theorem scaleSave_keeps {s : State} (o : Occ) (x : Tensor) (h : Keeps s₀ s) : Keeps s₀ (scaleSave s o x) := by
  unfold scaleSave
  with_reducible repeat' (first
    | assumption | (intro _) | exact Keeps.refl _ | apply State.putOcc_keeps | apply State.store_keeps
    | apply keeps_ite_fst | apply keeps_foldl_fst | (split) | dsimp only | (refine Keeps.mk_upd ?_ rfl rfl))

theorem scaleLoad_keeps {s : State} (o : Occ) (x : Tensor) (h : Keeps s₀ s) : Keeps s₀ (scaleLoad s o x) := by
  unfold scaleLoad
  with_reducible repeat' (first
    | assumption | (intro _) | exact Keeps.refl _ | apply State.touchReads_keeps | apply State.onTiles_keeps
    | apply State.putOcc_keeps | apply keeps_opt | apply keeps_opt' | apply keeps_ite | apply keeps_foldl
    | apply keeps_ite_fst | apply keeps_foldl_fst | (split) | dsimp only | (refine Keeps.mk_upd ?_ rfl rfl))

theorem scaleWatchExport_keeps {s : State} (o : Occ) (x : Tensor) (h : Keeps s₀ s) : Keeps s₀ (scaleWatchExport
    s o x) := by
  unfold scaleWatchExport
  with_reducible repeat' (first
    | assumption | (intro _) | exact Keeps.refl _ | apply State.store_keeps | apply State.setWatch_keeps
    | apply State.putOcc_keeps | apply keeps_opt | apply keeps_opt' | apply keeps_ite | apply keeps_foldl
    | apply keeps_ite_fst | apply keeps_foldl_fst | (split) | dsimp only | (refine Keeps.mk_upd ?_ rfl rfl))

theorem State.runScale_keeps {s : State} (t sub : Nat) (f : State → Occ → Tensor → State) (h : Keeps s₀ s) (hf :
    ∀ x y0 y1, Keeps s₀ x → Keeps s₀ (f x y0 y1)) : Keeps s₀ (State.runScale s t sub f) := by
  unfold State.runScale
  with_reducible repeat' (first
    | assumption | (intro _) | exact Keeps.refl _ | apply keeps_opt | apply keeps_opt' | apply keeps_ite | apply hf
    | (split) | dsimp only | (refine Keeps.mk_upd ?_ rfl rfl))

theorem State.abortOcc_keeps {s : State} (o : Occ) (h : Keeps s₀ s) : Keeps s₀ (State.abortOcc s o) := by
  unfold State.abortOcc
  with_reducible repeat' (first
    | assumption | (intro _) | exact Keeps.refl _ | apply State.endCtx_keeps | apply State.putOcc_keeps
    | apply State.undefine_keeps | apply keeps_opt | apply keeps_opt' | apply keeps_ite | (split) | dsimp only
    | (refine Keeps.mk_upd ?_ rfl rfl))

theorem State.abortCurrent_keeps {s : State} (p : Occ → Bool) (h : Keeps s₀ s) : Keeps s₀ (State.abortCurrent s
    p) := by
  unfold State.abortCurrent
  with_reducible repeat' (first
    | assumption | (intro _) | exact Keeps.refl _ | apply State.abortOcc_keeps | (split) | dsimp only
    | (refine Keeps.mk_upd ?_ rfl rfl))

theorem State.abortEvery_keeps {s : State} (p : Occ → Bool) (h : Keeps s₀ s) : Keeps s₀ (State.abortEvery s p) := by
  unfold State.abortEvery
  with_reducible repeat' (first
    | assumption | (intro _) | exact Keeps.refl _ | apply State.abortOcc_keeps | apply keeps_foldl | (split)
    | dsimp only | (refine Keeps.mk_upd ?_ rfl rfl))

theorem State.resetTe_keeps {s : State} (i : Nat) (h : Keeps s₀ s) : Keeps s₀ (State.resetTe s i) := by
  unfold State.resetTe
  with_reducible repeat' (first
    | assumption | (intro _) | exact Keeps.refl _ | apply State.abortCurrent_keeps | apply State.abortOcc_keeps
    | apply State.setTe_keeps | apply State.parkTe_keeps | apply keeps_opt | apply keeps_opt' | apply keeps_ite
    | apply keeps_foldl | (split) | dsimp only | (refine Keeps.mk_upd ?_ rfl rfl))

theorem State.resetVe_keeps {s : State} (t : Nat) (h : Keeps s₀ s) : Keeps s₀ (State.resetVe s t) := by
  unfold State.resetVe
  with_reducible repeat' (first
    | assumption | (intro _) | exact Keeps.refl _ | apply State.abortCurrent_keeps | dsimp only
    | (refine Keeps.mk_upd ?_ rfl rfl))

theorem State.resetRng_keeps {s : State} (t : Nat) (h : Keeps s₀ s) : Keeps s₀ (State.resetRng s t) := by
  unfold State.resetRng
  with_reducible repeat' (first
    | assumption | (intro _) | exact Keeps.refl _ | apply State.abortCurrent_keeps | dsimp only
    | (refine Keeps.mk_upd ?_ rfl rfl))

theorem State.resetScale_keeps {s : State} (t : Nat) (h : Keeps s₀ s) : Keeps s₀ (State.resetScale s t) := by
  unfold State.resetScale
  with_reducible repeat' (first
    | assumption | (intro _) | exact Keeps.refl _ | apply State.abortOcc_keeps | (split) | dsimp only
    | (refine Keeps.mk_upd ?_ rfl rfl))

theorem State.resetDma_keeps {s : State} (t : Nat) (h : Keeps s₀ s) : Keeps s₀ (State.resetDma s t) := by
  unfold State.resetDma
  with_reducible repeat' (first
    | assumption | (intro _) | exact Keeps.refl _ | apply State.abortEvery_keeps | dsimp only
    | (refine Keeps.mk_upd ?_ rfl rfl))

theorem State.resetTrail_keeps {s : State} (h : Keeps s₀ s) : Keeps s₀ (State.resetTrail s) := by
  unfold State.resetTrail
  with_reducible repeat' (first
    | assumption | (intro _) | exact Keeps.refl _ | apply State.abortCurrent_keeps | (split) | dsimp only
    | (refine Keeps.mk_upd ?_ rfl rfl))

theorem State.resetColl_keeps {s : State} (h : Keeps s₀ s) : Keeps s₀ (State.resetColl s) := by
  unfold State.resetColl
  with_reducible repeat' (first
    | assumption | (intro _) | exact Keeps.refl _ | apply State.endCtxs_keeps | (split) | dsimp only
    | (refine Keeps.mk_upd ?_ rfl rfl))

theorem State.abortAll_keeps {s : State} (h : Keeps s₀ s) : Keeps s₀ (State.abortAll s) := by
  unfold State.abortAll
  with_reducible repeat' (first
    | assumption | (intro _) | exact Keeps.refl _ | apply State.resetTe_keeps | apply State.resetScale_keeps
    | apply State.resetRng_keeps | apply State.resetDma_keeps | apply State.resetVe_keeps
    | apply State.endCtxs_keeps | apply State.resetTrail_keeps | apply keeps_foldl | (split) | dsimp only
    | (refine Keeps.mk_upd ?_ rfl rfl))

theorem State.setDraw_keeps {s : State} (t n v : Nat) (h : Keeps s₀ s) : Keeps s₀ (State.setDraw s t n v) := by
  unfold State.setDraw
  with_reducible repeat' (first
    | assumption | (intro _) | exact Keeps.refl _ | apply State.setPair_keeps | dsimp only
    | (refine Keeps.mk_upd ?_ rfl rfl))

theorem rngElements_keeps {s : State} (o : Occ) (t : Tensor) (h : Keeps s₀ s) : Keeps s₀ (rngElements s o t) := by
  unfold rngElements
  with_reducible repeat' (first
    | assumption | (intro _) | exact Keeps.refl _ | apply State.store_keeps | apply State.watchAdd_keeps
    | apply State.addPair_keeps | apply State.putOcc_keeps | apply keeps_opt | apply keeps_opt' | apply keeps_ite
    | apply keeps_ite_fst | apply keeps_foldl_fst | (split) | dsimp only | (refine Keeps.mk_upd ?_ rfl rfl))

theorem rngBernoulli_keeps {s : State} (o : Occ) (t : Tensor) (h : Keeps s₀ s) : Keeps s₀ (rngBernoulli s o t) := by
  unfold rngBernoulli
  with_reducible repeat' (first
    | assumption | (intro _) | exact Keeps.refl _ | apply State.addPair_keeps | apply State.store_keeps
    | apply State.putOcc_keeps | apply keeps_opt | apply keeps_opt' | apply keeps_ite | apply keeps_ite_fst
    | apply keeps_foldl_fst | (split) | dsimp only | (refine Keeps.mk_upd ?_ rfl rfl))

theorem State.runRng_keeps {s : State} (t kind : Nat) (h : Keeps s₀ s) : Keeps s₀ (State.runRng s t kind) := by
  unfold State.runRng
  with_reducible repeat' (first
    | assumption | (intro _) | exact Keeps.refl _ | apply rngBernoulli_keeps | apply rngElements_keeps
    | apply State.putOcc_keeps | apply keeps_opt | apply keeps_opt' | apply keeps_ite | (split) | dsimp only
    | (refine Keeps.mk_upd ?_ rfl rfl))

theorem State.rngComplete_keeps {s : State} (o : Occ) (h : Keeps s₀ s) : Keeps s₀ (State.rngComplete s o) := by
  unfold State.rngComplete
  with_reducible repeat' (first
    | assumption | (intro _) | exact Keeps.refl _ | apply State.fset_keeps | apply State.setDraw_keeps
    | apply keeps_opt | apply keeps_opt' | apply keeps_ite | (split) | dsimp only | (refine Keeps.mk_upd ?_ rfl rfl))

theorem State.finishOcc_keeps {s : State} (o : Occ) (h : Keeps s₀ s) : Keeps s₀ (State.finishOcc s o) := by
  unfold State.finishOcc
  with_reducible repeat' (first
    | assumption | (intro _) | exact Keeps.refl _ | apply State.rngComplete_keeps | apply State.collFinal_keeps
    | apply State.completeOcc_keeps | apply keeps_ite_fst | apply keeps_foldl_fst | (split) | dsimp only
    | (refine Keeps.mk_upd ?_ rfl rfl))

theorem State.clearQueue_keeps {s : State} (t q : Nat) (h : Keeps s₀ s) : Keeps s₀ (State.clearQueue s t q) := by
  unfold State.clearQueue
  with_reducible repeat' (first
    | assumption | (intro _) | exact Keeps.refl _ | apply State.setQueue_keeps | apply State.fset_keeps
    | apply State.setQReg_keeps | (split) | dsimp only | (refine Keeps.mk_upd ?_ rfl rfl))

theorem State.enableQueue_keeps {s : State} (t q : Nat) (h : Keeps s₀ s) : Keeps s₀ (State.enableQueue s t q) := by
  unfold State.enableQueue
  with_reducible repeat' (first
    | assumption | (intro _) | exact Keeps.refl _ | apply State.fset_keeps | apply State.tseqFirst_keeps
    | apply keeps_opt | apply keeps_opt' | apply keeps_ite | (split) | dsimp only | (refine Keeps.mk_upd ?_ rfl rfl))

theorem State.disableQueue_keeps {s : State} (t q : Nat) (h : Keeps s₀ s) : Keeps s₀ (State.disableQueue s t q) := by
  unfold State.disableQueue
  with_reducible repeat' (first
    | assumption | (intro _) | exact Keeps.refl _ | apply State.setQueue_keeps | apply State.fset_keeps | dsimp only
    | (refine Keeps.mk_upd ?_ rfl rfl))

theorem State.writeQCtrl_keeps {s : State} (t q v : Nat) (h : Keeps s₀ s) : Keeps s₀ (State.writeQCtrl s t q v) := by
  unfold State.writeQCtrl
  with_reducible repeat' (first
    | assumption | (intro _) | exact Keeps.refl _ | apply State.ctrlIgnored_keeps | apply State.fset_keeps
    | apply State.clearQueue_keeps | apply State.enableQueue_keeps | apply State.disableQueue_keeps
    | apply keeps_opt | apply keeps_opt' | apply keeps_ite | (split) | dsimp only | (refine Keeps.mk_upd ?_ rfl rfl))

theorem State.doorbell_keeps {s : State} (t q v : Nat) (h : Keeps s₀ s) : Keeps s₀ (State.doorbell s t q v) := by
  unfold State.doorbell
  with_reducible repeat' (first
    | assumption | (intro _) | exact Keeps.refl _ | apply State.setQReg_keeps | apply State.event_keeps
    | apply State.errEvent_keeps | apply State.count_keeps | apply keeps_opt | apply keeps_opt' | apply keeps_ite
    | (split) | dsimp only | (refine Keeps.mk_upd ?_ rfl rfl))

theorem State.resetQueues_keeps {s : State} (t : Nat) (h : Keeps s₀ s) : Keeps s₀ (State.resetQueues s t) := by
  unfold State.resetQueues
  with_reducible repeat' (first
    | assumption | (intro _) | exact Keeps.refl _ | apply State.clearQueue_keeps | apply State.disableQueue_keeps
    | apply keeps_foldl | (split) | dsimp only | (refine Keeps.mk_upd ?_ rfl rfl))

theorem State.resetTseq_keeps {s : State} (t : Nat) (h : Keeps s₀ s) : Keeps s₀ (State.resetTseq s t) := by
  unfold State.resetTseq
  with_reducible repeat' (first
    | assumption | (intro _) | exact Keeps.refl _ | apply State.resetQueues_keeps | apply State.ctrlIgnored_keeps
    | apply keeps_opt | apply keeps_opt' | apply keeps_ite | (split) | dsimp only | (refine Keeps.mk_upd ?_ rfl rfl))

theorem State.clearSems_keeps {s : State} (t : Nat) (h : Keeps s₀ s) : Keeps s₀ (State.clearSems s t) := by
  unfold State.clearSems
  with_reducible repeat' (first
    | assumption | (intro _) | exact Keeps.refl _ | apply State.ctrlIgnored_keeps | apply keeps_opt
    | apply keeps_opt' | apply keeps_ite | apply keeps_ite_fst | apply keeps_foldl_fst | (split) | dsimp only
    | (refine Keeps.mk_upd ?_ rfl rfl))

theorem State.dropTile_keeps {s : State} (t : Nat) (h : Keeps s₀ s) : Keeps s₀ (State.dropTile s t) := by
  unfold State.dropTile
  with_reducible repeat' (first
    | assumption | (intro _) | exact Keeps.refl _ | apply State.resetQueues_keeps | (split) | dsimp only
    | (refine Keeps.mk_upd ?_ rfl rfl))

theorem State.touchVia_keeps {s : State} (addr : Nat → Nat) (n : Nat) (h : Keeps s₀ s) : Keeps s₀
    (State.touchVia s addr n) := by
  unfold State.touchVia
  with_reducible repeat' (first
    | assumption | (intro _) | exact Keeps.refl _ | apply State.crossFabric_keeps | apply State.stackBytes_keeps
    | apply State.touchReads_keeps | apply keeps_foldl | (split) | dsimp only | (refine Keeps.mk_upd ?_ rfl rfl))

theorem State.storeVia_keeps {s : State} (addr : Nat → Nat) (p : Piece) (h : Keeps s₀ s) : Keeps s₀
    (State.storeVia s addr p) := by
  unfold State.storeVia
  with_reducible repeat' (first
    | assumption | (intro _) | exact Keeps.refl _ | apply State.crossFabric_keeps | apply State.stackBytes_keeps
    | apply State.store_keeps | apply keeps_foldl | apply keeps_ite_fst | apply keeps_foldl_fst | (split)
    | dsimp only | (refine Keeps.mk_upd ?_ rfl rfl))

theorem State.showLag_keeps {s : State} (h : Keeps s₀ s) : Keeps s₀ (State.showLag s) := by
  unfold State.showLag
  with_reducible repeat' (first
    | assumption | (intro _) | exact Keeps.refl _ | apply State.setReg_keeps | dsimp only
    | (refine Keeps.mk_upd ?_ rfl rfl))

theorem State.appendTrail_keeps {s : State} (bs : List Nat) (h : Keeps s₀ s) : Keeps s₀ (State.appendTrail s bs) := by
  unfold State.appendTrail
  with_reducible repeat' (first
    | assumption | (intro _) | exact Keeps.refl _ | apply State.storeVia_keeps | apply State.setPair_keeps
    | apply State.showLag_keeps | apply State.setReg_keeps | (split) | dsimp only | (refine Keeps.mk_upd ?_ rfl rfl))

theorem State.endMark_keeps {s : State} (o : Occ) (code : Nat) (h : Keeps s₀ s) : Keeps s₀ (State.endMark s o
    code) := by
  unfold State.endMark
  with_reducible repeat' (first
    | assumption | (intro _) | exact Keeps.refl _ | apply State.putOcc_keeps | dsimp only
    | (refine Keeps.mk_upd ?_ rfl rfl))

theorem State.endVerify_keeps {s : State} (h : Keeps s₀ s) : Keeps s₀ (State.endVerify s) := by
  unfold State.endVerify
  with_reducible repeat' (first
    | assumption | (intro _) | exact Keeps.refl _ | apply State.event_keeps | apply State.fset_keeps
    | apply keeps_opt | apply keeps_opt' | apply keeps_ite | (split) | dsimp only | (refine Keeps.mk_upd ?_ rfl rfl))

theorem State.noteStep_keeps {s : State} (o : Occ) (h : Keeps s₀ s) : Keeps s₀ (State.noteStep s o) := by
  unfold State.noteStep
  with_reducible repeat' (first
    | assumption | (intro _) | exact Keeps.refl _ | apply keeps_opt | apply keeps_opt' | apply keeps_ite | (split)
    | dsimp only | (refine Keeps.mk_upd ?_ rfl rfl))

theorem State.verifyMark_keeps {s : State} (o : Occ) (bs : List Nat) (h : Keeps s₀ s) : Keeps s₀
    (State.verifyMark s o bs) := by
  unfold State.verifyMark
  with_reducible repeat' (first
    | assumption | (intro _) | exact Keeps.refl _ | apply State.touchVia_keeps | apply State.setPair_keeps
    | apply State.endMark_keeps | apply State.noteStep_keeps | apply State.endVerify_keeps
    | apply State.setReg_keeps | apply State.event_keeps | apply keeps_opt | apply keeps_opt' | apply keeps_ite
    | (split) | dsimp only | (refine Keeps.mk_upd ?_ rfl rfl))

theorem State.runMark_keeps {s : State} (o : Occ) (h : Keeps s₀ s) : Keeps s₀ (State.runMark s o) := by
  unfold State.runMark
  with_reducible repeat' (first
    | assumption | (intro _) | exact Keeps.refl _ | apply State.endMark_keeps | apply State.touchStream_keeps
    | apply State.verifyMark_keeps | apply State.event_keeps | apply State.noteStep_keeps
    | apply State.appendTrail_keeps | apply State.sendTo_keeps | apply State.putOcc_keeps | apply keeps_opt
    | apply keeps_opt' | apply keeps_ite | (split) | dsimp only | (refine Keeps.mk_upd ?_ rfl rfl))

theorem State.mirrored_keeps {s : State} (pos : Nat) (h : Keeps s₀ s) : Keeps s₀ (State.mirrored s pos) := by
  unfold State.mirrored
  with_reducible repeat' (first
    | assumption | (intro _) | exact Keeps.refl _ | apply State.showLag_keeps | apply State.endMark_keeps
    | apply keeps_opt | apply keeps_opt' | apply keeps_ite | (split) | dsimp only | (refine Keeps.mk_upd ?_ rfl rfl))

theorem State.replayStart_keeps {s : State} (h : Keeps s₀ s) : Keeps s₀ (State.replayStart s) := by
  unfold State.replayStart
  with_reducible repeat' (first
    | assumption | (intro _) | exact Keeps.refl _ | apply State.ctrlIgnored_keeps | apply State.fset_keeps
    | apply State.endVerify_keeps | apply keeps_opt | apply keeps_opt' | apply keeps_ite | (split) | dsimp only
    | (refine Keeps.mk_upd ?_ rfl rfl))

theorem State.flashWrite_keeps {s : State} (a : Nat) (p : Piece) (h : Keeps s₀ s) : Keeps s₀ (State.flashWrite s
    a p) := by
  unfold State.flashWrite
  with_reducible repeat' (first
    | assumption | (intro _) | exact Keeps.refl _ | apply keeps_foldl | apply keeps_ite_fst | apply keeps_foldl_fst
    | (split) | dsimp only | (refine Keeps.mk_upd ?_ rfl rfl))

theorem State.flushDone_keeps {s : State} (h : Keeps s₀ s) : Keeps s₀ (State.flushDone s) := by
  unfold State.flushDone
  with_reducible repeat' (first
    | assumption | (intro _) | exact Keeps.refl _ | apply State.touchVia_keeps | apply State.wearFlash_keeps
    | apply State.flashWrite_keeps | apply State.setPair_keeps | apply keeps_opt | apply keeps_opt'
    | apply keeps_ite | apply keeps_foldl | (split) | dsimp only | (refine Keeps.mk_upd ?_ rfl rfl))

theorem State.setHold_keeps {s : State} (bit : Nat) (on : Bool) (h : Keeps s₀ s) : Keeps s₀ (State.setHold s bit
    on) := by
  unfold State.setHold
  with_reducible repeat' (first
    | assumption | (intro _) | exact Keeps.refl _ | apply State.fset_keeps | apply keeps_opt | apply keeps_opt'
    | apply keeps_ite | (split) | dsimp only | (refine Keeps.mk_upd ?_ rfl rfl))

theorem State.touchCapList_keeps {s : State} (h : Keeps s₀ s) : Keeps s₀ (State.touchCapList s) := by
  unfold State.touchCapList
  with_reducible repeat' (first
    | assumption | (intro _) | exact Keeps.refl _ | apply State.touchVia_keeps | apply keeps_opt | apply keeps_opt'
    | apply keeps_ite | (split) | dsimp only | (refine Keeps.mk_upd ?_ rfl rfl))

theorem State.showSnap_keeps {s : State} (h : Keeps s₀ s) : Keeps s₀ (State.showSnap s) := by
  unfold State.showSnap
  with_reducible repeat' (first
    | assumption | (intro _) | exact Keeps.refl _ | apply State.fset_keeps | dsimp only
    | (refine Keeps.mk_upd ?_ rfl rfl))

theorem State.setClr_keeps {s : State} (c : Option Clearing) (h : Keeps s₀ s) : Keeps s₀ (State.setClr s c) := by
  unfold State.setClr
  with_reducible repeat' (first
    | assumption | (intro _) | exact Keeps.refl _ | dsimp only | (refine Keeps.mk_upd ?_ rfl rfl))

theorem State.putClr_keeps {s : State} (c : Clearing) (h : Keeps s₀ s) : Keeps s₀ (State.putClr s c) := by
  unfold State.putClr
  with_reducible repeat' (first
    | assumption | (intro _) | exact Keeps.refl _ | apply State.showSnap_keeps | apply keeps_opt | apply keeps_opt'
    | apply keeps_ite | (split) | dsimp only | (refine Keeps.mk_upd ?_ rfl rfl))

theorem State.endClearing_keeps {s : State} (c : Clearing) (code : Nat) (h : Keeps s₀ s) : Keeps s₀
    (State.endClearing s c code) := by
  unfold State.endClearing
  with_reducible repeat' (first
    | assumption | (intro _) | exact Keeps.refl _ | apply State.fset_keeps | apply State.eventIf_keeps
    | apply State.putOcc_keeps | (split) | dsimp only | (refine Keeps.mk_upd ?_ rfl rfl))

theorem State.undefineSlot_keeps {s : State} (c : Clearing) (h : Keeps s₀ s) : Keeps s₀ (State.undefineSlot s c) := by
  unfold State.undefineSlot
  with_reducible repeat' (first
    | assumption | (intro _) | exact Keeps.refl _ | apply State.useFree_keeps | apply State.store_keeps
    | apply keeps_foldl | (split) | dsimp only | (refine Keeps.mk_upd ?_ rfl rfl))

theorem State.dropStream_keeps {s : State} (c : Clearing) (h : Keeps s₀ s) : Keeps s₀ (State.dropStream s c) := by
  unfold State.dropStream
  with_reducible repeat' (first
    | assumption | (intro _) | exact Keeps.refl _ | apply State.setPort_keeps | apply keeps_foldl
    | apply keeps_ite_fst | apply keeps_foldl_fst | (split) | dsimp only | (refine Keeps.mk_upd ?_ rfl rfl))

theorem State.spoilSlot_keeps {s : State} (number : Nat) (h : Keeps s₀ s) : Keeps s₀ (State.spoilSlot s number) := by
  unfold State.spoilSlot
  with_reducible repeat' (first
    | assumption | (intro _) | exact Keeps.refl _ | (split) | dsimp only | (refine Keeps.mk_upd ?_ rfl rfl))

theorem State.parkAgain_keeps {s : State} (c : Clearing) (h : Keeps s₀ s) : Keeps s₀ (State.parkAgain s c) := by
  unfold State.parkAgain
  with_reducible repeat' (first
    | assumption | (intro _) | exact Keeps.refl _ | apply State.setHold_keeps | apply State.fset_keeps
    | apply keeps_opt | apply keeps_opt' | apply keeps_ite | (split) | dsimp only | (refine Keeps.mk_upd ?_ rfl rfl))

theorem State.failClearing_keeps {s : State} (c : Clearing) (code : Nat) (h : Keeps s₀ s) : Keeps s₀
    (State.failClearing s c code) := by
  unfold State.failClearing
  with_reducible repeat' (first
    | assumption | (intro _) | exact Keeps.refl _ | apply State.spoilSlot_keeps | apply State.dropStream_keeps
    | apply State.undefineSlot_keeps | apply State.endClearing_keeps | apply State.setHold_keeps
    | apply State.putClr_keeps | apply State.parkAgain_keeps | apply keeps_opt | apply keeps_opt' | apply keeps_ite
    | (split) | dsimp only | (refine Keeps.mk_upd ?_ rfl rfl))

theorem State.becomeSecure_keeps {s : State} (c : Clearing) (h : Keeps s₀ s) : Keeps s₀ (State.becomeSecure s c) := by
  unfold State.becomeSecure
  with_reducible repeat' (first
    | assumption | (intro _) | exact Keeps.refl _ | apply State.event_keeps | apply State.setPair_keeps
    | apply keeps_ite_fst | apply keeps_foldl_fst | (split) | dsimp only | (refine Keeps.mk_upd ?_ rfl rfl))

theorem State.settleClr_keeps {s : State} (c : Clearing) (h : Keeps s₀ s) : Keeps s₀ (State.settleClr s c) := by
  unfold State.settleClr
  with_reducible repeat' (first
    | assumption | (intro _) | exact Keeps.refl _ | apply State.becomeSecure_keeps | apply State.endClearing_keeps
    | apply State.fset_keeps | apply State.spoilSlot_keeps | apply State.parkAgain_keeps | apply State.putClr_keeps
    | apply keeps_opt | apply keeps_opt' | apply keeps_ite | (split) | dsimp only | (refine Keeps.mk_upd ?_ rfl rfl))

theorem State.l1Fails_keeps {s : State} (c : Clearing) (h : Keeps s₀ s) : Keeps s₀ (State.l1Fails s c) := by
  unfold State.l1Fails
  with_reducible repeat' (first
    | assumption | (intro _) | exact Keeps.refl _ | apply State.settleClr_keeps | apply State.dropStream_keeps
    | apply keeps_opt | apply keeps_opt' | apply keeps_ite | (split) | dsimp only | (refine Keeps.mk_upd ?_ rfl rfl))

theorem State.touchL1_keeps {s : State} (c : Clearing) (h : Keeps s₀ s) : Keeps s₀ (State.touchL1 s c) := by
  unfold State.touchL1
  with_reducible repeat' (first
    | assumption | (intro _) | exact Keeps.refl _ | apply State.touchVia_keeps | apply keeps_ite_fst
    | apply keeps_foldl_fst | (split) | dsimp only | (refine Keeps.mk_upd ?_ rfl rfl))

theorem State.captured_keeps {s : State} (c : Clearing) (h : Keeps s₀ s) : Keeps s₀ (State.captured s c) := by
  unfold State.captured
  with_reducible repeat' (first
    | assumption | (intro _) | exact Keeps.refl _ | apply State.setHold_keeps | apply State.event_keeps
    | apply State.setReg_keeps | apply State.settleClr_keeps | apply State.setPair_keeps | apply State.sendTo_keeps
    | apply State.touchL1_keeps | apply State.l1Fails_keeps | apply keeps_opt | apply keeps_opt' | apply keeps_ite
    | apply keeps_foldl | (split) | dsimp only | (refine Keeps.mk_upd ?_ rfl rfl))

theorem State.barrierPass_keeps {s : State} (c : Clearing) (h : Keeps s₀ s) : Keeps s₀ (State.barrierPass s c) := by
  unfold State.barrierPass
  with_reducible repeat' (first
    | assumption | (intro _) | exact Keeps.refl _ | apply State.putClr_keeps | apply State.captured_keeps
    | apply keeps_opt | apply keeps_opt' | apply keeps_ite | (split) | dsimp only | (refine Keeps.mk_upd ?_ rfl rfl))

theorem State.barrierVerdict_keeps {s : State} (c : Clearing) (code : Nat) (h : Keeps s₀ s) : Keeps s₀
    (State.barrierVerdict s c code) := by
  unfold State.barrierVerdict
  with_reducible repeat' (first
    | assumption | (intro _) | exact Keeps.refl _ | apply State.sendTo_keeps | apply State.barrierPass_keeps
    | apply State.failClearing_keeps | apply keeps_opt | apply keeps_opt' | apply keeps_ite | apply keeps_foldl
    | (split) | dsimp only | (refine Keeps.mk_upd ?_ rfl rfl))

theorem State.barrierStep_keeps {s : State} (h : Keeps s₀ s) : Keeps s₀ (State.barrierStep s) := by
  unfold State.barrierStep
  with_reducible repeat' (first
    | assumption | (intro _) | exact Keeps.refl _ | apply State.barrierVerdict_keeps | apply State.putClr_keeps
    | apply State.sendTo_keeps | apply keeps_opt | apply keeps_opt' | apply keeps_ite | (split) | dsimp only
    | (refine Keeps.mk_upd ?_ rfl rfl))

theorem State.gotBarrier_keeps {s : State} (f : Frame) (phase : Nat) (bad : Bool) (r : BarrierRec) (h : Keeps s₀
    s) : Keeps s₀ (State.gotBarrier s f phase bad r) := by
  unfold State.gotBarrier
  with_reducible repeat' (first
    | assumption | (intro _) | exact Keeps.refl _ | apply State.barrierStep_keeps | (split) | dsimp only
    | (refine Keeps.mk_upd ?_ rfl rfl))

theorem State.gotVerdict_keeps {s : State} (f : Frame) (phase code : Nat) (h : Keeps s₀ s) : Keeps s₀
    (State.gotVerdict s f phase code) := by
  unfold State.gotVerdict
  with_reducible repeat' (first
    | assumption | (intro _) | exact Keeps.refl _ | apply State.barrierVerdict_keeps | apply keeps_opt
    | apply keeps_opt' | apply keeps_ite | (split) | dsimp only | (refine Keeps.mk_upd ?_ rfl rfl))

theorem State.startClearing_keeps {s : State} (o : Occ) (h : Keeps s₀ s) : Keeps s₀ (State.startClearing s o) := by
  unfold State.startClearing
  with_reducible repeat' (first
    | assumption | (intro _) | exact Keeps.refl _ | apply State.touchCapList_keeps | apply State.setClr_keeps
    | apply State.putClr_keeps | apply State.endClearing_keeps | apply State.fset_keeps | apply State.putOcc_keeps
    | apply State.setHold_keeps | apply keeps_opt | apply keeps_opt' | apply keeps_ite | (split) | dsimp only
    | (refine Keeps.mk_upd ?_ rfl rfl))

theorem State.capStore_keeps {s : State} (base : Nat) (ps : List Piece) (h : Keeps s₀ s) : Keeps s₀
    (State.capStore s base ps) := by
  unfold State.capStore
  exact keeps_foldl_fst (fun x a hx => State.storeVia_keeps _ _ hx) _ h

theorem State.capTrail_keeps {s : State} (c : Clearing) (head : List Nat) (h : Keeps s₀ s) : Keeps s₀
    (State.capTrail s c head) := by
  unfold State.capTrail
  with_reducible repeat' (first
    | assumption | (intro _) | exact Keeps.refl _ | apply State.appendTrail_keeps | apply keeps_opt
    | apply keeps_opt' | apply keeps_ite | apply keeps_ite_fst | apply keeps_foldl_fst | (split) | dsimp only
    | (refine Keeps.mk_upd ?_ rfl rfl))

theorem State.capture_keeps {s : State} (c : Clearing) (h : Keeps s₀ s) : Keeps s₀ (State.capture s c) := by
  unfold State.capture
  with_reducible repeat' (first
    | assumption | (intro _) | exact Keeps.refl _ | apply State.touchVia_keeps | apply State.touchCapList_keeps
    | apply State.capStore_keeps | apply State.storeVia_keeps | apply State.capTrail_keeps
    | apply State.barrierStep_keeps | apply State.putClr_keeps | apply keeps_opt | apply keeps_opt'
    | apply keeps_ite | apply keeps_foldl | apply keeps_ite_fst | apply keeps_foldl_fst | (split) | dsimp only
    | (refine Keeps.mk_upd ?_ rfl rfl))

theorem State.writeL2_keeps {s : State} (c : Clearing) (place : Nat) (h : Keeps s₀ s) : Keeps s₀ (State.writeL2
    s c place) := by
  unfold State.writeL2
  with_reducible repeat' (first
    | assumption | (intro _) | exact Keeps.refl _ | apply State.flashWrite_keeps | apply State.wearFlash_keeps
    | apply State.touchVia_keeps | apply State.setReg_keeps | apply State.event_keeps | apply State.fset_keeps
    | apply keeps_opt | apply keeps_opt' | apply keeps_ite | (split) | dsimp only | (refine Keeps.mk_upd ?_ rfl rfl))

theorem State.l2Ends_keeps {s : State} (c : Clearing) (ok : Bool) (h : Keeps s₀ s) : Keeps s₀ (State.l2Ends s c
    ok) := by
  unfold State.l2Ends
  with_reducible repeat' (first
    | assumption | (intro _) | exact Keeps.refl _ | apply State.settleClr_keeps | apply State.writeL2_keeps
    | apply keeps_opt | apply keeps_opt' | apply keeps_ite | (split) | dsimp only | (refine Keeps.mk_upd ?_ rfl rfl))

theorem State.releasePin_keeps {s : State} (h : Keeps s₀ s) : Keeps s₀ (State.releasePin s) := by
  unfold State.releasePin
  with_reducible repeat' (first
    | assumption | (intro _) | exact Keeps.refl _ | apply State.fset_keeps | (split) | dsimp only
    | (refine Keeps.mk_upd ?_ rfl rfl))

theorem State.abortClearing_keeps {s : State} (h : Keeps s₀ s) : Keeps s₀ (State.abortClearing s) := by
  unfold State.abortClearing
  with_reducible repeat' (first
    | assumption | (intro _) | exact Keeps.refl _ | apply State.failClearing_keeps | apply keeps_foldl | (split)
    | dsimp only | (refine Keeps.mk_upd ?_ rfl rfl))

theorem State.unpair_keeps {s : State} (state err : Nat) (h : Keeps s₀ s) : Keeps s₀ (State.unpair s state err) := by
  unfold State.unpair
  with_reducible repeat' (first
    | assumption | (intro _) | exact Keeps.refl _ | apply State.fset_keeps | dsimp only
    | (refine Keeps.mk_upd ?_ rfl rfl))

theorem State.dropPair_keeps {s : State} (r : Nat) (h : Keeps s₀ s) : Keeps s₀ (State.dropPair s r) := by
  unfold State.dropPair
  with_reducible repeat' (first
    | assumption | (intro _) | exact Keeps.refl _ | (split) | dsimp only | (refine Keeps.mk_upd ?_ rfl rfl))

theorem State.sendPair_keeps {s : State} (dst : Nat) (h : Keeps s₀ s) : Keeps s₀ (State.sendPair s dst) := by
  unfold State.sendPair
  with_reducible repeat' (first
    | assumption | (intro _) | exact Keeps.refl _ | apply State.sendTo_keeps | dsimp only
    | (refine Keeps.mk_upd ?_ rfl rfl))

theorem State.judgePair_keeps {s : State} (r : PairRec) (h : Keeps s₀ s) : Keeps s₀ (State.judgePair s r) := by
  unfold State.judgePair
  with_reducible repeat' (first
    | assumption | (intro _) | exact Keeps.refl _ | apply State.fset_keeps | apply State.dropPair_keeps
    | apply State.unpair_keeps | apply State.event_keeps | apply State.eventIf_keeps | apply keeps_opt
    | apply keeps_opt' | apply keeps_ite | (split) | dsimp only | (refine Keeps.mk_upd ?_ rfl rfl))

theorem State.pairGo_keeps {s : State} (h : Keeps s₀ s) : Keeps s₀ (State.pairGo s) := by
  unfold State.pairGo
  with_reducible repeat' (first
    | assumption | (intro _) | exact Keeps.refl _ | apply State.unpair_keeps | apply State.fset_keeps
    | apply State.sendPair_keeps | apply State.dropPair_keeps | apply State.judgePair_keeps | apply keeps_opt
    | apply keeps_opt' | apply keeps_ite | apply keeps_foldl | (split) | dsimp only
    | (refine Keeps.mk_upd ?_ rfl rfl))

theorem State.gotPair_keeps {s : State} (r : PairRec) (h : Keeps s₀ s) : Keeps s₀ (State.gotPair s r) := by
  unfold State.gotPair
  with_reducible repeat' (first
    | assumption | (intro _) | exact Keeps.refl _ | apply State.judgePair_keeps | apply State.sendPair_keeps
    | apply State.dropPair_keeps | apply keeps_opt | apply keeps_opt' | apply keeps_ite | (split) | dsimp only
    | (refine Keeps.mk_upd ?_ rfl rfl))

theorem State.autoHold_keeps {s : State} (h : Keeps s₀ s) : Keeps s₀ (State.autoHold s) := by
  unfold State.autoHold
  with_reducible repeat' (first
    | assumption | (intro _) | exact Keeps.refl _ | apply State.abortAll_keeps | apply State.setHold_keeps
    | apply State.l1Fails_keeps | apply keeps_foldl | (split) | dsimp only | (refine Keeps.mk_upd ?_ rfl rfl))

theorem State.dropRank_keeps {s : State} (r : Nat) (h : Keeps s₀ s) : Keeps s₀ (State.dropRank s r) := by
  unfold State.dropRank
  with_reducible repeat' (first
    | assumption | (intro _) | exact Keeps.refl _ | apply State.endCtxs_keeps | apply State.completeOcc_keeps
    | apply keeps_foldl | (split) | dsimp only | (refine Keeps.mk_upd ?_ rfl rfl))

theorem State.lostInClearing_keeps {s : State} (r : Nat) (h : Keeps s₀ s) : Keeps s₀ (State.lostInClearing s r) := by
  unfold State.lostInClearing
  with_reducible repeat' (first
    | assumption | (intro _) | exact Keeps.refl _ | apply State.failClearing_keeps | apply State.dropPair_keeps
    | apply State.unpair_keeps | apply State.l1Fails_keeps | apply keeps_opt | apply keeps_opt' | apply keeps_ite
    | apply keeps_foldl | (split) | dsimp only | (refine Keeps.mk_upd ?_ rfl rfl))

theorem State.markLost_keeps {s : State} (r : Nat) (notice : Option Nat) (code : Nat) (h : Keeps s₀ s) : Keeps
    s₀ (State.markLost s r notice code) := by
  unfold State.markLost
  with_reducible repeat' (first
    | assumption | (intro _) | exact Keeps.refl _ | apply State.fset_keeps | apply State.setReg_keeps
    | apply State.dropRank_keeps | apply State.event_keeps | apply State.errEvent_keeps | apply State.sendTo_keeps
    | apply State.lostInClearing_keeps | apply State.autoHold_keeps | apply keeps_opt | apply keeps_opt'
    | apply keeps_ite | apply keeps_foldl | apply keeps_ite_fst | apply keeps_foldl_fst | (split) | dsimp only
    | (refine Keeps.mk_upd ?_ rfl rfl))

theorem State.selfLost_keeps {s : State} (by' : Nat) (h : Keeps s₀ s) : Keeps s₀ (State.selfLost s by') := by
  unfold State.selfLost
  with_reducible repeat' (first
    | assumption | (intro _) | exact Keeps.refl _ | apply State.event_keeps | apply State.fset_keeps
    | apply State.setHold_keeps | apply State.errEvent_keeps | apply State.endCtxs_keeps | apply keeps_opt
    | apply keeps_opt' | apply keeps_ite | (split) | dsimp only | (refine Keeps.mk_upd ?_ rfl rfl))

theorem State.gotLost_keeps {s : State} (f : Frame) (r code : Nat) (h : Keeps s₀ s) : Keeps s₀ (State.gotLost s
    f r code) := by
  unfold State.gotLost
  with_reducible repeat' (first
    | assumption | (intro _) | exact Keeps.refl _ | apply State.selfLost_keeps | apply State.markLost_keeps
    | apply keeps_opt | apply keeps_opt' | apply keeps_ite | (split) | dsimp only | (refine Keeps.mk_upd ?_ rfl rfl))

theorem State.gotHeartbeat_keeps {s : State} (src : Nat) (h : Keeps s₀ s) : Keeps s₀ (State.gotHeartbeat s src) := by
  unfold State.gotHeartbeat
  with_reducible repeat' (first
    | assumption | (intro _) | exact Keeps.refl _ | apply keeps_ite_fst | apply keeps_foldl_fst | (split)
    | dsimp only | (refine Keeps.mk_upd ?_ rfl rfl))

theorem State.lostClr_keeps {s : State} (h : Keeps s₀ s) : Keeps s₀ (State.lostClr s) := by
  unfold State.lostClr
  with_reducible repeat' (first
    | assumption | (intro _) | exact Keeps.refl _ | apply State.setReg_keeps | apply State.ctrlIgnored_keeps
    | apply keeps_opt | apply keeps_opt' | apply keeps_ite | (split) | dsimp only | (refine Keeps.mk_upd ?_ rfl rfl))

theorem State.refuseSnap_keeps {s : State} (f : Frame) (h : Keeps s₀ s) : Keeps s₀ (State.refuseSnap s f) := by
  unfold State.refuseSnap
  with_reducible repeat' (first
    | assumption | (intro _) | exact Keeps.refl _ | apply State.sendNak_keeps | dsimp only
    | (refine Keeps.mk_upd ?_ rfl rfl))

theorem State.partLast_keeps {s : State} (f : Frame) (number : Nat) (h : Keeps s₀ s) : Keeps s₀ (State.partLast
    s f number) := by
  unfold State.partLast
  with_reducible repeat' (first
    | assumption | (intro _) | exact Keeps.refl _ | apply State.touchVia_keeps | apply State.sendTo_keeps
    | apply State.setPair_keeps | apply keeps_opt | apply keeps_opt' | apply keeps_ite | apply keeps_ite_fst
    | apply keeps_foldl_fst | (split) | dsimp only | (refine Keeps.mk_upd ?_ rfl rfl))

theorem State.mirror_keeps {s : State} (pos : Nat) (bytes : List Nat) (h : Keeps s₀ s) : Keeps s₀ (State.mirror
    s pos bytes) := by
  unfold State.mirror
  with_reducible repeat' (first
    | assumption | (intro _) | exact Keeps.refl _ | apply State.storeVia_keeps | (split) | dsimp only
    | (refine Keeps.mk_upd ?_ rfl rfl))

theorem State.gotSlotPart_keeps {s : State} (f : Frame) (number off : Nat) (p : Piece) (h : Keeps s₀ s) : Keeps
    s₀ (State.gotSlotPart s f number off p) := by
  unfold State.gotSlotPart
  with_reducible repeat' (first
    | assumption | (intro _) | exact Keeps.refl _ | apply State.refuseSnap_keeps | apply State.storeVia_keeps
    | apply State.partLast_keeps | apply keeps_opt | apply keeps_opt' | apply keeps_ite | apply keeps_ite_fst
    | apply keeps_foldl_fst | (split) | dsimp only | (refine Keeps.mk_upd ?_ rfl rfl))

theorem State.gotTrailPart_keeps {s : State} (f : Frame) (pos : Nat) (bytes : List Nat) (h : Keeps s₀ s) : Keeps
    s₀ (State.gotTrailPart s f pos bytes) := by
  unfold State.gotTrailPart
  with_reducible repeat' (first
    | assumption | (intro _) | exact Keeps.refl _ | apply State.refuseSnap_keeps | apply State.mirror_keeps
    | apply State.partLast_keeps | apply keeps_opt | apply keeps_opt' | apply keeps_ite | (split) | dsimp only
    | (refine Keeps.mk_upd ?_ rfl rfl))

theorem State.gotTrailRec_keeps {s : State} (f : Frame) (pos : Nat) (bytes : List Nat) (h : Keeps s₀ s) : Keeps
    s₀ (State.gotTrailRec s f pos bytes) := by
  unfold State.gotTrailRec
  with_reducible repeat' (first
    | assumption | (intro _) | exact Keeps.refl _ | apply State.refuseSnap_keeps | apply State.sendTo_keeps
    | apply State.mirror_keeps | apply keeps_opt | apply keeps_opt' | apply keeps_ite | (split) | dsimp only
    | (refine Keeps.mk_upd ?_ rfl rfl))

theorem State.gotSlotAck_keeps {s : State} (f : Frame) (number : Nat) (h : Keeps s₀ s) : Keeps s₀
    (State.gotSlotAck s f number) := by
  unfold State.gotSlotAck
  with_reducible repeat' (first
    | assumption | (intro _) | exact Keeps.refl _ | apply State.settleClr_keeps | apply State.mirrored_keeps
    | apply keeps_opt | apply keeps_opt' | apply keeps_ite | (split) | dsimp only | (refine Keeps.mk_upd ?_ rfl rfl))

theorem State.gotTrailAck_keeps {s : State} (f : Frame) (pos : Nat) (h : Keeps s₀ s) : Keeps s₀
    (State.gotTrailAck s f pos) := by
  unfold State.gotTrailAck
  with_reducible repeat' (first
    | assumption | (intro _) | exact Keeps.refl _ | apply State.mirrored_keeps | apply keeps_opt | apply keeps_opt'
    | apply keeps_ite | (split) | dsimp only | (refine Keeps.mk_upd ?_ rfl rfl))

theorem State.gotRestoreReq_keeps {s : State} (f : Frame) (rank number : Nat) (h : Keeps s₀ s) : Keeps s₀
    (State.gotRestoreReq s f rank number) := by
  unfold State.gotRestoreReq
  split
  · exact h
  · split
    · exact State.refuseSnap_keeps _ h
    · split
      · extract_lets b n slot start len trail all s1
        have h1 : Keeps s₀ s1 := State.touchVia_keeps _ _ (State.touchVia_keeps _ _ h)
        clear_value s1 all
        split
        · exact keeps_foldl (fun x a hx => State.sendTo_keeps _ hx) _ h1
        · exact h1
      · exact State.refuseSnap_keeps _ h

theorem State.restoreGo_keeps {s : State} (h : Keeps s₀ s) : Keeps s₀ (State.restoreGo s) := by
  unfold State.restoreGo
  with_reducible repeat' (first
    | assumption | (intro _) | exact Keeps.refl _ | apply State.ctrlIgnored_keeps | apply State.topUpVc_keeps
    | apply State.abortAll_keeps | apply State.setHold_keeps | apply State.abortClearing_keeps
    | apply State.finishOcc_keeps | apply State.dropTile_keeps | apply State.fset_keeps | apply State.sendTo_keeps
    | apply State.showSnap_keeps | apply keeps_opt | apply keeps_opt' | apply keeps_ite | apply keeps_foldl
    | (split) | dsimp only | (refine Keeps.mk_upd ?_ rfl rfl))

theorem State.storeRegions_keeps {s : State} (es : List (Nat × Nat × Nat)) (off : Nat) (p : Piece) (h : Keeps s₀
    s) : Keeps s₀ (State.storeRegions s es off p) := by
  unfold State.storeRegions
  with_reducible repeat' (first
    | assumption | (intro _) | exact Keeps.refl _ | apply State.store_keeps | apply keeps_opt | apply keeps_opt'
    | apply keeps_ite | apply keeps_foldl | apply keeps_ite_fst | apply keeps_foldl_fst | (split) | dsimp only
    | (refine Keeps.mk_upd ?_ rfl rfl))

theorem State.gotRestoreSlot_keeps {s : State} (f : Frame) (off : Nat) (p : Piece) (h : Keeps s₀ s) : Keeps s₀
    (State.gotRestoreSlot s f off p) := by
  unfold State.gotRestoreSlot
  with_reducible repeat' (first
    | assumption | (intro _) | exact Keeps.refl _ | apply State.refuseSnap_keeps | apply State.storeRegions_keeps
    | apply keeps_opt | apply keeps_opt' | apply keeps_ite | apply keeps_foldl | apply keeps_ite_fst
    | apply keeps_foldl_fst | (split) | dsimp only | (refine Keeps.mk_upd ?_ rfl rfl))

theorem State.gotRestoreTrail_keeps {s : State} (f : Frame) (pos : Nat) (bytes : List Nat) (h : Keeps s₀ s) :
    Keeps s₀ (State.gotRestoreTrail s f pos bytes) := by
  unfold State.gotRestoreTrail
  with_reducible repeat' (first
    | assumption | (intro _) | exact Keeps.refl _ | apply State.refuseSnap_keeps | apply State.setPair_keeps
    | apply State.storeVia_keeps | apply keeps_opt | apply keeps_opt' | apply keeps_ite | (split) | dsimp only
    | (refine Keeps.mk_upd ?_ rfl rfl))

theorem State.takeSnap_keeps {s : State} (f : Frame) (h : Keeps s₀ s) : Keeps s₀ (State.takeSnap s f) := by
  unfold State.takeSnap
  with_reducible repeat' (first
    | assumption | (intro _) | exact Keeps.refl _ | apply State.gotSlotPart_keeps | apply State.gotTrailPart_keeps
    | apply State.gotTrailRec_keeps | apply State.gotRestoreSlot_keeps | apply State.gotRestoreTrail_keeps | (split)
    | dsimp only | (refine Keeps.mk_upd ?_ rfl rfl))

theorem State.drainSnap_keeps {s : State} (x1 : List Frame) (h : Keeps s₀ s) : Keeps s₀ (State.drainSnap s x1) := by
  induction x1 generalizing s with
  | nil => exact Keeps.mk_upd h rfl rfl
  | cons f r ih =>
    unfold State.drainSnap
    split
    · exact ih (State.takeSnap_keeps f h)
    · exact Keeps.mk_upd h rfl rfl

theorem State.gotSnap_keeps {s : State} (f : Frame) (h : Keeps s₀ s) : Keeps s₀ (State.gotSnap s f) := by
  unfold State.gotSnap
  with_reducible repeat' (first
    | assumption | (intro _) | exact Keeps.refl _ | apply State.drainSnap_keeps | dsimp only
    | (refine Keeps.mk_upd ?_ rfl rfl))

theorem State.gotSnapNak_keeps {s : State} (f : Frame) (h : Keeps s₀ s) : Keeps s₀ (State.gotSnapNak s f) := by
  unfold State.gotSnapNak
  with_reducible repeat' (first
    | assumption | (intro _) | exact Keeps.refl _ | apply State.l1Fails_keeps | apply keeps_opt | apply keeps_opt'
    | apply keeps_ite | (split) | dsimp only | (refine Keeps.mk_upd ?_ rfl rfl))

theorem State.restoreFails_keeps {s : State} (code : Nat) (h : Keeps s₀ s) : Keeps s₀ (State.restoreFails s
    code) := by
  unfold State.restoreFails
  with_reducible repeat' (first
    | assumption | (intro _) | exact Keeps.refl _ | apply State.fset_keeps | apply State.event_keeps
    | apply State.showSnap_keeps | apply keeps_opt | apply keeps_opt' | apply keeps_ite | (split) | dsimp only
    | (refine Keeps.mk_upd ?_ rfl rfl))

theorem State.restoreOk_keeps {s : State} (code : Nat) (h : Keeps s₀ s) : Keeps s₀ (State.restoreOk s code) := by
  unfold State.restoreOk
  with_reducible repeat' (first
    | assumption | (intro _) | exact Keeps.refl _ | apply State.fset_keeps | apply State.setHold_keeps
    | apply State.setPair_keeps | apply State.event_keeps | apply State.appendTrail_keeps
    | apply State.showSnap_keeps | apply keeps_opt | apply keeps_opt' | apply keeps_ite | apply keeps_ite_fst
    | apply keeps_foldl_fst | (split) | dsimp only | (refine Keeps.mk_upd ?_ rfl rfl))

theorem State.checkSkew_keeps {s : State} (P : Nat) (h : Keeps s₀ s) : Keeps s₀ (State.checkSkew s P) := by
  unfold State.checkSkew
  with_reducible repeat' (first
    | assumption | (intro _) | exact Keeps.refl _ | apply State.fset_keeps | apply State.restoreFails_keeps
    | apply State.restoreOk_keeps | apply keeps_ite_fst | apply keeps_foldl_fst | (split) | dsimp only
    | (refine Keeps.mk_upd ?_ rfl rfl))

theorem State.restoreState_keeps {s : State} (b : Nat → Nat) (h : Keeps s₀ s) : Keeps s₀ (State.restoreState s
    b) := by
  unfold State.restoreState
  with_reducible repeat' (first
    | assumption | (intro _) | exact Keeps.refl _ | apply State.fset_keeps | apply State.setPair_keeps
    | apply State.setDraw_keeps | apply State.setSem_keeps | apply State.onTiles_keeps | apply keeps_foldl | (split)
    | dsimp only | (refine Keeps.mk_upd ?_ rfl rfl))

theorem State.touchRestore_keeps {s : State} (r : Restore) (b : Nat → Nat) (h : Keeps s₀ s) : Keeps s₀
    (State.touchRestore s r b) := by
  unfold State.touchRestore
  with_reducible repeat' (first
    | assumption | (intro _) | exact Keeps.refl _ | apply State.touchVia_keeps | apply keeps_opt | apply keeps_opt'
    | apply keeps_ite | (split) | dsimp only | (refine Keeps.mk_upd ?_ rfl rfl))

theorem State.touchRegions_keeps {s : State} (es : List (Nat × Nat × Nat)) (h : Keeps s₀ s) : Keeps s₀
    (State.touchRegions s es) := by
  unfold State.touchRegions
  with_reducible repeat' (first
    | assumption | (intro _) | exact Keeps.refl _ | apply State.touchVia_keeps | apply keeps_foldl
    | apply keeps_ite_fst | apply keeps_foldl_fst | (split) | dsimp only | (refine Keeps.mk_upd ?_ rfl rfl))

theorem State.restoreDone_keeps {s : State} (r : Restore) (h : Keeps s₀ s) : Keeps s₀ (State.restoreDone s r) := by
  unfold State.restoreDone
  with_reducible repeat' (first
    | assumption | (intro _) | exact Keeps.refl _ | apply State.restoreFails_keeps | apply State.storeRegions_keeps
    | apply State.touchRestore_keeps | apply State.restoreState_keeps | apply State.setReg_keeps
    | apply State.touchRegions_keeps | apply State.checkSkew_keeps | apply keeps_opt | apply keeps_opt'
    | apply keeps_ite | apply keeps_ite_fst | apply keeps_foldl_fst | (split) | dsimp only
    | (refine Keeps.mk_upd ?_ rfl rfl))

theorem State.restoreRealign_keeps {s : State} (h : Keeps s₀ s) : Keeps s₀ (State.restoreRealign s) := by
  unfold State.restoreRealign
  with_reducible repeat' (first
    | assumption | (intro _) | exact Keeps.refl _ | apply State.ctrlIgnored_keeps | apply State.fset_keeps
    | apply State.setDraw_keeps | apply State.event_keeps | apply State.checkSkew_keeps | apply keeps_opt
    | apply keeps_opt' | apply keeps_ite | apply keeps_foldl | (split) | dsimp only
    | (refine Keeps.mk_upd ?_ rfl rfl))

theorem State.restoreAccept_keeps {s : State} (h : Keeps s₀ s) : Keeps s₀ (State.restoreAccept s) := by
  unfold State.restoreAccept
  with_reducible repeat' (first
    | assumption | (intro _) | exact Keeps.refl _ | apply State.ctrlIgnored_keeps | apply State.restoreOk_keeps
    | apply keeps_opt | apply keeps_opt' | apply keeps_ite | (split) | dsimp only | (refine Keeps.mk_upd ?_ rfl rfl))

theorem State.fireClearing_keeps {s : State} (c : Clearing) (h : Keeps s₀ s) : Keeps s₀ (State.fireClearing s c) := by
  unfold State.fireClearing
  with_reducible repeat' (first
    | assumption | (intro _) | exact Keeps.refl _ | apply State.failClearing_keeps | apply State.endClearing_keeps
    | apply State.putClr_keeps | apply keeps_opt | apply keeps_opt' | apply keeps_ite | (split) | dsimp only
    | (refine Keeps.mk_upd ?_ rfl rfl))

theorem State.fireStop_keeps {s : State} (h : Keeps s₀ s) : Keeps s₀ (State.fireStop s) := by
  unfold State.fireStop
  with_reducible repeat' (first
    | assumption | (intro _) | exact Keeps.refl _ | apply State.fset_keeps | apply State.abortAll_keeps
    | apply State.endCtxs_keeps | apply State.putOcc_keeps | apply State.fireClearing_keeps
    | apply State.showSnap_keeps | apply keeps_opt | apply keeps_opt' | apply keeps_ite | apply keeps_foldl
    | (split) | dsimp only | (refine Keeps.mk_upd ?_ rfl rfl))

theorem State.fireNotices_keeps {s : State} (code : Nat) (h : Keeps s₀ s) : Keeps s₀ (State.fireNotices s code) := by
  unfold State.fireNotices
  with_reducible repeat' (first
    | assumption | (intro _) | exact Keeps.refl _ | apply State.enqueue_keeps | apply State.sendTo_keeps
    | apply keeps_opt | apply keeps_opt' | apply keeps_ite | apply keeps_foldl | (split) | dsimp only
    | (refine Keeps.mk_upd ?_ rfl rfl))

theorem State.parkNotices_keeps {s : State} (h : Keeps s₀ s) : Keeps s₀ (State.parkNotices s) := by
  unfold State.parkNotices
  with_reducible repeat' (first
    | assumption | (intro _) | exact Keeps.refl _ | apply State.sendTo_keeps | apply keeps_foldl | (split)
    | dsimp only | (refine Keeps.mk_upd ?_ rfl rfl))

theorem State.fatal_keeps {s : State} (ty : PageType) (i code detail : Nat) (h : Keeps s₀ s) : Keeps s₀
    (State.fatal s ty i code detail) := by
  unfold State.fatal
  with_reducible repeat' (first
    | assumption | (intro _) | exact Keeps.refl _ | apply State.errEvent_keeps | apply State.fset_keeps
    | apply State.fireNotices_keeps | apply State.fireStop_keeps | apply keeps_opt | apply keeps_opt'
    | apply keeps_ite | (split) | dsimp only | (refine Keeps.mk_upd ?_ rfl rfl))

theorem State.fence_keeps {s : State} (h : Keeps s₀ s) : Keeps s₀ (State.fence s) := by
  unfold State.fence
  with_reducible repeat' (first
    | assumption | (intro _) | exact Keeps.refl _ | apply State.putClr_keeps | apply State.dropStream_keeps
    | apply State.sendTraining_keeps | apply State.fset_keeps | apply keeps_foldl | apply keeps_ite_fst
    | apply keeps_foldl_fst | (split) | dsimp only | (refine Keeps.mk_upd ?_ rfl rfl))

theorem State.setLatch_keeps {s : State} (p : Port) (e : Option ErrEntry) (h : Keeps s₀ s) : Keeps s₀
    (State.setLatch s p e) := by
  unfold State.setLatch
  with_reducible repeat' (first
    | assumption | (intro _) | exact Keeps.refl _ | apply keeps_opt | apply keeps_opt' | apply keeps_ite | (split)
    | dsimp only | (refine Keeps.mk_upd ?_ rfl rfl))

theorem State.latchEntry_keeps {s : State} (p : Port) (h : Keeps s₀ s) : Keeps s₀ (State.latchEntry s p) := by
  unfold State.latchEntry
  with_reducible repeat' (first
    | assumption | (intro _) | exact Keeps.refl _ | apply State.setLatch_keeps | (split) | dsimp only
    | (refine Keeps.mk_upd ?_ rfl rfl))

theorem State.popEntry_keeps {s : State} (p : Port) (h : Keeps s₀ s) : Keeps s₀ (State.popEntry s p) := by
  unfold State.popEntry
  with_reducible repeat' (first
    | assumption | (intro _) | exact Keeps.refl _ | apply State.setLatch_keeps
    | exact Keeps.mk_err h rfl (fun z => Nat.le_trans (List.length_filter_le _ _) z) | (split) | dsimp only
    | (refine Keeps.mk_upd ?_ rfl rfl))

theorem State.ackErrors_keeps {s : State} (h : Keeps s₀ s) : Keeps s₀ (State.ackErrors s) := by
  unfold State.ackErrors
  with_reducible repeat' (first
    | assumption | (intro _) | exact Keeps.refl _ | apply State.fset_keeps | apply keeps_opt | apply keeps_opt'
    | apply keeps_ite | (split) | dsimp only | (refine Keeps.mk_upd ?_ rfl rfl))

theorem State.scrubBegin_keeps {s : State} (t : Nat) (stack : Bool) (h : Keeps s₀ s) : Keeps s₀
    (State.scrubBegin s t stack) := by
  unfold State.scrubBegin
  with_reducible repeat' (first
    | assumption | (intro _) | exact Keeps.refl _ | apply keeps_opt | apply keeps_opt' | apply keeps_ite | (split)
    | dsimp only | (refine Keeps.mk_upd ?_ rfl rfl) | (refine Keeps.mk_mem ?_ rfl rfl ?_)
    | exact MemSt.write_keeps .. | exact MemSt.upset_keeps .. | exact MemSt.putWord_keeps ..)
  all_goals exact MemSt.Keeps.of_eq rfl rfl rfl

theorem State.fixWord_keeps {s : State} (wa : Nat) (h : Keeps s₀ s) : Keeps s₀ (State.fixWord s wa) := by
  unfold State.fixWord
  apply State.stackBytes_keeps
  refine Keeps.mk_mem h rfl rfl ?_
  refine MemSt.Keeps.trans ?_ (MemSt.flips_keep _ wa _)
  exact MemSt.Keeps.of_le rfl rfl fun o => Nat.le_of_eq (corrDepth_markStale _ o wa _)

theorem State.twiceFixed_keeps {s : State} (wa : Nat) (h : Keeps s₀ s) : Keeps s₀ (State.twiceFixed s wa) := by
  unfold State.twiceFixed
  with_reducible repeat' (first
    | assumption | (intro _) | exact Keeps.refl _ | apply State.candidate_keeps | apply keeps_opt | apply keeps_opt'
    | apply keeps_ite | (split) | dsimp only | (refine Keeps.mk_upd ?_ rfl rfl)
    | (refine Keeps.mk_mem ?_ rfl rfl ?_) | exact MemSt.write_keeps .. | exact MemSt.upset_keeps ..
    | exact MemSt.putWord_keeps ..)
  all_goals exact MemSt.Keeps.of_eq rfl rfl rfl

theorem State.scrubWord_keeps {s : State} (t wa : Nat) (h : Keeps s₀ s) : Keeps s₀ (State.scrubWord s t wa) := by
  unfold State.scrubWord
  with_reducible repeat' (first
    | assumption | (intro _) | exact Keeps.refl _ | apply State.touchWord_keeps | apply State.event_keeps
    | apply State.count_keeps | apply State.fixWord_keeps | apply State.twiceFixed_keeps | (split) | dsimp only
    | (refine Keeps.mk_upd ?_ rfl rfl))

theorem State.scrubPassDone_keeps {s : State} (t : Nat) (stack : Bool) (minutes : Nat) (h : Keeps s₀ s) : Keeps
    s₀ (State.scrubPassDone s t stack minutes) := by
  unfold State.scrubPassDone
  with_reducible repeat' (first
    | assumption | (intro _) | exact Keeps.refl _ | apply State.fset_keeps | apply State.count_keeps
    | apply State.scrubBegin_keeps | apply State.event_keeps | apply keeps_opt | apply keeps_opt' | apply keeps_ite
    | (split) | dsimp only | (refine Keeps.mk_upd ?_ rfl rfl) | (refine Keeps.mk_mem ?_ rfl rfl ?_)
    | exact MemSt.write_keeps .. | exact MemSt.upset_keeps .. | exact MemSt.putWord_keeps ..)
  all_goals exact MemSt.Keeps.of_eq rfl rfl rfl

theorem State.scrubAccess_keeps {s : State} (t : Nat) (stack : Bool) (minutes : Nat) (h : Keeps s₀ s) : Keeps s₀
    (State.scrubAccess s t stack minutes) := by
  unfold State.scrubAccess
  with_reducible repeat' (first
    | assumption | (intro _) | exact Keeps.refl _ | apply State.scrubBegin_keeps | apply State.scrubWord_keeps
    | apply State.stackBytes_keeps | apply State.fset_keeps | apply State.scrubPassDone_keeps | apply keeps_opt
    | apply keeps_opt' | apply keeps_ite | apply keeps_foldl | (split) | dsimp only
    | (refine Keeps.mk_upd ?_ rfl rfl))

theorem State.resetSpad_keeps {s : State} (t : Nat) (h : Keeps s₀ s) : Keeps s₀ (State.resetSpad s t) := by
  unfold State.resetSpad
  with_reducible repeat' (first
    | assumption | (intro _) | exact Keeps.refl _ | apply State.fset_keeps | apply State.setPair_keeps
    | apply keeps_foldl | exact MemSt.Keeps.of_le rfl rfl fun o => corrDepth_filter ..
    | exact MemSt.Keeps.of_le rfl rfl fun o => corrDepth_erase .. | (split) | dsimp only
    | (refine Keeps.mk_upd ?_ rfl rfl) | (refine Keeps.mk_mem ?_ rfl rfl ?_) | exact MemSt.write_keeps ..
    | exact MemSt.upset_keeps .. | exact MemSt.putWord_keeps ..)
  all_goals exact MemSt.Keeps.of_eq rfl rfl rfl

theorem State.resetStk_keeps {s : State} (k : Nat) (h : Keeps s₀ s) : Keeps s₀ (State.resetStk s k) := by
  unfold State.resetStk
  with_reducible repeat' (first
    | assumption | (intro _) | exact Keeps.refl _ | apply State.fset_keeps | apply State.setPair_keeps
    | apply keeps_foldl | exact MemSt.Keeps.of_le rfl rfl fun o => corrDepth_filter ..
    | exact MemSt.Keeps.of_le rfl rfl fun o => corrDepth_erase .. | (split) | dsimp only
    | (refine Keeps.mk_upd ?_ rfl rfl) | (refine Keeps.mk_mem ?_ rfl rfl ?_) | exact MemSt.write_keeps ..
    | exact MemSt.upset_keeps .. | exact MemSt.putWord_keeps ..)
  all_goals exact MemSt.Keeps.of_eq rfl rfl rfl

theorem State.selectClass_keeps {s : State} (t cls : Nat) (h : Keeps s₀ s) : Keeps s₀ (State.selectClass s t
    cls) := by
  unfold State.selectClass
  with_reducible repeat' (first
    | assumption | (intro _) | exact Keeps.refl _ | apply State.setPair_keeps | apply State.fset_keeps | dsimp only
    | (refine Keeps.mk_upd ?_ rfl rfl))

theorem State.resetScrub_keeps {s : State} (t : Nat) (h : Keeps s₀ s) : Keeps s₀ (State.resetScrub s t) := by
  unfold State.resetScrub
  with_reducible repeat' (first
    | assumption | (intro _) | exact Keeps.refl _ | apply State.fset_keeps | apply State.scrubBegin_keeps | (split)
    | dsimp only | (refine Keeps.mk_upd ?_ rfl rfl) | (refine Keeps.mk_mem ?_ rfl rfl ?_)
    | exact MemSt.write_keeps .. | exact MemSt.upset_keeps .. | exact MemSt.putWord_keeps ..)
  all_goals exact MemSt.Keeps.of_eq rfl rfl rfl

theorem State.strip_keeps {s : State} (h : Keeps s₀ s) : Keeps s₀ (State.strip s) := by
  unfold State.strip
  extract_lets inStacks r1 mem tiles queues r2 snap r3 host r4 pwr r5 optics r6 r7 r8 s1
  have h1 : Keeps s₀ s1 := by
    obtain ⟨a, b, c, d, e, f, g⟩ := h
    refine ⟨a, b, c, d, e.trans (MemSt.strip_keeps _ _), fun z => ?_, g⟩
    exact sparseWf_filter _ _ _ (f z)
  clear_value s1
  with_reducible repeat' (first
    | assumption | (intro _) | exact Keeps.refl _ | apply State.setQReg_keeps | apply State.fset_keeps
    | apply State.scrubBegin_keeps | apply keeps_opt | apply keeps_opt' | apply keeps_ite | apply keeps_foldl
    | apply keeps_ite_fst | apply keeps_foldl_fst | (split) | dsimp only | (refine Keeps.mk_upd ?_ rfl rfl)
    | (refine Keeps.mk_mem ?_ rfl rfl ?_) | exact MemSt.write_keeps .. | exact MemSt.upset_keeps ..
    | exact MemSt.putWord_keeps ..)
  all_goals exact MemSt.Keeps.of_eq rfl rfl rfl

theorem State.loseErrors_keeps {s : State} (lost : List Nat) (h : Keeps s₀ s) : Keeps s₀ (State.loseErrors s
    lost) := by
  obtain ⟨a, b, c, d, e, f, g⟩ := h
  refine ⟨a, b, c, d, e, f, fun z => ?_⟩
  refine Nat.le_trans (List.length_filterMap_le _ _) (Nat.le_trans (List.length_filter_le _ _) ?_)
  simpa using g z

theorem State.loseReg_keeps {s : State} (key : Nat) (h : Keeps s₀ s) : Keeps s₀ (State.loseReg s key) := by
  unfold State.loseReg
  with_reducible repeat' (first
    | assumption | (intro _) | exact Keeps.refl _ | apply State.setReg_keeps | apply State.setQueue_keeps
    | apply keeps_opt | apply keeps_opt' | apply keeps_ite | (split) | dsimp only | (refine Keeps.mk_upd ?_ rfl rfl))

theorem State.moduleReset_keeps {s : State} (src : Nat) (h : Keeps s₀ s) : Keeps s₀ (State.moduleReset s src) := by
  unfold State.moduleReset
  extract_lets r1 host r2 mem r3 pwr r4 optics r5 r
  have h1 : Keeps s₀ r := by
    obtain ⟨a, b, c, d, e, f, g⟩ := h
    exact ⟨a, b, c, d, ⟨fun _ => rfl, fun _ o => Nat.zero_le _⟩, fun _ => rfl, fun _ => Nat.zero_le _⟩
  clear_value r
  with_reducible repeat' (first
    | assumption | (intro _) | exact Keeps.refl _ | apply State.fset_keeps | apply keeps_opt | apply keeps_opt'
    | apply keeps_ite | apply keeps_foldl | (split) | dsimp only | (refine Keeps.mk_upd ?_ rfl rfl)
    | (refine Keeps.mk_mem ?_ rfl rfl ?_) | exact MemSt.write_keeps .. | exact MemSt.upset_keeps ..
    | exact MemSt.putWord_keeps ..)
  all_goals exact MemSt.Keeps.of_eq rfl rfl rfl

theorem State.judgeSlots_keeps {s : State} (h : Keeps s₀ s) : Keeps s₀ (State.judgeSlots s) := by
  unfold State.judgeSlots
  with_reducible repeat' (first
    | assumption | (intro _) | exact Keeps.refl _ | apply State.fset_keeps | apply keeps_opt | apply keeps_opt'
    | apply keeps_ite | apply keeps_cond | (split) | dsimp only | (refine Keeps.mk_upd ?_ rfl rfl))

theorem State.pickFirmware_keeps {s : State} (h : Keeps s₀ s) : Keeps s₀ (State.pickFirmware s) := by
  unfold State.pickFirmware
  have hsvn (x : State) (k : Nat) (host : HostSt) (hx : Keeps s₀ x) :
      Keeps s₀ { x with fuses := { x.fuses with svn := min 64 (max x.fuses.svn k) }, host := host } := by
    obtain ⟨a, b, c, d, e, f, g⟩ := hx
    refine ⟨a, ?_, fun z => ?_, d, e, f, g⟩
    · rw [b]
    · have := c z
      show s₀.fuses.svn ≤ min 64 (max x.fuses.svn k) ∧ min 64 (max x.fuses.svn k) ≤ 64
      omega
  with_reducible repeat' (first
    | assumption | (intro _) | exact Keeps.refl _ | apply State.fset_keeps | apply State.setReg_keeps
    | apply State.judgeSlots_keeps | apply keeps_opt | apply keeps_opt' | apply keeps_ite | apply hsvn
    | exact hsvn _ _ _ (by assumption) | (split) | dsimp only | (refine Keeps.mk_upd ?_ rfl rfl))

theorem State.chooseRef_keeps {s : State} (ref : Option Int) (h : Keeps s₀ s) : Keeps s₀ (State.chooseRef s ref) := by
  unfold State.chooseRef
  with_reducible repeat' (first
    | assumption | (intro _) | exact Keeps.refl _ | apply State.fset_keeps | apply State.addWrap_keeps
    | apply State.event_keeps | apply keeps_opt | apply keeps_opt' | apply keeps_ite | (split) | dsimp only
    | (refine Keeps.mk_upd ?_ rfl rfl))

theorem State.noteTraining_keeps {s : State} (k us : Nat) (h : Keeps s₀ s) : Keeps s₀ (State.noteTraining s k
    us) := by
  unfold State.noteTraining
  with_reducible repeat' (first
    | assumption | (intro _) | exact Keeps.refl _ | apply State.fset_keeps | apply State.useFree_keeps | (split)
    | dsimp only | (refine Keeps.mk_upd ?_ rfl rfl))

theorem State.zeroFill_keeps {s : State} (stk : Bool) (h : Keeps s₀ s) : Keeps s₀ (State.zeroFill s stk) := by
  unfold State.zeroFill
  refine Keeps.mk_mem h rfl rfl ⟨fun h => s.mem.filter_wf _ _ h _ rfl rfl, fun z o => ?_⟩
  show corrDepth _ o (s.mem.corrq.map _) ≤ 16
  rw [corrDepth_map _ o _ (fun e => by split <;> rfl)]
  exact z o

theorem State.memService_keeps {s : State} (stk : Bool) (h : Keeps s₀ s) : Keeps s₀ (State.memService s
    stk) := by
  unfold State.memService
  with_reducible repeat' (first
    | assumption | (intro _) | exact Keeps.refl _ | apply State.zeroFill_keeps | apply State.fset_keeps
    | apply State.noteTraining_keeps | apply State.event_keeps | apply keeps_foldl | (split) | dsimp only
    | (refine Keeps.mk_upd ?_ rfl rfl))

theorem State.testCombs_keeps {s : State} (bad : List (Nat × Nat)) (h : Keeps s₀ s) : Keeps s₀ (State.testCombs
    s bad) := by
  unfold State.testCombs
  with_reducible repeat' (first
    | assumption | (intro _) | exact Keeps.refl _ | apply State.setCombOk_keeps | apply keeps_opt | apply keeps_opt'
    | apply keeps_ite | apply keeps_foldl | apply keeps_ite_fst | apply keeps_foldl_fst | (split) | dsimp only
    | (refine Keeps.mk_upd ?_ rfl rfl))

theorem State.opticsService_keeps {s : State} (h : Keeps s₀ s) : Keeps s₀ (State.opticsService s) := by
  unfold State.opticsService
  with_reducible repeat' (first
    | assumption | (intro _) | exact Keeps.refl _ | apply State.fset_keeps | apply State.releaseEngine_keeps
    | apply State.serveEngine_keeps | apply keeps_opt | apply keeps_opt' | apply keeps_ite | apply keeps_foldl
    | (split) | dsimp only | (refine Keeps.mk_upd ?_ rfl rfl))

theorem State.trainPcie_keeps {s : State} (h : Keeps s₀ s) : Keeps s₀ (State.trainPcie s) := by
  unfold State.trainPcie
  with_reducible repeat' (first
    | assumption | (intro _) | exact Keeps.refl _ | apply State.useFree_keeps | apply State.fset_keeps
    | apply State.event_keeps | apply keeps_opt | apply keeps_opt' | apply keeps_ite | (split) | dsimp only
    | (refine Keeps.mk_upd ?_ rfl rfl))

theorem State.enterSleep_keeps {s : State} (h : Keeps s₀ s) : Keeps s₀ (State.enterSleep s) := by
  unfold State.enterSleep
  with_reducible repeat' (first
    | assumption | (intro _) | exact Keeps.refl _ | apply State.fset_keeps | apply State.holdEngine_keeps
    | apply keeps_foldl | (split) | dsimp only | (refine Keeps.mk_upd ?_ rfl rfl))

theorem State.lightEngines_keeps {s : State} (h : Keeps s₀ s) : Keeps s₀ (State.lightEngines s) := by
  unfold State.lightEngines
  with_reducible repeat' (first
    | assumption | (intro _) | exact Keeps.refl _ | apply State.releaseEngine_keeps | apply State.fset_keeps
    | apply keeps_opt | apply keeps_opt' | apply keeps_ite | apply keeps_foldl | (split) | dsimp only
    | (refine Keeps.mk_upd ?_ rfl rfl))

theorem State.exitSleep_keeps {s : State} (h : Keeps s₀ s) : Keeps s₀ (State.exitSleep s) := by
  unfold State.exitSleep
  with_reducible repeat' (first
    | assumption | (intro _) | exact Keeps.refl _ | apply State.fset_keeps | apply State.lightEngines_keeps
    | apply keeps_opt | apply keeps_opt' | apply keeps_ite | apply keeps_foldl | (split) | dsimp only
    | (refine Keeps.mk_upd ?_ rfl rfl))

theorem State.exitDark_keeps {s : State} (lost : List Nat) (ref : Option Int) (h : Keeps s₀ s) : Keeps s₀
    (State.exitDark s lost ref) := by
  unfold State.exitDark
  with_reducible repeat' (first
    | assumption | (intro _) | exact Keeps.refl _ | apply State.pickFirmware_keeps | apply State.chooseRef_keeps
    | apply State.loseErrors_keeps | apply State.loseReg_keeps | apply State.memService_keeps
    | apply State.fset_keeps | apply keeps_opt | apply keeps_opt' | apply keeps_ite | apply keeps_foldl | (split)
    | dsimp only | (refine Keeps.mk_upd ?_ rfl rfl))

theorem State.exitLit_keeps {s : State} (h : Keeps s₀ s) : Keeps s₀ (State.exitLit s) := by
  unfold State.exitLit
  with_reducible repeat' (first
    | assumption | (intro _) | exact Keeps.refl _ | apply State.fset_keeps | apply State.holdEngine_keeps
    | apply State.opticsService_keeps | apply keeps_opt | apply keeps_opt' | apply keeps_ite | apply keeps_foldl
    | (split) | dsimp only | (refine Keeps.mk_upd ?_ rfl rfl))

theorem State.exitDeep_keeps {s : State} (lost : List Nat) (ref : Option Int) (h : Keeps s₀ s) : Keeps s₀
    (State.exitDeep s lost ref) := by
  unfold State.exitDeep
  with_reducible repeat' (first
    | assumption | (intro _) | exact Keeps.refl _ | apply State.exitDark_keeps | apply State.trainPcie_keeps
    | apply State.exitLit_keeps | apply State.fset_keeps | apply State.event_keeps | apply keeps_opt
    | apply keeps_opt' | apply keeps_ite | (split) | dsimp only | (refine Keeps.mk_upd ?_ rfl rfl))

theorem State.enterOff_keeps {s : State} (powered : Bool) (h : Keeps s₀ s) : Keeps s₀ (State.enterOff s powered) := by
  unfold State.enterOff
  with_reducible repeat' (first
    | assumption | (intro _) | exact Keeps.refl _ | apply State.moduleReset_keeps | apply State.fset_keeps
    | dsimp only | (refine Keeps.mk_upd ?_ rfl rfl))

theorem State.writeWake_keeps {s : State} (reached attempts : Nat) (fail : Bool) (elem stage : Nat) (h : Keeps
    s₀ s) : Keeps s₀ (State.writeWake s reached attempts fail elem stage) := by
  unfold State.writeWake
  with_reducible repeat' (first
    | assumption | (intro _) | exact Keeps.refl _ | apply State.fset_keeps | apply keeps_opt | apply keeps_opt'
    | apply keeps_ite | (split) | dsimp only | (refine Keeps.mk_upd ?_ rfl rfl))

theorem State.beginMove_keeps {s : State} (target src : Nat) (h : Keeps s₀ s) : Keeps s₀ (State.beginMove s
    target src) := by
  unfold State.beginMove
  with_reducible repeat' (first
    | assumption | (intro _) | exact Keeps.refl _ | apply State.startMove_keeps | dsimp only
    | (refine Keeps.mk_upd ?_ rfl rfl))

theorem State.startPending_keeps {s : State} (h : Keeps s₀ s) : Keeps s₀ (State.startPending s) := by
  unfold State.startPending
  with_reducible repeat' (first
    | assumption | (intro _) | exact Keeps.refl _ | apply State.fset_keeps | apply State.moduleReset_keeps
    | apply State.beginMove_keeps | apply keeps_opt | apply keeps_opt' | apply keeps_ite | (split) | dsimp only
    | (refine Keeps.mk_upd ?_ rfl rfl))

theorem State.judgeCap_keeps {s : State} (h : Keeps s₀ s) : Keeps s₀ (State.judgeCap s) := by
  unfold State.judgeCap
  with_reducible repeat' (first
    | assumption | (intro _) | exact Keeps.refl _ | apply State.fset_keeps | apply State.event_keeps
    | apply State.errEvent_keeps | apply keeps_opt | apply keeps_opt' | apply keeps_ite | (split) | dsimp only
    | (refine Keeps.mk_upd ?_ rfl rfl))

theorem State.dropCensus_keeps {s : State} (h : Keeps s₀ s) : Keeps s₀ (State.dropCensus s) := by
  unfold State.dropCensus
  with_reducible repeat' (first
    | assumption | (intro _) | exact Keeps.refl _ | apply State.fset_keeps | dsimp only
    | (refine Keeps.mk_upd ?_ rfl rfl))

theorem State.reach_keeps {s : State} (lost : List Nat) (ref : Option Int) (h : Keeps s₀ s) : Keeps s₀
    (State.reach s lost ref) := by
  unfold State.reach
  with_reducible repeat' (first
    | assumption | (intro _) | exact Keeps.refl _ | apply State.exitSleep_keeps | apply State.exitDeep_keeps
    | apply State.enterSleep_keeps | apply State.strip_keeps | apply State.dropCensus_keeps
    | apply State.enterOff_keeps | apply State.startPending_keeps | apply State.event_keeps | apply State.fset_keeps
    | apply State.writeWake_keeps | apply State.judgeCap_keeps | apply State.restoreQuiesce_keeps | apply keeps_opt
    | apply keeps_opt' | apply keeps_ite | (split) | dsimp only | (refine Keeps.mk_upd ?_ rfl rfl))

theorem State.request_keeps {s : State} (target src : Nat) (h : Keeps s₀ s) : Keeps s₀ (State.request s target
    src) := by
  unfold State.request
  with_reducible repeat' (first
    | assumption | (intro _) | exact Keeps.refl _ | apply State.pwrRequest_keeps | apply keeps_opt
    | apply keeps_opt' | apply keeps_ite | (split) | dsimp only | (refine Keeps.mk_upd ?_ rfl rfl))

theorem State.powerReq_keeps {s : State} (port : Port) (v : Nat) (h : Keeps s₀ s) : Keeps s₀ (State.powerReq s
    port v) := by
  unfold State.powerReq
  with_reducible repeat' (first
    | assumption | (intro _) | exact Keeps.refl _ | apply State.ctrlIgnored_keeps | apply State.fset_keeps
    | apply State.request_keeps | apply keeps_opt | apply keeps_opt' | apply keeps_ite | (split) | dsimp only
    | (refine Keeps.mk_upd ?_ rfl rfl))

theorem State.wakeFails_keeps {s : State} (elem stage : Nat) (h : Keeps s₀ s) : Keeps s₀ (State.wakeFails s elem
    stage) := by
  unfold State.wakeFails
  have h2 : Keeps s₀ (if s.pwrState = 2 then s.strip else s) := keeps_ite (State.strip_keeps h) h
  generalize (if s.pwrState = 2 then s.strip else s) = x at h2
  have h4 := State.writeWake_keeps 3 3 true elem stage (State.fset_keeps State.pwrP PWR.PAGE_STAT_moving 0
    (State.fset_keeps State.pwrP PWR.PAGE_STAT_state 3 h2))
  dsimp only
  generalize State.writeWake _ _ _ _ _ _ = y at h4
  have h6 := State.errEvent_keeps .pwr 0 0x93 elem 0 (keeps_pwr { y.pwr with attempts := 0, pwrOk := false } h4)
  generalize State.errEvent _ _ _ _ _ _ = z at h6
  exact State.startPending_keeps (State.event_keeps _ _ _ h6)

theorem State.capWrite_keeps {s : State} (v : Nat) (h : Keeps s₀ s) : Keeps s₀ (State.capWrite s v) := by
  unfold State.capWrite
  with_reducible repeat' (first
    | assumption | (intro _) | exact Keeps.refl _ | apply State.fset_keeps | apply State.event_keeps
    | apply State.errEvent_keeps | apply State.judgeCap_keeps | apply keeps_opt | apply keeps_opt' | apply keeps_ite
    | (split) | dsimp only | (refine Keeps.mk_upd ?_ rfl rfl))

theorem State.measure_keeps {s : State} (watts mv10 ma10 : Nat) (h : Keeps s₀ s) : Keeps s₀ (State.measure s
    watts mv10 ma10) := by
  unfold State.measure
  with_reducible repeat' (first
    | assumption | (intro _) | exact Keeps.refl _ | apply State.addPair_keeps | apply State.fset_keeps | dsimp only
    | (refine Keeps.mk_upd ?_ rfl rfl))

theorem State.powerTick_keeps {s : State} (watts mv10 ma10 : Nat) (demands : List Nat) (h : Keeps s₀ s) : Keeps
    s₀ (State.powerTick s watts mv10 ma10 demands) := by
  unfold State.powerTick
  with_reducible repeat' (first
    | assumption | (intro _) | exact Keeps.refl _ | apply State.measure_keeps | apply State.count_keeps
    | apply State.fset_keeps | apply State.addSat_keeps | apply keeps_opt | apply keeps_opt' | apply keeps_ite
    | apply keeps_ite_fst | apply keeps_foldl_fst | (split) | dsimp only | (refine Keeps.mk_upd ?_ rfl rfl))

theorem State.showThrottle_keeps {s : State} (h : Keeps s₀ s) : Keeps s₀ (State.showThrottle s) := by
  unfold State.showThrottle
  with_reducible repeat' (first
    | assumption | (intro _) | exact Keeps.refl _ | apply State.fset_keeps | apply State.event_keeps
    | apply keeps_opt | apply keeps_opt' | apply keeps_ite | (split) | dsimp only | (refine Keeps.mk_upd ?_ rfl rfl))

theorem State.noteTemp_keeps {s : State} (code : Nat) (temp : Int) (h : Keeps s₀ s) : Keeps s₀ (State.noteTemp s
    code temp) := by
  unfold State.noteTemp
  with_reducible repeat' (first
    | assumption | (intro _) | exact Keeps.refl _ | (split) | dsimp only | (refine Keeps.mk_upd ?_ rfl rfl))

theorem State.sensorRead_keeps {s : State} (code : Nat) (temp : Int) (h : Keeps s₀ s) : Keeps s₀
    (State.sensorRead s code temp) := by
  unfold State.sensorRead
  with_reducible repeat' (first
    | assumption | (intro _) | exact Keeps.refl _ | apply State.noteTemp_keeps | apply State.showThrottle_keeps
    | apply State.fatal_keeps | apply keeps_opt | apply keeps_opt' | apply keeps_ite | (split) | dsimp only
    | (refine Keeps.mk_upd ?_ rfl rfl))

theorem State.dieSample_keeps {s : State} (t : Nat) (temp : Int) (h : Keeps s₀ s) : Keeps s₀ (State.dieSample s
    t temp) := by
  unfold State.dieSample
  with_reducible repeat' (first
    | assumption | (intro _) | exact Keeps.refl _ | apply State.event_keeps | apply State.count_keeps
    | apply State.thermalStep_keeps | apply keeps_opt | apply keeps_opt' | apply keeps_ite | (split) | dsimp only
    | (refine Keeps.mk_upd ?_ rfl rfl))

theorem State.coolantRead_keeps {s : State} (inlet outlet : Int) (flow ring : Nat) (low100 inlet1s flow1s :
    Bool) (h : Keeps s₀ s) : Keeps s₀ (State.coolantRead s inlet outlet flow ring low100 inlet1s flow1s) := by
  unfold State.coolantRead
  with_reducible repeat' (first
    | assumption | (intro _) | exact Keeps.refl _ | apply State.fset_keeps | apply State.noteTemp_keeps
    | apply State.showThrottle_keeps | apply State.event_keeps | apply keeps_opt | apply keeps_opt'
    | apply keeps_ite | (split) | dsimp only | (refine Keeps.mk_upd ?_ rfl rfl))

theorem State.tclkWrite_keeps {s : State} (v : Nat) (h : Keeps s₀ s) : Keeps s₀ (State.tclkWrite s v) := by
  unfold State.tclkWrite
  with_reducible repeat' (first
    | assumption | (intro _) | exact Keeps.refl _ | apply State.fset_keeps | apply State.ctrlIgnored_keeps
    | apply keeps_opt | apply keeps_opt' | apply keeps_ite | apply keeps_foldl | (split) | dsimp only
    | (refine Keeps.mk_upd ?_ rfl rfl))

theorem State.noteCarry_keeps {s : State} (h : Keeps s₀ s) : Keeps s₀ (State.noteCarry s) := by
  unfold State.noteCarry
  with_reducible repeat' (first
    | assumption | (intro _) | exact Keeps.refl _ | apply keeps_foldl | (split) | dsimp only
    | (refine Keeps.mk_upd ?_ rfl rfl))

theorem State.grow_keeps {s : State} (ty : PageType) (i off : Nat) (h : Keeps s₀ s) : Keeps s₀ (State.grow s ty
    i off) := by
  unfold State.grow
  with_reducible repeat' (first
    | assumption | (intro _) | exact Keeps.refl _ | apply State.useFree_keeps | apply State.fset_keeps
    | apply State.setPair_keeps | apply keeps_opt | apply keeps_opt' | apply keeps_ite | (split) | dsimp only
    | (refine Keeps.mk_upd ?_ rfl rfl))

theorem State.readWord_keeps {s : State} (port : Port) (ty : PageType) (i off : Nat) (h : Keeps s₀ s) : Keeps s₀
    (State.readWord s port ty i off).1 := by
  unfold State.readWord
  with_reducible repeat' (first
    | assumption | (intro _) | exact Keeps.refl _ | apply State.grow_keeps | apply State.useFree_keeps
    | apply keeps_opt | apply keeps_opt' | apply keeps_ite | apply keeps_ite_fst | apply keeps_foldl_fst | (split)
    | dsimp only | (refine Keeps.mk_upd ?_ rfl rfl))

theorem State.flashFree_keeps {s : State} (b : Nat) (h : Keeps s₀ s) : Keeps s₀ (State.flashFree s b) := by
  unfold State.flashFree
  with_reducible repeat' (first
    | assumption | (intro _) | exact Keeps.refl _ | apply keeps_ite_fst | apply keeps_foldl_fst | (split)
    | dsimp only | (refine Keeps.mk_upd ?_ rfl rfl))

theorem State.flashRead_keeps {s : State} (block addr x3 : Nat) (h : Keeps s₀ s) : Keeps s₀ (State.flashRead s
    block addr x3) := by
  induction x3 generalizing s block addr with
  | zero => exact h
  | succ n ih =>
    unfold State.flashRead
    have h1 := State.storeVia_keeps (fun i => addr + i) (s.flashBlock block) h
    with_reducible apply ih
    with_reducible exact keeps_opt h1 fun _ => State.event_keeps _ _ _ (State.errEvent_keeps _ _ _ _ _ (State.count_keeps _ _ h1))

theorem State.flashStore_keeps {s : State} (block addr x3 : Nat) (h : Keeps s₀ s) : Keeps s₀ (State.flashStore s
    block addr x3) := by
  induction x3 generalizing s block addr with
  | zero => exact h
  | succ n ih =>
    unfold State.flashStore
    with_reducible apply ih
    with_reducible exact State.flashWrite_keeps _ _ (State.wearFlash_keeps (State.flashFree_keeps _ (State.touchVia_keeps _ _ h)))

theorem State.flashTrim_keeps {s : State} (block x2 : Nat) (h : Keeps s₀ s) : Keeps s₀ (State.flashTrim s block
    x2) := by
  induction x2 generalizing s block with
  | zero => exact h
  | succ n ih => exact ih _ (State.flashFree_keeps _ h)

theorem State.flashEnd_keeps {s : State} (code : Nat) (h : Keeps s₀ s) : Keeps s₀ (State.flashEnd s code) := by
  unfold State.flashEnd
  with_reducible repeat' (first
    | assumption | (intro _) | exact Keeps.refl _ | apply State.fset_keeps | apply State.event_keeps | dsimp only
    | (refine Keeps.mk_upd ?_ rfl rfl))

theorem State.flashGo_keeps {s : State} (h : Keeps s₀ s) : Keeps s₀ (State.flashGo s) := by
  unfold State.flashGo
  with_reducible repeat' (first
    | assumption | (intro _) | exact Keeps.refl _ | apply State.ctrlIgnored_keeps | apply State.fset_keeps
    | apply State.flashEnd_keeps | apply keeps_opt | apply keeps_opt' | apply keeps_ite | (split) | dsimp only
    | (refine Keeps.mk_upd ?_ rfl rfl))

theorem State.flashRun_keeps {s : State} (c : FlashCmd) (h : Keeps s₀ s) : Keeps s₀ (State.flashRun s c) := by
  unfold State.flashRun
  with_reducible repeat' (first
    | assumption | (intro _) | exact Keeps.refl _ | apply State.flashRead_keeps | apply State.flashStore_keeps
    | apply State.flashTrim_keeps | apply State.flashEnd_keeps | apply State.fset_keeps | apply keeps_opt
    | apply keeps_opt' | apply keeps_ite | (split) | dsimp only | (refine Keeps.mk_upd ?_ rfl rfl))

theorem State.writeCensus_keeps {s : State} (base began : Nat) (h : Keeps s₀ s) : Keeps s₀ (State.writeCensus s
    base began) := by
  unfold State.writeCensus
  with_reducible repeat' (first
    | assumption | (intro _) | exact Keeps.refl _ | apply State.store_keeps | apply State.crossFabric_keeps
    | apply State.stackBytes_keeps | apply keeps_opt | apply keeps_opt' | apply keeps_ite | apply keeps_foldl
    | apply keeps_ite_fst | apply keeps_foldl_fst
    | exact MemSt.census_keeps _ _ _ _ (fun a => base ≤ a ∧ a < base + 2 ^ 20) | (split) | dsimp only
    | (refine Keeps.mk_upd ?_ rfl rfl) | (refine Keeps.mk_mem ?_ rfl rfl ?_) | exact MemSt.write_keeps ..
    | exact MemSt.upset_keeps .. | exact MemSt.putWord_keeps ..)
  all_goals exact MemSt.Keeps.of_eq rfl rfl rfl

theorem State.censusGo_keeps {s : State} (h : Keeps s₀ s) : Keeps s₀ (State.censusGo s) := by
  unfold State.censusGo
  with_reducible repeat' (first
    | assumption | (intro _) | exact Keeps.refl _ | apply State.ctrlIgnored_keeps | apply State.fset_keeps
    | apply keeps_opt | apply keeps_opt' | apply keeps_ite | (split) | dsimp only | (refine Keeps.mk_upd ?_ rfl rfl))

theorem State.censusDone_keeps {s : State} (began : Nat) (h : Keeps s₀ s) : Keeps s₀ (State.censusDone s began) := by
  unfold State.censusDone
  with_reducible repeat' (first
    | assumption | (intro _) | exact Keeps.refl _ | apply State.writeCensus_keeps | apply State.fset_keeps
    | apply State.setReg_keeps | apply State.addWrap_keeps | apply State.event_keeps | dsimp only
    | (refine Keeps.mk_upd ?_ rfl rfl))

theorem State.showStage_keeps {s : State} (stage : Nat) (h : Keeps s₀ s) : Keeps s₀ (State.showStage s stage) := by
  unfold State.showStage
  with_reducible repeat' (first
    | assumption | (intro _) | exact Keeps.refl _ | apply State.fset_keeps | apply keeps_opt | apply keeps_opt'
    | apply keeps_ite | (split) | dsimp only | (refine Keeps.mk_upd ?_ rfl rfl))

theorem State.stageOptics_keeps {s : State} (b : BootInfo) (h : Keeps s₀ s) : Keeps s₀ (State.stageOptics s b) := by
  unfold State.stageOptics
  with_reducible repeat' (first
    | assumption | (intro _) | exact Keeps.refl _ | apply State.opticsService_keeps | apply State.testCombs_keeps
    | apply State.calibrated_keeps | apply State.lineFail_keeps | apply State.useFree_keeps
    | apply State.retire_keeps | apply keeps_opt | apply keeps_opt' | apply keeps_ite | apply keeps_foldl
    | apply keeps_ite_fst | apply keeps_foldl_fst | (split) | dsimp only | (refine Keeps.mk_upd ?_ rfl rfl))

theorem State.stageRecord_keeps {s : State} (b : BootInfo) (h : Keeps s₀ s) : Keeps s₀ (State.stageRecord s b) := by
  unfold State.stageRecord
  with_reducible repeat' (first
    | assumption | (intro _) | exact Keeps.refl _ | apply State.saveCands_keeps | apply State.fset_keeps
    | apply State.flashWrite_keeps | apply State.wearFlash_keeps | apply keeps_opt | apply keeps_opt'
    | apply keeps_ite | apply keeps_ite_fst | apply keeps_foldl_fst | (split) | dsimp only
    | (refine Keeps.mk_upd ?_ rfl rfl))

theorem State.stageReady_keeps {s : State} (b : BootInfo) (h : Keeps s₀ s) : Keeps s₀ (State.stageReady s b) := by
  unfold State.stageReady
  with_reducible repeat' (first
    | assumption | (intro _) | exact Keeps.refl _ | apply State.fset_keeps | apply State.setReg_keeps
    | apply State.event_keeps | dsimp only | (refine Keeps.mk_upd ?_ rfl rfl))

theorem State.repairLines_keeps {s : State} (h : Keeps s₀ s) : Keeps s₀ (State.repairLines s) := by
  unfold State.repairLines
  with_reducible repeat' (first
    | assumption | (intro _) | exact Keeps.refl _ | apply keeps_ite_fst | apply keeps_foldl_fst | dsimp only
    | (refine Keeps.mk_upd ?_ rfl rfl) | (refine Keeps.mk_mem ?_ rfl rfl ?_) | exact MemSt.write_keeps ..
    | exact MemSt.upset_keeps .. | exact MemSt.putWord_keeps ..)
  all_goals exact MemSt.Keeps.of_eq rfl rfl rfl

theorem State.repairRow_keeps {s : State} (r : Nat) (h : Keeps s₀ s) : Keeps s₀ (State.repairRow s r) := by
  unfold State.repairRow
  with_reducible repeat' (first
    | assumption | (intro _) | exact Keeps.refl _ | apply State.useFree_keeps | apply keeps_opt | apply keeps_opt'
    | apply keeps_ite | apply keeps_ite_fst | apply keeps_foldl_fst | (split) | dsimp only
    | (refine Keeps.mk_upd ?_ rfl rfl) | (refine Keeps.mk_mem ?_ rfl rfl ?_) | exact MemSt.write_keeps ..
    | exact MemSt.upset_keeps .. | exact MemSt.putWord_keeps ..)
  all_goals exact MemSt.Keeps.of_eq rfl rfl rfl

theorem State.repairRows_keeps {s : State} (h : Keeps s₀ s) : Keeps s₀ (State.repairRows s) := by
  unfold State.repairRows
  with_reducible repeat' (first
    | assumption | (intro _) | exact Keeps.refl _ | apply State.repairRow_keeps | apply keeps_foldl | (split)
    | dsimp only | (refine Keeps.mk_upd ?_ rfl rfl) | (refine Keeps.mk_mem ?_ rfl rfl ?_)
    | exact MemSt.write_keeps .. | exact MemSt.upset_keeps .. | exact MemSt.putWord_keeps ..)
  all_goals exact MemSt.Keeps.of_eq rfl rfl rfl

theorem State.spareFails_keeps {s : State} (x : Nat × Nat) (h : Keeps s₀ s) : Keeps s₀ (State.spareFails s x) := by
  unfold State.spareFails
  with_reducible repeat' (first
    | assumption | (intro _) | exact Keeps.refl _ | apply State.saveCands_keeps | apply State.event_keeps
    | apply State.useFree_keeps | apply State.errEvent_keeps | apply keeps_opt | apply keeps_opt' | apply keeps_ite
    | apply keeps_ite_fst | apply keeps_foldl_fst | (split) | dsimp only | (refine Keeps.mk_upd ?_ rfl rfl)
    | (refine Keeps.mk_mem ?_ rfl rfl ?_) | exact MemSt.write_keeps .. | exact MemSt.upset_keeps ..
    | exact MemSt.putWord_keeps ..)
  all_goals exact MemSt.Keeps.of_eq rfl rfl rfl

theorem State.stageWork_keeps {s : State} (stage : Nat) (b : BootInfo) (h : Keeps s₀ s) : Keeps s₀
    (State.stageWork s stage b) := by
  unfold State.stageWork
  with_reducible repeat' (first
    | assumption | (intro _) | exact Keeps.refl _ | apply State.showStage_keeps | apply State.addSat_keeps
    | apply State.writeWake_keeps | apply State.addWrap_keeps | apply State.chooseRef_keeps
    | apply State.trainPcie_keeps | apply State.pickFirmware_keeps | apply State.repairLines_keeps
    | apply State.memService_keeps | apply State.repairRows_keeps | apply State.spareFails_keeps
    | apply State.stageOptics_keeps | apply State.stageRecord_keeps | apply State.stageReady_keeps
    | apply keeps_foldl | (split) | dsimp only | (refine Keeps.mk_upd ?_ rfl rfl))

theorem State.stageDone_keeps {s : State} (stage : Nat) (b : BootInfo) (h : Keeps s₀ s) : Keeps s₀
    (State.stageDone s stage b) := by
  unfold State.stageDone
  with_reducible repeat' (first
    | assumption | (intro _) | exact Keeps.refl _ | apply State.stageWork_keeps | dsimp only
    | (refine Keeps.mk_upd ?_ rfl rfl))

theorem State.stageFails_keeps {s : State} (stage : Nat) (h : Keeps s₀ s) : Keeps s₀ (State.stageFails s stage) := by
  unfold State.stageFails
  with_reducible repeat' (first
    | assumption | (intro _) | exact Keeps.refl _ | apply State.fset_keeps | apply keeps_opt | apply keeps_opt'
    | apply keeps_ite | (split) | dsimp only | (refine Keeps.mk_upd ?_ rfl rfl))

theorem State.pcieReset_keeps {s : State} (k : PcieReset) (h : Keeps s₀ s) : Keeps s₀ (State.pcieReset s k) := by
  unfold State.pcieReset
  extract_lets gone staged r1 s1
  have h1 : Keeps s₀ s1 := by
    obtain ⟨a, b, c, d, e, f, g⟩ := h
    exact ⟨a, b, c, d, e, fun z => sparseWf_filter _ _ _ (f z), g⟩
  clear_value s1
  with_reducible repeat' (first
    | assumption | (intro _) | exact Keeps.refl _ | apply State.event_keeps | apply State.addWrap_keeps
    | apply State.trainPcie_keeps | apply keeps_opt | apply keeps_opt' | apply keeps_ite | apply keeps_ite_fst
    | apply keeps_foldl_fst | (split) | dsimp only | (refine Keeps.mk_upd ?_ rfl rfl))

theorem State.darken_keeps {s : State} (h : Keeps s₀ s) : Keeps s₀ (State.darken s) := by
  unfold State.darken
  with_reducible repeat' (first
    | assumption | (intro _) | exact Keeps.refl _ | apply State.fset_keeps | apply State.sideDark_keeps
    | apply keeps_foldl | (split) | dsimp only | (refine Keeps.mk_upd ?_ rfl rfl))

theorem State.unlight_keeps {s : State} (h : Keeps s₀ s) : Keeps s₀ (State.unlight s) := by
  unfold State.unlight
  with_reducible repeat' (first
    | assumption | (intro _) | exact Keeps.refl _ | apply State.fset_keeps | apply State.darken_keeps | dsimp only
    | (refine Keeps.mk_upd ?_ rfl rfl))

theorem State.latchOpens_keeps {s : State} (h : Keeps s₀ s) : Keeps s₀ (State.latchOpens s) := by
  unfold State.latchOpens
  with_reducible repeat' (first
    | assumption | (intro _) | exact Keeps.refl _ | apply State.fset_keeps | apply State.unlight_keeps
    | apply State.darken_keeps | apply State.svcEvent_keeps | apply State.noteShutters_keeps
    | apply State.fatal_keeps | apply keeps_opt | apply keeps_opt' | apply keeps_ite | (split) | dsimp only
    | (refine Keeps.mk_upd ?_ rfl rfl))

theorem State.flushPort_keeps {s : State} (p : Nat) (h : Keeps s₀ s) : Keeps s₀ (State.flushPort s p) := by
  unfold State.flushPort
  with_reducible repeat' (first
    | assumption | (intro _) | exact Keeps.refl _ | apply State.transmit_keeps | apply keeps_foldl | (split)
    | dsimp only | (refine Keeps.mk_upd ?_ rfl rfl))

theorem State.parkNow_keeps {s : State} (notice plain : Bool) (h : Keeps s₀ s) : Keeps s₀ (State.parkNow s
    notice plain) := by
  unfold State.parkNow
  with_reducible repeat' (first
    | assumption | (intro _) | exact Keeps.refl _ | apply State.fset_keeps | apply State.endCtxs_keeps
    | apply State.parkNotices_keeps | apply State.flushPort_keeps | apply State.holdEngine_keeps
    | apply State.svcEvent_keeps | apply State.noteShutters_keeps | apply keeps_opt | apply keeps_opt'
    | apply keeps_ite | apply keeps_foldl | apply keeps_ite_fst | apply keeps_foldl_fst | (split) | dsimp only
    | (refine Keeps.mk_upd ?_ rfl rfl))

theorem State.parkRequest_keeps {s : State} (h : Keeps s₀ s) : Keeps s₀ (State.parkRequest s) := by
  unfold State.parkRequest
  with_reducible repeat' (first
    | assumption | (intro _) | exact Keeps.refl _ | apply State.fset_keeps | apply State.svcEvent_keeps
    | apply State.parkNow_keeps | apply keeps_opt | apply keeps_opt' | apply keeps_ite | (split) | dsimp only
    | (refine Keeps.mk_upd ?_ rfl rfl))

theorem State.leavePark_keeps {s : State} (h : Keeps s₀ s) : Keeps s₀ (State.leavePark s) := by
  unfold State.leavePark
  with_reducible repeat' (first
    | assumption | (intro _) | exact Keeps.refl _ | apply State.setHold_keeps | apply State.fset_keeps | dsimp only
    | (refine Keeps.mk_upd ?_ rfl rfl))

theorem State.cancelPark_keeps {s : State} (h : Keeps s₀ s) : Keeps s₀ (State.cancelPark s) := by
  unfold State.cancelPark
  with_reducible repeat' (first
    | assumption | (intro _) | exact Keeps.refl _ | apply State.svcEvent_keeps | apply State.leavePark_keeps
    | apply keeps_opt | apply keeps_opt' | apply keeps_ite | (split) | dsimp only | (refine Keeps.mk_upd ?_ rfl rfl))

theorem State.unpark_keeps {s : State} (h : Keeps s₀ s) : Keeps s₀ (State.unpark s) := by
  unfold State.unpark
  with_reducible repeat' (first
    | assumption | (intro _) | exact Keeps.refl _ | apply State.leavePark_keeps | apply State.lightEngines_keeps
    | apply State.ctrlIgnored_keeps | apply keeps_opt | apply keeps_opt' | apply keeps_ite | (split) | dsimp only
    | (refine Keeps.mk_upd ?_ rfl rfl))

theorem State.svcWrite_keeps {s : State} (v : Nat) (h : Keeps s₀ s) : Keeps s₀ (State.svcWrite s v) := by
  unfold State.svcWrite
  with_reducible repeat' (first
    | assumption | (intro _) | exact Keeps.refl _ | apply State.fset_keeps | apply State.parkRequest_keeps
    | apply State.cancelPark_keeps | apply State.unpark_keeps | apply keeps_opt | apply keeps_opt' | apply keeps_ite
    | (split) | dsimp only | (refine Keeps.mk_upd ?_ rfl rfl))

theorem State.setPhyFails_keeps {s : State} (k n : Nat) (h : Keeps s₀ s) : Keeps s₀ (State.setPhyFails s k n) := by
  unfold State.setPhyFails
  with_reducible repeat' (first
    | assumption | (intro _) | exact Keeps.refl _ | (split) | dsimp only | (refine Keeps.mk_upd ?_ rfl rfl))

theorem State.setTrained_keeps {s : State} (k v : Nat) (h : Keeps s₀ s) : Keeps s₀ (State.setTrained s k v) := by
  unfold State.setTrained
  with_reducible repeat' (first
    | assumption | (intro _) | exact Keeps.refl _ | apply State.fset_keeps | dsimp only
    | (refine Keeps.mk_upd ?_ rfl rfl))

theorem State.phyRetrain_keeps {s : State} (k : Nat) (h : Keeps s₀ s) : Keeps s₀ (State.phyRetrain s k) := by
  unfold State.phyRetrain
  with_reducible repeat' (first
    | assumption | (intro _) | exact Keeps.refl _ | apply State.count_keeps | apply State.fset_keeps
    | apply State.setTrained_keeps | dsimp only | (refine Keeps.mk_upd ?_ rfl rfl))

theorem State.phyReset_keeps {s : State} (k : Nat) (h : Keeps s₀ s) : Keeps s₀ (State.phyReset s k) := by
  unfold State.phyReset
  with_reducible repeat' (first
    | assumption | (intro _) | exact Keeps.refl _ | apply State.ctrlIgnored_keeps | apply State.phyRetrain_keeps
    | apply State.fset_keeps | apply keeps_opt | apply keeps_opt' | apply keeps_ite | (split) | dsimp only
    | (refine Keeps.mk_upd ?_ rfl rfl))

theorem State.phyDone_keeps {s : State} (k : Nat) (ok : Bool) (us : Nat) (h : Keeps s₀ s) : Keeps s₀
    (State.phyDone s k ok us) := by
  unfold State.phyDone
  with_reducible repeat' (first
    | assumption | (intro _) | exact Keeps.refl _ | apply State.noteTraining_keeps | apply State.fset_keeps
    | apply State.event_keeps | apply State.setPhyFails_keeps | apply State.setTrained_keeps
    | apply State.topUpVc_keeps | apply State.drainSnap_keeps | apply State.fatal_keeps
    | apply State.phyRetrain_keeps | apply keeps_opt | apply keeps_opt' | apply keeps_ite | (split) | dsimp only
    | (refine Keeps.mk_upd ?_ rfl rfl))

theorem State.setStaged_keeps {s : State} (port : Port) (page off : Nat) (v : Option Word) (h : Keeps s₀ s) :
    Keeps s₀ (State.setStaged s port page off v) := by
  unfold State.setStaged
  with_reducible repeat' (first
    | assumption | (intro _) | exact Keeps.refl _ | (split) | dsimp only | (refine Keeps.mk_upd ?_ rfl rfl))

theorem State.setPairLatch_keeps {s : State} (port : Port) (page off : Nat) (v : Option Word) (h : Keeps s₀ s) :
    Keeps s₀ (State.setPairLatch s port page off v) := by
  unfold State.setPairLatch
  with_reducible repeat' (first
    | assumption | (intro _) | exact Keeps.refl _ | (split) | dsimp only | (refine Keeps.mk_upd ?_ rfl rfl))

theorem State.plainWrite_keeps {s : State} (ty : PageType) (i off v : Nat) (h : Keeps s₀ s) : Keeps s₀
    (State.plainWrite s ty i off v) := by
  unfold State.plainWrite
  with_reducible repeat' (first
    | assumption | (intro _) | exact Keeps.refl _ | apply State.setReg_keeps | (split) | dsimp only
    | (refine Keeps.mk_upd ?_ rfl rfl))

theorem State.plainPair_keeps {s : State} (ty : PageType) (i low lo hi : Nat) (h : Keeps s₀ s) : Keeps s₀
    (State.plainPair s ty i low lo hi) := by
  unfold State.plainPair
  with_reducible repeat' (first
    | assumption | (intro _) | exact Keeps.refl _ | apply State.plainWrite_keeps | dsimp only
    | (refine Keeps.mk_upd ?_ rfl rfl))

theorem State.evtEnWrite_keeps {s : State} (ty : PageType) (i v : Nat) (h : Keeps s₀ s) : Keeps s₀
    (State.evtEnWrite s ty i v) := by
  unfold State.evtEnWrite
  with_reducible repeat' (first
    | assumption | (intro _) | exact Keeps.refl _ | apply State.plainWrite_keeps | apply State.raiseVector_keeps
    | apply keeps_opt | apply keeps_opt' | apply keeps_ite | (split) | dsimp only | (refine Keeps.mk_upd ?_ rfl rfl))

theorem State.svcEnWrite_keeps {s : State} (v : Nat) (h : Keeps s₀ s) : Keeps s₀ (State.svcEnWrite s v) := by
  unfold State.svcEnWrite
  with_reducible repeat' (first
    | assumption | (intro _) | exact Keeps.refl _ | apply State.plainWrite_keeps | apply State.raiseVector_keeps
    | apply keeps_opt | apply keeps_opt' | apply keeps_ite | (split) | dsimp only | (refine Keeps.mk_upd ?_ rfl rfl))

theorem State.dbgRefuse_keeps {s : State} (err : Nat) (h : Keeps s₀ s) : Keeps s₀ (State.dbgRefuse s err) := by
  unfold State.dbgRefuse
  with_reducible repeat' (first
    | assumption | (intro _) | exact Keeps.refl _ | apply State.event_keeps | apply State.fset_keeps | dsimp only
    | (refine Keeps.mk_upd ?_ rfl rfl))

theorem State.dbgRequest_keeps {s : State} (h : Keeps s₀ s) : Keeps s₀ (State.dbgRequest s) := by
  unfold State.dbgRequest
  with_reducible repeat' (first
    | assumption | (intro _) | exact Keeps.refl _ | apply State.dbgRefuse_keeps | apply State.fset_keeps
    | apply keeps_opt | apply keeps_opt' | apply keeps_ite | (split) | dsimp only | (refine Keeps.mk_upd ?_ rfl rfl))

theorem State.dbgSubmit_keeps {s : State} (h : Keeps s₀ s) : Keeps s₀ (State.dbgSubmit s) := by
  unfold State.dbgSubmit
  with_reducible repeat' (first
    | assumption | (intro _) | exact Keeps.refl _ | apply State.dbgRefuse_keeps | apply State.event_keeps
    | apply State.fset_keeps | apply keeps_opt | apply keeps_opt' | apply keeps_ite | (split) | dsimp only
    | (refine Keeps.mk_upd ?_ rfl rfl))

theorem State.tileIgnored_keeps {s : State} (ty : PageType) (t off : Nat) (h : Keeps s₀ s) : Keeps s₀
    (State.tileIgnored s ty t off) := by
  unfold State.tileIgnored
  with_reducible repeat' (first
    | assumption | (intro _) | exact Keeps.refl _ | apply State.event_keeps | apply State.errEvent_keeps
    | dsimp only | (refine Keeps.mk_upd ?_ rfl rfl))

theorem State.retrainLink_keeps {s : State} (l : Nat) (h : Keeps s₀ s) : Keeps s₀ (State.retrainLink s l) := by
  unfold State.retrainLink
  with_reducible repeat' (first
    | assumption | (intro _) | exact Keeps.refl _ | apply State.untrain_keeps | apply State.count_keeps
    | apply State.event_keeps | apply State.errEvent_keeps | apply keeps_foldl | (split) | dsimp only
    | (refine Keeps.mk_upd ?_ rfl rfl))

theorem State.afterCtrl_keeps {s : State} (ty : PageType) (i v : Nat) (h : Keeps s₀ s) : Keeps s₀
    (State.afterCtrl s ty i v) := by
  unfold State.afterCtrl
  with_reducible repeat' (first
    | assumption | (intro _) | exact Keeps.refl _ | apply State.resetTseq_keeps | apply State.clearSems_keeps
    | apply State.resetTe_keeps | apply State.resetVe_keeps | apply State.resetDma_keeps
    | apply State.resetSpad_keeps | apply State.resetRng_keeps | apply State.resetScale_keeps
    | apply State.resetScrub_keeps | apply State.resetStk_keeps | apply State.topUpVc_keeps
    | apply State.drainSnap_keeps | apply State.phyReset_keeps | apply State.retrainLink_keeps
    | apply State.serveEngine_keeps | apply State.restartEngine_keeps | apply State.serveLink_keeps
    | apply State.restartLink_keeps | apply State.resetColl_keeps | apply State.abortClearing_keeps
    | apply State.resetTrail_keeps | apply keeps_opt | apply keeps_opt' | apply keeps_ite | apply keeps_ite_fst
    | apply keeps_foldl_fst | (split) | dsimp only | (refine Keeps.mk_upd ?_ rfl rfl))

theorem State.ctrlWrite_keeps {s : State} (ty : PageType) (i v : Nat) (h : Keeps s₀ s) : Keeps s₀
    (State.ctrlWrite s ty i v) := by
  unfold State.ctrlWrite
  with_reducible repeat' (first
    | assumption | (intro _) | exact Keeps.refl _ | apply State.afterCtrl_keeps | apply State.plainWrite_keeps
    | apply State.noteShutters_keeps | apply State.untrain_keeps | apply keeps_opt | apply keeps_opt'
    | apply keeps_ite | (split) | dsimp only | (refine Keeps.mk_upd ?_ rfl rfl))

theorem State.combWrite_keeps {s : State} (p v : Nat) (h : Keeps s₀ s) : Keeps s₀ (State.combWrite s p v) := by
  unfold State.combWrite
  with_reducible repeat' (first
    | assumption | (intro _) | exact Keeps.refl _ | apply State.fset_keeps | apply State.switchComb_keeps
    | apply keeps_opt | apply keeps_opt' | apply keeps_ite | (split) | dsimp only | (refine Keeps.mk_upd ?_ rfl rfl))

theorem State.meshCodeWrite_keeps {s : State} (p v : Nat) (h : Keeps s₀ s) : Keeps s₀ (State.meshCodeWrite s p
    v) := by
  unfold State.meshCodeWrite
  with_reducible repeat' (first
    | assumption | (intro _) | exact Keeps.refl _ | apply State.ctrlIgnored_keeps | apply keeps_opt
    | apply keeps_opt' | apply keeps_ite | (split) | dsimp only | (refine Keeps.mk_upd ?_ rfl rfl))

theorem State.meshCtrlWrite_keeps {s : State} (p v : Nat) (h : Keeps s₀ s) : Keeps s₀ (State.meshCtrlWrite s p
    v) := by
  unfold State.meshCtrlWrite
  with_reducible repeat' (first
    | assumption | (intro _) | exact Keeps.refl _ | apply State.fset_keeps | apply State.meshCommit_keeps
    | apply State.meshCal_keeps | apply keeps_opt | apply keeps_opt' | apply keeps_ite | (split) | dsimp only
    | (refine Keeps.mk_upd ?_ rfl rfl))

theorem State.linkOptWrite_keeps {s : State} (l v : Nat) (h : Keeps s₀ s) : Keeps s₀ (State.linkOptWrite s l v) := by
  unfold State.linkOptWrite
  with_reducible repeat' (first
    | assumption | (intro _) | exact Keeps.refl _ | apply State.noteShutters_keeps | apply State.serveLink_keeps
    | apply State.plainWrite_keeps | dsimp only | (refine Keeps.mk_upd ?_ rfl rfl))

theorem State.chWrite_keeps {s : State} (l k off v : Nat) (h : Keeps s₀ s) : Keeps s₀ (State.chWrite s l k off
    v) := by
  unfold State.chWrite
  with_reducible repeat' (first
    | assumption | (intro _) | exact Keeps.refl _ | apply State.ctrlIgnored_keeps | apply State.target_keeps
    | apply State.revive_keeps | apply keeps_opt | apply keeps_opt' | apply keeps_ite | (split) | dsimp only
    | (refine Keeps.mk_upd ?_ rfl rfl))

theorem State.groupLoad_keeps {s : State} (v : Nat) (h : Keeps s₀ s) : Keeps s₀ (State.groupLoad s v) := by
  unfold State.groupLoad
  with_reducible repeat' (first
    | assumption | (intro _) | exact Keeps.refl _ | apply State.fset_keeps | apply keeps_opt | apply keeps_opt'
    | apply keeps_ite | (split) | dsimp only | (refine Keeps.mk_upd ?_ rfl rfl))

theorem State.watchWrite_keeps {s : State} (t v : Nat) (h : Keeps s₀ s) : Keeps s₀ (State.watchWrite s t v) := by
  unfold State.watchWrite
  with_reducible repeat' (first
    | assumption | (intro _) | exact Keeps.refl _ | apply State.fset_keeps | apply keeps_opt | apply keeps_opt'
    | apply keeps_ite | apply keeps_ite_fst | apply keeps_foldl_fst | (split) | dsimp only
    | (refine Keeps.mk_upd ?_ rfl rfl))

theorem State.restoreWrite_keeps {s : State} (v : Nat) (h : Keeps s₀ s) : Keeps s₀ (State.restoreWrite s v) := by
  unfold State.restoreWrite
  with_reducible repeat' (first
    | assumption | (intro _) | exact Keeps.refl _ | apply State.plainWrite_keeps | apply State.restoreGo_keeps
    | apply State.restoreRealign_keeps | apply State.restoreAccept_keeps | apply keeps_opt | apply keeps_opt'
    | apply keeps_ite | (split) | dsimp only | (refine Keeps.mk_upd ?_ rfl rfl))

theorem State.msixWrite_keeps {s : State} (off v : Nat) (h : Keeps s₀ s) : Keeps s₀ (State.msixWrite s off v) := by
  unfold State.msixWrite
  with_reducible repeat' (first
    | assumption | (intro _) | exact Keeps.refl _ | apply State.plainWrite_keeps | apply State.raiseVector_keeps
    | apply State.fset_keeps | apply keeps_opt | apply keeps_opt' | apply keeps_ite | (split) | dsimp only
    | (refine Keeps.mk_upd ?_ rfl rfl))

theorem State.doorbellWrite_keeps {s : State} (t q v : Nat) (h : Keeps s₀ s) : Keeps s₀ (State.doorbellWrite s t
    q v) := by
  unfold State.doorbellWrite
  with_reducible repeat' (first
    | assumption | (intro _) | exact Keeps.refl _ | apply State.doorbell_keeps | apply State.request_keeps
    | apply keeps_opt | apply keeps_opt' | apply keeps_ite | (split) | dsimp only | (refine Keeps.mk_upd ?_ rfl rfl))

theorem State.errCfgWrite_keeps {s : State} (v : Nat) (h : Keeps s₀ s) : Keeps s₀ (State.errCfgWrite s v) := by
  unfold State.errCfgWrite
  with_reducible repeat' (first
    | assumption | (intro _) | exact Keeps.refl _ | apply State.fset_keeps | apply keeps_opt | apply keeps_opt'
    | apply keeps_ite | (split) | dsimp only | (refine Keeps.mk_upd ?_ rfl rfl))

theorem State.tseqWrite_keeps {s : State} (t off v : Nat) (h : Keeps s₀ s) : Keeps s₀ (State.tseqWrite s t off
    v) := by
  unfold State.tseqWrite
  with_reducible repeat' (first
    | assumption | (intro _) | exact Keeps.refl _ | apply State.plainWrite_keeps | apply State.ctrlIgnored_keeps
    | apply State.setSem_keeps | apply State.writeQCtrl_keeps | apply State.doorbellWrite_keeps | apply keeps_opt
    | apply keeps_opt' | apply keeps_ite | (split) | dsimp only | (refine Keeps.mk_upd ?_ rfl rfl))

theorem State.snapWrite_keeps {s : State} (off v : Nat) (h : Keeps s₀ s) : Keeps s₀ (State.snapWrite s off v) := by
  unfold State.snapWrite
  with_reducible repeat' (first
    | assumption | (intro _) | exact Keeps.refl _ | apply State.ctrlIgnored_keeps | apply State.plainWrite_keeps
    | apply State.pairGo_keeps | apply State.releasePin_keeps | apply State.restoreWrite_keeps
    | apply State.lostClr_keeps | apply keeps_opt | apply keeps_opt' | apply keeps_ite | (split) | dsimp only
    | (refine Keeps.mk_upd ?_ rfl rfl))

theorem State.wordWrite_keeps {s : State} (go : State → State) (port : Port) (ty : PageType) (i off v : Nat) (h
    : Keeps s₀ s) (hgo : ∀ x, Keeps s₀ x → Keeps s₀ (go x)) : Keeps s₀ (State.wordWrite s go port ty i off v) := by
  unfold State.wordWrite
  with_reducible repeat' (first
    | assumption | (intro _) | exact Keeps.refl _ | apply State.ctrlWrite_keeps | apply State.evtEnWrite_keeps
    | apply State.censusGo_keeps | apply State.ackErrors_keeps | apply State.errCfgWrite_keeps
    | apply State.popEntry_keeps | apply State.fatal_keeps | apply State.svcWrite_keeps
    | apply State.svcEnWrite_keeps | apply State.plainWrite_keeps | apply State.dbgRequest_keeps
    | apply State.dbgSubmit_keeps | apply State.powerReq_keeps | apply State.capWrite_keeps
    | apply State.tclkWrite_keeps | apply State.flashGo_keeps | apply State.snapWrite_keeps
    | apply State.ctrlIgnored_keeps | apply State.replayStart_keeps | apply State.endVerify_keeps
    | apply State.tseqWrite_keeps | apply State.setDraw_keeps | apply State.event_keeps
    | apply State.watchWrite_keeps | apply State.selectClass_keeps | apply State.combWrite_keeps
    | apply State.noteShutters_keeps | apply State.meshCtrlWrite_keeps | apply State.meshCodeWrite_keeps
    | apply State.linkOptWrite_keeps | apply State.groupLoad_keeps | apply State.planGo_keeps
    | apply State.chWrite_keeps | apply State.msixWrite_keeps | apply keeps_opt | apply keeps_opt' | apply keeps_ite
    | apply keeps_foldl | apply hgo | (split) | dsimp only | (refine Keeps.mk_upd ?_ rfl rfl))

theorem State.pairWrite_keeps {s : State} (ty : PageType) (i low lo hi : Nat) (h : Keeps s₀ s) : Keeps s₀
    (State.pairWrite s ty i low lo hi) := by
  unfold State.pairWrite
  with_reducible repeat' (first
    | assumption | (intro _) | exact Keeps.refl _ | apply State.plainPair_keeps | apply State.ctrlIgnored_keeps
    | apply State.tileIgnored_keeps | apply keeps_opt | apply keeps_opt' | apply keeps_ite | (split) | dsimp only
    | (refine Keeps.mk_upd ?_ rfl rfl))

theorem State.pageWrite_keeps {s : State} (go : State → State) (port : Port) (ty : PageType) (i off v : Nat) (h
    : Keeps s₀ s) (hgo : ∀ x, Keeps s₀ x → Keeps s₀ (go x)) : Keeps s₀ (State.pageWrite s go port ty i off v) := by
  unfold State.pageWrite
  with_reducible repeat' (first
    | assumption | (intro _) | exact Keeps.refl _ | apply State.ctrlIgnored_keeps | apply State.errEvent_keeps
    | apply State.setStaged_keeps | apply State.pairWrite_keeps | apply State.wordWrite_keeps | apply keeps_opt
    | apply keeps_opt' | apply keeps_ite | (split) | dsimp only | (refine Keeps.mk_upd ?_ rfl rfl))

theorem State.narrowWrite_keeps {s : State} (ty : PageType) (i off : Nat) (h : Keeps s₀ s) : Keeps s₀
    (State.narrowWrite s ty i off) := by
  unfold State.narrowWrite
  with_reducible repeat' (first
    | assumption | (intro _) | exact Keeps.refl _ | apply State.ctrlIgnored_keeps | apply keeps_opt
    | apply keeps_opt' | apply keeps_ite | (split) | dsimp only | (refine Keeps.mk_upd ?_ rfl rfl))

theorem State.readEffect_keeps {s : State} (port : Port) (ty : PageType) (i off : Nat) (h : Keeps s₀ s) : Keeps
    s₀ (State.readEffect s port ty i off) := by
  unfold State.readEffect
  with_reducible repeat' (first
    | assumption | (intro _) | exact Keeps.refl _ | apply State.setReg_keeps | apply State.setPairLatch_keeps
    | apply State.fset_keeps | apply State.addWrap_keeps | apply keeps_opt | apply keeps_opt' | apply keeps_ite
    | apply keeps_ite_fst | apply keeps_foldl_fst | (split) | dsimp only | (refine Keeps.mk_upd ?_ rfl rfl))

theorem State.pageRead_keeps {s : State} (port : Port) (ty : PageType) (i off : Nat) (h : Keeps s₀ s) : Keeps s₀
    (State.pageRead s port ty i off).1 := by
  unfold State.pageRead
  with_reducible repeat' (first
    | assumption | (intro _) | exact Keeps.refl _ | apply State.latchEntry_keeps | apply State.readWord_keeps
    | apply State.setPairLatch_keeps | apply State.readEffect_keeps | apply keeps_opt | apply keeps_opt'
    | apply keeps_ite | apply keeps_ite_fst | apply keeps_foldl_fst | (split) | dsimp only
    | (refine Keeps.mk_upd ?_ rfl rfl))

theorem State.pushWait_keeps {s : State} (port : Port) (mbx : Bool) (page off n : Nat) (v : Option Word) (h :
    Keeps s₀ s) : Keeps s₀ (State.pushWait s port mbx page off n v) := by
  unfold State.pushWait
  with_reducible repeat' (first
    | assumption | (intro _) | exact Keeps.refl _ | dsimp only | (refine Keeps.mk_upd ?_ rfl rfl))

theorem State.pushMem_keeps {s : State} (m : MemAcc) (h : Keeps s₀ s) : Keeps s₀ (State.pushMem s m) := by
  unfold State.pushMem
  with_reducible repeat' (first
    | assumption | (intro _) | exact Keeps.refl _ | dsimp only | (refine Keeps.mk_upd ?_ rfl rfl))

theorem State.epWrite_keeps {s : State} (a n : Nat) (h : Keeps s₀ s) : Keeps s₀ (State.epWrite s a n) := by
  unfold State.epWrite
  with_reducible repeat' (first
    | assumption | (intro _) | exact Keeps.refl _ | apply State.errEvent_keeps | apply State.count_keeps
    | apply State.store_keeps | (split) | dsimp only | (refine Keeps.mk_upd ?_ rfl rfl))

theorem State.memWrite_keeps {s : State} (a : Nat) (bytes : List Nat) (ep : Bool) (h : Keeps s₀ s) : Keeps s₀
    (State.memWrite s a bytes ep) := by
  unfold State.memWrite
  with_reducible repeat' (first
    | assumption | (intro _) | exact Keeps.refl _ | apply State.crossFabric_keeps | apply State.stackBytes_keeps
    | apply State.epWrite_keeps | apply State.store_keeps | apply keeps_opt | apply keeps_opt' | apply keeps_ite
    | apply keeps_ite_fst | apply keeps_foldl_fst | (split) | dsimp only | (refine Keeps.mk_upd ?_ rfl rfl))

theorem State.memRead_keeps {s : State} (a n : Nat) (h : Keeps s₀ s) : Keeps s₀ (State.memRead s a n) := by
  unfold State.memRead
  with_reducible repeat' (first
    | assumption | (intro _) | exact Keeps.refl _ | apply State.hubTouch_keeps | apply State.count_keeps
    | apply State.emit_keeps | apply keeps_opt | apply keeps_opt' | apply keeps_ite | (split) | dsimp only
    | (refine Keeps.mk_upd ?_ rfl rfl))

theorem State.memServe_keeps {s : State} (m : MemAcc) (h : Keeps s₀ s) : Keeps s₀ (State.memServe s m) := by
  unfold State.memServe
  with_reducible repeat' (first
    | assumption | (intro _) | exact Keeps.refl _ | apply State.memWrite_keeps | apply State.memRead_keeps | (split)
    | dsimp only | (refine Keeps.mk_upd ?_ rfl rfl))

theorem State.putWords_keeps {s : State} (off : Nat) (x2 : List Word) (h : Keeps s₀ s) : Keeps s₀
    (State.putWords s off x2) := by
  induction x2 generalizing s off with
  | nil => exact h
  | cons w r ih => exact ih _ (State.setReg_keeps _ _ _ h)

theorem State.mbxEnd_keeps {s : State} (code : Nat) (ws : List Word) (h : Keeps s₀ s) : Keeps s₀ (State.mbxEnd s
    code ws) := by
  unfold State.mbxEnd
  with_reducible repeat' (first
    | assumption | (intro _) | exact Keeps.refl _ | apply State.fset_keeps | apply State.putWords_keeps
    | apply State.event_keeps | dsimp only | (refine Keeps.mk_upd ?_ rfl rfl))

theorem State.mgmtNak_keeps {s : State} (cmd code : Nat) (logged : Bool) (h : Keeps s₀ s) : Keeps s₀
    (State.mgmtNak s cmd code logged) := by
  unfold State.mgmtNak
  with_reducible repeat' (first
    | assumption | (intro _) | exact Keeps.refl _ | apply State.count_keeps | apply State.errEvent_keeps
    | apply State.emit_keeps | apply keeps_opt | apply keeps_opt' | apply keeps_ite | (split) | dsimp only
    | (refine Keeps.mk_upd ?_ rfl rfl))

theorem State.answer_keeps {s : State} (w : WaitAcc) (v : Word) (h : Keeps s₀ s) : Keeps s₀ (State.answer s w v) := by
  unfold State.answer
  with_reducible repeat' (first
    | assumption | (intro _) | exact Keeps.refl _ | apply State.emit_keeps | apply State.mbxEnd_keeps | (split)
    | dsimp only | (refine Keeps.mk_upd ?_ rfl rfl))

theorem State.answerTimeout_keeps {s : State} (w : WaitAcc) (h : Keeps s₀ s) : Keeps s₀ (State.answerTimeout s
    w) := by
  unfold State.answerTimeout
  with_reducible repeat' (first
    | assumption | (intro _) | exact Keeps.refl _ | apply State.mgmtNak_keeps | apply State.mbxEnd_keeps
    | apply State.emit_keeps | apply keeps_opt | apply keeps_opt' | apply keeps_ite | (split) | dsimp only
    | (refine Keeps.mk_upd ?_ rfl rfl))

theorem State.perform_keeps {s : State} (go : State → State) (w : WaitAcc) (h : Keeps s₀ s) (hgo : ∀ x, Keeps s₀
    x → Keeps s₀ (go x)) : Keeps s₀ (State.perform s go w) := by
  unfold State.perform
  with_reducible repeat' (first
    | assumption | (intro _) | exact Keeps.refl _ | apply State.memServe_keeps | apply State.answer_keeps
    | apply State.pageWrite_keeps | apply State.narrowWrite_keeps | apply State.pageRead_keeps | apply keeps_opt
    | apply keeps_opt' | apply keeps_ite | apply keeps_ite_fst | apply keeps_foldl_fst | (split) | dsimp only
    | (refine Keeps.mk_upd ?_ rfl rfl))

theorem State.drainGo_keeps {s : State} (go : State → State) (port : Port) (x3 : Nat) (h : Keeps s₀ s) (hgo : ∀
    x, Keeps s₀ x → Keeps s₀ (go x)) : Keeps s₀ (State.drainGo s go port x3) := by
  induction x3 generalizing s with
  | zero => exact h
  | succ n ih =>
    unfold State.drainGo
    split
    · split
      · exact ih (State.perform_keeps _ _ (Keeps.mk_upd h rfl rfl) hgo)
      · exact h
    · exact h

theorem State.performNow_keeps {s : State} (go : State → State) (w : WaitAcc) (h : Keeps s₀ s) (hgo : ∀ x, Keeps
    s₀ x → Keeps s₀ (go x)) : Keeps s₀ (State.performNow s go w) := by
  unfold State.performNow
  with_reducible repeat' (first
    | assumption | (intro _) | exact Keeps.refl _ | apply State.perform_keeps | apply State.drainGo_keeps
    | apply keeps_opt | apply keeps_opt' | apply keeps_ite | (split) | dsimp only | (refine Keeps.mk_upd ?_ rfl rfl))

theorem State.access_keeps {s : State} (go : State → State) (port : Port) (mbx : Bool) (p off n : Nat) (v :
    Option Word) (h : Keeps s₀ s) (hgo : ∀ x, Keeps s₀ x → Keeps s₀ (go x)) : Keeps s₀ (State.access s go port
    mbx p off n v) := by
  unfold State.access
  with_reducible repeat' (first
    | assumption | (intro _) | exact Keeps.refl _ | apply State.answer_keeps | apply State.count_keeps
    | apply State.pushWait_keeps | apply State.fset_keeps | apply State.performNow_keeps | apply keeps_opt
    | apply keeps_opt' | apply keeps_ite | (split) | dsimp only | (refine Keeps.mk_upd ?_ rfl rfl))

theorem State.fwWrite_keeps {s : State} (a n : Nat) (h : Keeps s₀ s) : Keeps s₀ (State.fwWrite s a n).1 := by
  unfold State.fwWrite
  with_reducible repeat' (first
    | assumption | (intro _) | exact Keeps.refl _ | apply State.touchVia_keeps | apply State.fset_keeps
    | apply State.wearFlash_keeps | apply keeps_opt | apply keeps_opt' | apply keeps_ite | apply keeps_ite_fst
    | apply keeps_foldl_fst | (split) | dsimp only | (refine Keeps.mk_upd ?_ rfl rfl))

theorem State.clearValid_keeps {s : State} (h : Keeps s₀ s) : Keeps s₀ (State.clearValid s) := by
  unfold State.clearValid
  with_reducible repeat' (first
    | assumption | (intro _) | exact Keeps.refl _ | apply State.event_keeps | apply State.fset_keeps
    | apply State.untrain_keeps | apply State.planCoordLost_keeps | apply State.failClearing_keeps | apply keeps_opt
    | apply keeps_opt' | apply keeps_ite | (split) | dsimp only | (refine Keeps.mk_upd ?_ rfl rfl))

theorem State.readErr_keeps {s : State} (h : Keeps s₀ s) : Keeps s₀ (State.readErr s).1 := by
  unfold State.readErr
  with_reducible repeat' (first
    | assumption | (intro _) | exact Keeps.refl _ | apply State.latchEntry_keeps | apply State.popEntry_keeps
    | apply keeps_ite_fst | apply keeps_foldl_fst | (split) | dsimp only | (refine Keeps.mk_upd ?_ rfl rfl))

theorem State.runCmd_keeps {s : State} (go : State → State) (port : Port) (code : Nat) (as : List Nat) (h :
    Keeps s₀ s) (hgo : ∀ x, Keeps s₀ x → Keeps s₀ (go x)) : Keeps s₀ (State.runCmd s go port code as).1 := by
  unfold State.runCmd
  with_reducible repeat' (first
    | assumption | (intro _) | exact Keeps.refl _ | apply State.fset_keeps | apply State.event_keeps
    | apply State.clearValid_keeps | apply State.pageRead_keeps | apply State.access_keeps
    | apply State.powerReq_keeps | apply State.censusGo_keeps | apply State.readErr_keeps
    | apply State.ackErrors_keeps | apply State.moduleReset_keeps | apply State.fwWrite_keeps | apply keeps_opt
    | apply keeps_opt' | apply keeps_ite | apply keeps_ite_fst | apply keeps_foldl_fst | (split) | dsimp only
    | (refine Keeps.mk_upd ?_ rfl rfl))

theorem State.lockedCmdEvent_keeps {s : State} (f code : Nat) (as : List Nat) (h : Keeps s₀ s) : Keeps s₀
    (State.lockedCmdEvent s f code as) := by
  unfold State.lockedCmdEvent
  with_reducible repeat' (first
    | assumption | (intro _) | exact Keeps.refl _ | apply State.errEvent_keeps | apply keeps_opt | apply keeps_opt'
    | apply keeps_ite | (split) | dsimp only | (refine Keeps.mk_upd ?_ rfl rfl))

theorem State.hostMailbox_keeps {s : State} (h : Keeps s₀ s) : Keeps s₀ (State.hostMailbox s) := by
  unfold State.hostMailbox
  with_reducible repeat' (first
    | assumption | (intro _) | exact Keeps.refl _ | apply State.mbxEnd_keeps | apply State.lockedCmdEvent_keeps
    | apply State.runCmd_keeps | apply keeps_opt | apply keeps_opt' | apply keeps_ite | apply keeps_ite_fst
    | apply keeps_foldl_fst | apply keeps_id | (split) | dsimp only | (refine Keeps.mk_upd ?_ rfl rfl))

theorem State.mgmtMailbox_keeps {s : State} (code : Nat) (as : List Nat) (pecOk : Bool) (h : Keeps s₀ s) : Keeps
    s₀ (State.mgmtMailbox s code as pecOk) := by
  unfold State.mgmtMailbox
  with_reducible repeat' (first
    | assumption | (intro _) | exact Keeps.refl _ | apply State.errEvent_keeps | apply State.count_keeps
    | apply State.mgmtNak_keeps | apply State.lockedCmdEvent_keeps | apply State.runCmd_keeps
    | apply State.hostMailbox_keeps | apply State.emit_keeps | apply keeps_opt | apply keeps_opt' | apply keeps_ite
    | apply keeps_ite_fst | apply keeps_foldl_fst | (split) | dsimp only | (refine Keeps.mk_upd ?_ rfl rfl))

theorem State.writeWords_keeps {s : State} (port : Port) (p off v x5 : Nat) (h : Keeps s₀ s) : Keeps s₀
    (State.writeWords s port p off v x5) := by
  induction x5 generalizing s off v with
  | zero => exact h
  | succ n ih => exact ih _ _ (State.access_keeps _ _ _ _ _ _ _ h fun _ hx => State.hostMailbox_keeps hx)

theorem State.readWords_keeps {s : State} (port : Port) (p off x4 : Nat) (h : Keeps s₀ s) : Keeps s₀
    (State.readWords s port p off x4) := by
  induction x4 generalizing s off with
  | zero => exact h
  | succ n ih => exact ih _ (State.access_keeps _ _ _ _ _ _ _ h fun _ hx => State.hostMailbox_keeps hx)

theorem State.hostWrite_keeps {s : State} (port : Port) (p off n v : Nat) (h : Keeps s₀ s) : Keeps s₀
    (State.hostWrite s port p off n v) := by
  unfold State.hostWrite
  with_reducible repeat' (first
    | assumption | (intro _) | exact Keeps.refl _ | apply State.writeWords_keeps | apply State.access_keeps
    | apply State.hostMailbox_keeps | apply keeps_opt | apply keeps_opt' | apply keeps_ite | (split) | dsimp only
    | (refine Keeps.mk_upd ?_ rfl rfl))

theorem State.hostRead_keeps {s : State} (port : Port) (p off n : Nat) (h : Keeps s₀ s) : Keeps s₀
    (State.hostRead s port p off n) := by
  unfold State.hostRead
  with_reducible repeat' (first
    | assumption | (intro _) | exact Keeps.refl _ | apply State.readWords_keeps | apply State.access_keeps
    | apply State.hostMailbox_keeps | apply keeps_opt | apply keeps_opt' | apply keeps_ite | (split) | dsimp only
    | (refine Keeps.mk_upd ?_ rfl rfl))

theorem State.unitWrite_keeps {s : State} (port : Port) (ty : PageType) (i off v : Nat) (h : Keeps s₀ s) : Keeps
    s₀ (State.unitWrite s port ty i off v) := by
  unfold State.unitWrite
  with_reducible repeat' (first
    | assumption | (intro _) | exact Keeps.refl _ | apply State.hostWrite_keeps | apply keeps_opt | apply keeps_opt'
    | apply keeps_ite | (split) | dsimp only | (refine Keeps.mk_upd ?_ rfl rfl))

theorem State.drainPort_keeps {s : State} (port : Port) (n : Nat) (h : Keeps s₀ s) : Keeps s₀ (State.drainPort s
    port n) := by
  exact State.drainGo_keeps _ _ _ h fun _ hx => State.hostMailbox_keeps hx

theorem State.rangerCommand_keeps {s : State} (port : Port) (pecOk : Bool) (code : Nat) (as : List Nat) (h :
    Keeps s₀ s) : Keeps s₀ (State.rangerCommand s port pecOk code as) := by
  unfold State.rangerCommand
  with_reducible repeat' (first
    | assumption | (intro _) | exact Keeps.refl _ | apply State.mgmtMailbox_keeps | apply State.hostWrite_keeps
    | apply keeps_foldl | (split) | dsimp only | (refine Keeps.mk_upd ?_ rfl rfl))

theorem State.idle_keeps {s : State} (h : Keeps s₀ s) : Keeps s₀ (State.idle s) := by
  unfold State.idle
  with_reducible repeat' (first
    | assumption | (intro _) | exact Keeps.refl _ | apply State.fset_keeps | apply State.tick_keeps
    | apply State.noteCarry_keeps | apply keeps_opt | apply keeps_opt' | apply keeps_ite | (split) | dsimp only
    | (refine Keeps.mk_upd ?_ rfl rfl))

theorem State.pcieHole_keeps {s : State} (a : Nat) (h : Keeps s₀ s) : Keeps s₀ (State.pcieHole s a) := by
  unfold State.pcieHole
  with_reducible repeat' (first
    | assumption | (intro _) | exact Keeps.refl _ | apply State.event_keeps | apply State.errEvent_keeps
    | apply State.count_keeps | dsimp only | (refine Keeps.mk_upd ?_ rfl rfl))

theorem State.hostMem_keeps {s : State} (m : MemAcc) (h : Keeps s₀ s) : Keeps s₀ (State.hostMem s m) := by
  unfold State.hostMem
  with_reducible repeat' (first
    | assumption | (intro _) | exact Keeps.refl _ | apply State.memServe_keeps | apply State.pushMem_keeps
    | apply keeps_opt | apply keeps_opt' | apply keeps_ite | (split) | dsimp only | (refine Keeps.mk_upd ?_ rfl rfl))

theorem State.pcieErrors_keeps {s : State} (n : Nat) (h : Keeps s₀ s) : Keeps s₀ (State.pcieErrors s n) := by
  unfold State.pcieErrors
  with_reducible repeat' (first
    | assumption | (intro _) | exact Keeps.refl _ | apply State.addFree_keeps | apply keeps_opt | apply keeps_opt'
    | apply keeps_ite | (split) | dsimp only | (refine Keeps.mk_upd ?_ rfl rfl))

theorem State.configAnswer_keeps {s : State} (x1 : ConfigReq) (h : Keeps s₀ s) : Keeps s₀ (State.configAnswer s
    x1) := by
  unfold State.configAnswer
  with_reducible repeat' (first
    | assumption | (intro _) | exact Keeps.refl _ | apply State.useFree_keeps | apply State.emit_keeps
    | apply State.fset_keeps | apply keeps_opt | apply keeps_opt' | apply keeps_ite | (split) | dsimp only)

theorem State.unitRead_keeps {s : State} (port : Port) (ty : PageType) (i off : Nat) (h : Keeps s₀ s) : Keeps s₀
    (State.unitRead s port ty i off) := by
  unfold State.unitRead
  with_reducible repeat' (first
    | assumption | (intro _) | exact Keeps.refl _ | apply State.hostRead_keeps | apply keeps_opt | apply keeps_opt'
    | apply keeps_ite | (split) | dsimp only | (refine Keeps.mk_upd ?_ rfl rfl))

theorem State.setBits_keeps {s : State} (port : Port) (ty : PageType) (i : Nat) (f : Fd) (b : Nat) (h : Keeps s₀
    s) : Keeps s₀ (State.setBits s port ty i f b) := by
  unfold State.setBits
  with_reducible repeat' (first
    | assumption | (intro _) | exact Keeps.refl _ | apply State.unitWrite_keeps | dsimp only
    | (refine Keeps.mk_upd ?_ rfl rfl))

theorem State.unitPair_keeps {s : State} (port : Port) (ty : PageType) (i low v : Nat) (h : Keeps s₀ s) : Keeps
    s₀ (State.unitPair s port ty i low v) := by
  unfold State.unitPair
  with_reducible repeat' (first
    | assumption | (intro _) | exact Keeps.refl _ | apply State.unitWrite_keeps | dsimp only
    | (refine Keeps.mk_upd ?_ rfl rfl))

theorem State.ringWrite_keeps {s : State} (port : Port) (t q : Nat) (which : RingReg) (v : Nat) (h : Keeps s₀ s)
    : Keeps s₀ (State.ringWrite s port t q which v) := by
  unfold State.ringWrite
  with_reducible repeat' (first
    | assumption | (intro _) | exact Keeps.refl _ | apply State.unitPair_keeps | apply State.setBits_keeps | (split)
    | dsimp only | (refine Keeps.mk_upd ?_ rfl rfl))

theorem State.deadBlocks_keeps {s : State} (bs : List Nat) (h : Keeps s₀ s) : Keeps s₀ (State.deadBlocks s bs) := by
  unfold State.deadBlocks
  with_reducible repeat' (first
    | assumption | (intro _) | exact Keeps.refl _ | (split) | dsimp only | (refine Keeps.mk_upd ?_ rfl rfl))

theorem State.showVec_keeps {s : State} (t v : Nat) (h : Keeps s₀ s) : Keeps s₀ (State.showVec s t v) := by
  unfold State.showVec
  with_reducible repeat' (first
    | assumption | (intro _) | exact Keeps.refl _ | apply State.fset_keeps | dsimp only
    | (refine Keeps.mk_upd ?_ rfl rfl))

theorem vecApply_keeps {s : State} (o : Occ) (outs : List LaneOut) (h : Keeps s₀ s) : Keeps s₀ (vecApply s o
    outs) := by
  unfold vecApply
  with_reducible repeat' (first
    | assumption | (intro _) | exact Keeps.refl _ | apply State.showVec_keeps | apply State.store_keeps
    | apply State.watchAdd_keeps | apply State.mergeAmax_keeps | apply State.putOcc_keeps | apply keeps_opt
    | apply keeps_opt' | apply keeps_ite | apply keeps_foldl | (split) | dsimp only
    | (refine Keeps.mk_upd ?_ rfl rfl))

theorem State.runVec_keeps {s : State} (t op : Nat) (h : Keeps s₀ s) : Keeps s₀ (State.runVec s t op) := by
  unfold State.runVec
  with_reducible repeat' (first
    | assumption | (intro _) | exact Keeps.refl _ | apply vecApply_keeps | apply State.touchReads_keeps
    | apply keeps_opt | apply keeps_opt' | apply keeps_ite | (split) | dsimp only | (refine Keeps.mk_upd ?_ rfl rfl))

end Sys2Proof.Machine
end

