-- ==== Sys2Proof/Laws/State.lean ====
section
/-!
SUPPORT. What each shared update leaves alone: first the form of the state after it, then one lemma for each component
that it does not write.
-/
namespace Sys2Proof.Machine

@[simp] theorem State.setReg_pending (s : State) (page off : Nat) (v : Word) :
    (s.setReg page off v).pending = s.pending := by cases s; rfl
@[simp] theorem State.setReg_now (s : State) (page off : Nat) (v : Word) :
    (s.setReg page off v).now = s.now := by cases s; rfl
@[simp] theorem State.setReg_free (s : State) (page off : Nat) (v : Word) :
    (s.setReg page off v).free = s.free := by cases s; rfl
@[simp] theorem State.setReg_out (s : State) (page off : Nat) (v : Word) :
    (s.setReg page off v).out = s.out := by cases s; rfl
@[simp] theorem State.setReg_fuses (s : State) (page off : Nat) (v : Word) :
    (s.setReg page off v).fuses = s.fuses := by cases s; rfl
@[simp] theorem State.setReg_mem (s : State) (page off : Nat) (v : Word) :
    (s.setReg page off v).mem = s.mem := by cases s; rfl
@[simp] theorem State.setReg_seq (s : State) (page off : Nat) (v : Word) :
    (s.setReg page off v).seq = s.seq := by cases s; rfl
@[simp] theorem State.setReg_te (s : State) (page off : Nat) (v : Word) :
    (s.setReg page off v).te = s.te := by cases s; rfl
@[simp] theorem State.setReg_scale (s : State) (page off : Nat) (v : Word) :
    (s.setReg page off v).scale = s.scale := by cases s; rfl
@[simp] theorem State.setReg_err (s : State) (page off : Nat) (v : Word) :
    (s.setReg page off v).err = s.err := by cases s; rfl
@[simp] theorem State.setReg_coll (s : State) (page off : Nat) (v : Word) :
    (s.setReg page off v).coll = s.coll := by cases s; rfl
@[simp] theorem State.setReg_net (s : State) (page off : Nat) (v : Word) :
    (s.setReg page off v).net = s.net := by cases s; rfl
@[simp] theorem State.setReg_optics (s : State) (page off : Nat) (v : Word) :
    (s.setReg page off v).optics = s.optics := by cases s; rfl
@[simp] theorem State.setReg_snap (s : State) (page off : Nat) (v : Word) :
    (s.setReg page off v).snap = s.snap := by cases s; rfl
@[simp] theorem State.setReg_flash (s : State) (page off : Nat) (v : Word) :
    (s.setReg page off v).flash = s.flash := by cases s; rfl
@[simp] theorem State.setReg_pwr (s : State) (page off : Nat) (v : Word) :
    (s.setReg page off v).pwr = s.pwr := by cases s; rfl
@[simp] theorem State.setReg_host (s : State) (page off : Nat) (v : Word) :
    (s.setReg page off v).host = s.host := by cases s; rfl
@[simp] theorem State.setReg_svc (s : State) (page off : Nat) (v : Word) :
    (s.setReg page off v).svc = s.svc := by cases s; rfl
@[simp] theorem State.setReg_waits (s : State) (page off : Nat) (v : Word) :
    (s.setReg page off v).waits = s.waits := by cases s; rfl
@[simp] theorem State.setReg_woken (s : State) (page off : Nat) (v : Word) :
    (s.setReg page off v).woken = s.woken := by cases s; rfl

theorem State.fset_form (s : State) (page : Nat) (f : Fd) (v : Nat) :
    ∃ rf, s.fset page f v = { s with rf := rf } := by
  cases s; exact ⟨_, rfl⟩
@[simp] theorem State.fset_pending (s : State) (page : Nat) (f : Fd) (v : Nat) :
    (s.fset page f v).pending = s.pending := by
  obtain ⟨_, h⟩ := State.fset_form s page f v; rw [h]
@[simp] theorem State.fset_now (s : State) (page : Nat) (f : Fd) (v : Nat) : (s.fset page f v).now = s.now := by
  obtain ⟨_, h⟩ := State.fset_form s page f v; rw [h]
@[simp] theorem State.fset_free (s : State) (page : Nat) (f : Fd) (v : Nat) : (s.fset page f v).free = s.free := by
  obtain ⟨_, h⟩ := State.fset_form s page f v; rw [h]
@[simp] theorem State.fset_out (s : State) (page : Nat) (f : Fd) (v : Nat) : (s.fset page f v).out = s.out := by
  obtain ⟨_, h⟩ := State.fset_form s page f v; rw [h]
@[simp] theorem State.fset_fuses (s : State) (page : Nat) (f : Fd) (v : Nat) : (s.fset page f v).fuses = s.fuses := by
  obtain ⟨_, h⟩ := State.fset_form s page f v; rw [h]
@[simp] theorem State.fset_mem (s : State) (page : Nat) (f : Fd) (v : Nat) : (s.fset page f v).mem = s.mem := by
  obtain ⟨_, h⟩ := State.fset_form s page f v; rw [h]
@[simp] theorem State.fset_seq (s : State) (page : Nat) (f : Fd) (v : Nat) : (s.fset page f v).seq = s.seq := by
  obtain ⟨_, h⟩ := State.fset_form s page f v; rw [h]
@[simp] theorem State.fset_te (s : State) (page : Nat) (f : Fd) (v : Nat) : (s.fset page f v).te = s.te := by
  obtain ⟨_, h⟩ := State.fset_form s page f v; rw [h]
@[simp] theorem State.fset_scale (s : State) (page : Nat) (f : Fd) (v : Nat) : (s.fset page f v).scale = s.scale := by
  obtain ⟨_, h⟩ := State.fset_form s page f v; rw [h]
@[simp] theorem State.fset_err (s : State) (page : Nat) (f : Fd) (v : Nat) : (s.fset page f v).err = s.err := by
  obtain ⟨_, h⟩ := State.fset_form s page f v; rw [h]
@[simp] theorem State.fset_coll (s : State) (page : Nat) (f : Fd) (v : Nat) : (s.fset page f v).coll = s.coll := by
  obtain ⟨_, h⟩ := State.fset_form s page f v; rw [h]
@[simp] theorem State.fset_net (s : State) (page : Nat) (f : Fd) (v : Nat) : (s.fset page f v).net = s.net := by
  obtain ⟨_, h⟩ := State.fset_form s page f v; rw [h]
@[simp] theorem State.fset_optics (s : State) (page : Nat) (f : Fd) (v : Nat) :
    (s.fset page f v).optics = s.optics := by
  obtain ⟨_, h⟩ := State.fset_form s page f v; rw [h]
@[simp] theorem State.fset_snap (s : State) (page : Nat) (f : Fd) (v : Nat) : (s.fset page f v).snap = s.snap := by
  obtain ⟨_, h⟩ := State.fset_form s page f v; rw [h]
@[simp] theorem State.fset_flash (s : State) (page : Nat) (f : Fd) (v : Nat) : (s.fset page f v).flash = s.flash := by
  obtain ⟨_, h⟩ := State.fset_form s page f v; rw [h]
@[simp] theorem State.fset_pwr (s : State) (page : Nat) (f : Fd) (v : Nat) : (s.fset page f v).pwr = s.pwr := by
  obtain ⟨_, h⟩ := State.fset_form s page f v; rw [h]
@[simp] theorem State.fset_host (s : State) (page : Nat) (f : Fd) (v : Nat) : (s.fset page f v).host = s.host := by
  obtain ⟨_, h⟩ := State.fset_form s page f v; rw [h]
@[simp] theorem State.fset_svc (s : State) (page : Nat) (f : Fd) (v : Nat) : (s.fset page f v).svc = s.svc := by
  obtain ⟨_, h⟩ := State.fset_form s page f v; rw [h]
@[simp] theorem State.fset_waits (s : State) (page : Nat) (f : Fd) (v : Nat) : (s.fset page f v).waits = s.waits := by
  obtain ⟨_, h⟩ := State.fset_form s page f v; rw [h]
@[simp] theorem State.fset_woken (s : State) (page : Nat) (f : Fd) (v : Nat) : (s.fset page f v).woken = s.woken := by
  obtain ⟨_, h⟩ := State.fset_form s page f v; rw [h]

@[simp] theorem State.setPair_pending (s : State) (page : Nat) (f : Fd) (v : Nat) :
    (s.setPair page f v).pending = s.pending := by cases s; rfl
@[simp] theorem State.setPair_now (s : State) (page : Nat) (f : Fd) (v : Nat) :
    (s.setPair page f v).now = s.now := by cases s; rfl
@[simp] theorem State.setPair_free (s : State) (page : Nat) (f : Fd) (v : Nat) :
    (s.setPair page f v).free = s.free := by cases s; rfl
@[simp] theorem State.setPair_out (s : State) (page : Nat) (f : Fd) (v : Nat) :
    (s.setPair page f v).out = s.out := by cases s; rfl
@[simp] theorem State.setPair_fuses (s : State) (page : Nat) (f : Fd) (v : Nat) :
    (s.setPair page f v).fuses = s.fuses := by cases s; rfl
@[simp] theorem State.setPair_mem (s : State) (page : Nat) (f : Fd) (v : Nat) :
    (s.setPair page f v).mem = s.mem := by cases s; rfl
@[simp] theorem State.setPair_seq (s : State) (page : Nat) (f : Fd) (v : Nat) :
    (s.setPair page f v).seq = s.seq := by cases s; rfl
@[simp] theorem State.setPair_te (s : State) (page : Nat) (f : Fd) (v : Nat) :
    (s.setPair page f v).te = s.te := by cases s; rfl
@[simp] theorem State.setPair_scale (s : State) (page : Nat) (f : Fd) (v : Nat) :
    (s.setPair page f v).scale = s.scale := by cases s; rfl
@[simp] theorem State.setPair_err (s : State) (page : Nat) (f : Fd) (v : Nat) :
    (s.setPair page f v).err = s.err := by cases s; rfl
@[simp] theorem State.setPair_coll (s : State) (page : Nat) (f : Fd) (v : Nat) :
    (s.setPair page f v).coll = s.coll := by cases s; rfl
@[simp] theorem State.setPair_net (s : State) (page : Nat) (f : Fd) (v : Nat) :
    (s.setPair page f v).net = s.net := by cases s; rfl
@[simp] theorem State.setPair_optics (s : State) (page : Nat) (f : Fd) (v : Nat) :
    (s.setPair page f v).optics = s.optics := by cases s; rfl
@[simp] theorem State.setPair_snap (s : State) (page : Nat) (f : Fd) (v : Nat) :
    (s.setPair page f v).snap = s.snap := by cases s; rfl
@[simp] theorem State.setPair_flash (s : State) (page : Nat) (f : Fd) (v : Nat) :
    (s.setPair page f v).flash = s.flash := by cases s; rfl
@[simp] theorem State.setPair_pwr (s : State) (page : Nat) (f : Fd) (v : Nat) :
    (s.setPair page f v).pwr = s.pwr := by cases s; rfl
@[simp] theorem State.setPair_host (s : State) (page : Nat) (f : Fd) (v : Nat) :
    (s.setPair page f v).host = s.host := by cases s; rfl
@[simp] theorem State.setPair_svc (s : State) (page : Nat) (f : Fd) (v : Nat) :
    (s.setPair page f v).svc = s.svc := by cases s; rfl
@[simp] theorem State.setPair_waits (s : State) (page : Nat) (f : Fd) (v : Nat) :
    (s.setPair page f v).waits = s.waits := by cases s; rfl
@[simp] theorem State.setPair_woken (s : State) (page : Nat) (f : Fd) (v : Nat) :
    (s.setPair page f v).woken = s.woken := by cases s; rfl

@[simp] theorem State.useFree_pending (s : State) : (s.useFree).pending = s.pending := by cases s; rfl
@[simp] theorem State.useFree_now (s : State) : (s.useFree).now = s.now := by cases s; rfl
@[simp] theorem State.useFree_out (s : State) : (s.useFree).out = s.out := by cases s; rfl
@[simp] theorem State.useFree_fuses (s : State) : (s.useFree).fuses = s.fuses := by cases s; rfl
@[simp] theorem State.useFree_rf (s : State) : (s.useFree).rf = s.rf := by cases s; rfl
@[simp] theorem State.useFree_mem (s : State) : (s.useFree).mem = s.mem := by cases s; rfl
@[simp] theorem State.useFree_seq (s : State) : (s.useFree).seq = s.seq := by cases s; rfl
@[simp] theorem State.useFree_te (s : State) : (s.useFree).te = s.te := by cases s; rfl
@[simp] theorem State.useFree_scale (s : State) : (s.useFree).scale = s.scale := by cases s; rfl
@[simp] theorem State.useFree_err (s : State) : (s.useFree).err = s.err := by cases s; rfl
@[simp] theorem State.useFree_coll (s : State) : (s.useFree).coll = s.coll := by cases s; rfl
@[simp] theorem State.useFree_net (s : State) : (s.useFree).net = s.net := by cases s; rfl
@[simp] theorem State.useFree_optics (s : State) : (s.useFree).optics = s.optics := by cases s; rfl
@[simp] theorem State.useFree_snap (s : State) : (s.useFree).snap = s.snap := by cases s; rfl
@[simp] theorem State.useFree_flash (s : State) : (s.useFree).flash = s.flash := by cases s; rfl
@[simp] theorem State.useFree_pwr (s : State) : (s.useFree).pwr = s.pwr := by cases s; rfl
@[simp] theorem State.useFree_host (s : State) : (s.useFree).host = s.host := by cases s; rfl
@[simp] theorem State.useFree_svc (s : State) : (s.useFree).svc = s.svc := by cases s; rfl
@[simp] theorem State.useFree_waits (s : State) : (s.useFree).waits = s.waits := by cases s; rfl
@[simp] theorem State.useFree_woken (s : State) : (s.useFree).woken = s.woken := by cases s; rfl

@[simp] theorem State.addWrap_pending (s : State) (page : Nat) (f : Fd) (n : Nat) :
    (s.addWrap page f n).pending = s.pending := by cases s; rfl
@[simp] theorem State.addWrap_now (s : State) (page : Nat) (f : Fd) (n : Nat) :
    (s.addWrap page f n).now = s.now := by cases s; rfl
@[simp] theorem State.addWrap_free (s : State) (page : Nat) (f : Fd) (n : Nat) :
    (s.addWrap page f n).free = s.free := by cases s; rfl
@[simp] theorem State.addWrap_out (s : State) (page : Nat) (f : Fd) (n : Nat) :
    (s.addWrap page f n).out = s.out := by cases s; rfl
@[simp] theorem State.addWrap_fuses (s : State) (page : Nat) (f : Fd) (n : Nat) :
    (s.addWrap page f n).fuses = s.fuses := by cases s; rfl
@[simp] theorem State.addWrap_mem (s : State) (page : Nat) (f : Fd) (n : Nat) :
    (s.addWrap page f n).mem = s.mem := by cases s; rfl
@[simp] theorem State.addWrap_seq (s : State) (page : Nat) (f : Fd) (n : Nat) :
    (s.addWrap page f n).seq = s.seq := by cases s; rfl
@[simp] theorem State.addWrap_te (s : State) (page : Nat) (f : Fd) (n : Nat) :
    (s.addWrap page f n).te = s.te := by cases s; rfl
@[simp] theorem State.addWrap_scale (s : State) (page : Nat) (f : Fd) (n : Nat) :
    (s.addWrap page f n).scale = s.scale := by cases s; rfl
@[simp] theorem State.addWrap_err (s : State) (page : Nat) (f : Fd) (n : Nat) :
    (s.addWrap page f n).err = s.err := by cases s; rfl
@[simp] theorem State.addWrap_coll (s : State) (page : Nat) (f : Fd) (n : Nat) :
    (s.addWrap page f n).coll = s.coll := by cases s; rfl
@[simp] theorem State.addWrap_net (s : State) (page : Nat) (f : Fd) (n : Nat) :
    (s.addWrap page f n).net = s.net := by cases s; rfl
@[simp] theorem State.addWrap_optics (s : State) (page : Nat) (f : Fd) (n : Nat) :
    (s.addWrap page f n).optics = s.optics := by cases s; rfl
@[simp] theorem State.addWrap_snap (s : State) (page : Nat) (f : Fd) (n : Nat) :
    (s.addWrap page f n).snap = s.snap := by cases s; rfl
@[simp] theorem State.addWrap_flash (s : State) (page : Nat) (f : Fd) (n : Nat) :
    (s.addWrap page f n).flash = s.flash := by cases s; rfl
@[simp] theorem State.addWrap_pwr (s : State) (page : Nat) (f : Fd) (n : Nat) :
    (s.addWrap page f n).pwr = s.pwr := by cases s; rfl
@[simp] theorem State.addWrap_host (s : State) (page : Nat) (f : Fd) (n : Nat) :
    (s.addWrap page f n).host = s.host := by cases s; rfl
@[simp] theorem State.addWrap_svc (s : State) (page : Nat) (f : Fd) (n : Nat) :
    (s.addWrap page f n).svc = s.svc := by cases s; rfl
@[simp] theorem State.addWrap_waits (s : State) (page : Nat) (f : Fd) (n : Nat) :
    (s.addWrap page f n).waits = s.waits := by cases s; rfl
@[simp] theorem State.addWrap_woken (s : State) (page : Nat) (f : Fd) (n : Nat) :
    (s.addWrap page f n).woken = s.woken := by cases s; rfl

@[simp] theorem State.addPair_pending (s : State) (page : Nat) (f : Fd) (n : Nat) :
    (s.addPair page f n).pending = s.pending := by cases s; rfl
@[simp] theorem State.addPair_now (s : State) (page : Nat) (f : Fd) (n : Nat) :
    (s.addPair page f n).now = s.now := by cases s; rfl
@[simp] theorem State.addPair_free (s : State) (page : Nat) (f : Fd) (n : Nat) :
    (s.addPair page f n).free = s.free := by cases s; rfl
@[simp] theorem State.addPair_out (s : State) (page : Nat) (f : Fd) (n : Nat) :
    (s.addPair page f n).out = s.out := by cases s; rfl
@[simp] theorem State.addPair_fuses (s : State) (page : Nat) (f : Fd) (n : Nat) :
    (s.addPair page f n).fuses = s.fuses := by cases s; rfl
@[simp] theorem State.addPair_mem (s : State) (page : Nat) (f : Fd) (n : Nat) :
    (s.addPair page f n).mem = s.mem := by cases s; rfl
@[simp] theorem State.addPair_seq (s : State) (page : Nat) (f : Fd) (n : Nat) :
    (s.addPair page f n).seq = s.seq := by cases s; rfl
@[simp] theorem State.addPair_te (s : State) (page : Nat) (f : Fd) (n : Nat) :
    (s.addPair page f n).te = s.te := by cases s; rfl
@[simp] theorem State.addPair_scale (s : State) (page : Nat) (f : Fd) (n : Nat) :
    (s.addPair page f n).scale = s.scale := by cases s; rfl
@[simp] theorem State.addPair_err (s : State) (page : Nat) (f : Fd) (n : Nat) :
    (s.addPair page f n).err = s.err := by cases s; rfl
@[simp] theorem State.addPair_coll (s : State) (page : Nat) (f : Fd) (n : Nat) :
    (s.addPair page f n).coll = s.coll := by cases s; rfl
@[simp] theorem State.addPair_net (s : State) (page : Nat) (f : Fd) (n : Nat) :
    (s.addPair page f n).net = s.net := by cases s; rfl
@[simp] theorem State.addPair_optics (s : State) (page : Nat) (f : Fd) (n : Nat) :
    (s.addPair page f n).optics = s.optics := by cases s; rfl
@[simp] theorem State.addPair_snap (s : State) (page : Nat) (f : Fd) (n : Nat) :
    (s.addPair page f n).snap = s.snap := by cases s; rfl
@[simp] theorem State.addPair_flash (s : State) (page : Nat) (f : Fd) (n : Nat) :
    (s.addPair page f n).flash = s.flash := by cases s; rfl
@[simp] theorem State.addPair_pwr (s : State) (page : Nat) (f : Fd) (n : Nat) :
    (s.addPair page f n).pwr = s.pwr := by cases s; rfl
@[simp] theorem State.addPair_host (s : State) (page : Nat) (f : Fd) (n : Nat) :
    (s.addPair page f n).host = s.host := by cases s; rfl
@[simp] theorem State.addPair_svc (s : State) (page : Nat) (f : Fd) (n : Nat) :
    (s.addPair page f n).svc = s.svc := by cases s; rfl
@[simp] theorem State.addPair_waits (s : State) (page : Nat) (f : Fd) (n : Nat) :
    (s.addPair page f n).waits = s.waits := by cases s; rfl
@[simp] theorem State.addPair_woken (s : State) (page : Nat) (f : Fd) (n : Nat) :
    (s.addPair page f n).woken = s.woken := by cases s; rfl

@[simp] theorem State.addSat_pending (s : State) (page : Nat) (f : Fd) (n : Nat) :
    (s.addSat page f n).pending = s.pending := by cases s; rfl
@[simp] theorem State.addSat_now (s : State) (page : Nat) (f : Fd) (n : Nat) :
    (s.addSat page f n).now = s.now := by cases s; rfl
@[simp] theorem State.addSat_free (s : State) (page : Nat) (f : Fd) (n : Nat) :
    (s.addSat page f n).free = s.free := by cases s; rfl
@[simp] theorem State.addSat_out (s : State) (page : Nat) (f : Fd) (n : Nat) :
    (s.addSat page f n).out = s.out := by cases s; rfl
@[simp] theorem State.addSat_fuses (s : State) (page : Nat) (f : Fd) (n : Nat) :
    (s.addSat page f n).fuses = s.fuses := by cases s; rfl
@[simp] theorem State.addSat_mem (s : State) (page : Nat) (f : Fd) (n : Nat) :
    (s.addSat page f n).mem = s.mem := by cases s; rfl
@[simp] theorem State.addSat_seq (s : State) (page : Nat) (f : Fd) (n : Nat) :
    (s.addSat page f n).seq = s.seq := by cases s; rfl
@[simp] theorem State.addSat_te (s : State) (page : Nat) (f : Fd) (n : Nat) :
    (s.addSat page f n).te = s.te := by cases s; rfl
@[simp] theorem State.addSat_scale (s : State) (page : Nat) (f : Fd) (n : Nat) :
    (s.addSat page f n).scale = s.scale := by cases s; rfl
@[simp] theorem State.addSat_err (s : State) (page : Nat) (f : Fd) (n : Nat) :
    (s.addSat page f n).err = s.err := by cases s; rfl
@[simp] theorem State.addSat_coll (s : State) (page : Nat) (f : Fd) (n : Nat) :
    (s.addSat page f n).coll = s.coll := by cases s; rfl
@[simp] theorem State.addSat_net (s : State) (page : Nat) (f : Fd) (n : Nat) :
    (s.addSat page f n).net = s.net := by cases s; rfl
@[simp] theorem State.addSat_optics (s : State) (page : Nat) (f : Fd) (n : Nat) :
    (s.addSat page f n).optics = s.optics := by cases s; rfl
@[simp] theorem State.addSat_snap (s : State) (page : Nat) (f : Fd) (n : Nat) :
    (s.addSat page f n).snap = s.snap := by cases s; rfl
@[simp] theorem State.addSat_flash (s : State) (page : Nat) (f : Fd) (n : Nat) :
    (s.addSat page f n).flash = s.flash := by cases s; rfl
@[simp] theorem State.addSat_pwr (s : State) (page : Nat) (f : Fd) (n : Nat) :
    (s.addSat page f n).pwr = s.pwr := by cases s; rfl
@[simp] theorem State.addSat_host (s : State) (page : Nat) (f : Fd) (n : Nat) :
    (s.addSat page f n).host = s.host := by cases s; rfl
@[simp] theorem State.addSat_svc (s : State) (page : Nat) (f : Fd) (n : Nat) :
    (s.addSat page f n).svc = s.svc := by cases s; rfl
@[simp] theorem State.addSat_waits (s : State) (page : Nat) (f : Fd) (n : Nat) :
    (s.addSat page f n).waits = s.waits := by cases s; rfl
@[simp] theorem State.addSat_woken (s : State) (page : Nat) (f : Fd) (n : Nat) :
    (s.addSat page f n).woken = s.woken := by cases s; rfl

theorem State.addFree_form (s : State) (page : Nat) (f : Fd) (n : Nat) :
    ∃ free rf, s.addFree page f n = { s with free := free, rf := rf } := by
  unfold State.addFree
  split
  · cases s; exact ⟨_, _, rfl⟩
  · cases s; exact ⟨_, _, rfl⟩
@[simp] theorem State.addFree_pending (s : State) (page : Nat) (f : Fd) (n : Nat) :
    (s.addFree page f n).pending = s.pending := by
  obtain ⟨_, _, h⟩ := State.addFree_form s page f n; rw [h]
@[simp] theorem State.addFree_now (s : State) (page : Nat) (f : Fd) (n : Nat) : (s.addFree page f n).now = s.now := by
  obtain ⟨_, _, h⟩ := State.addFree_form s page f n; rw [h]
@[simp] theorem State.addFree_out (s : State) (page : Nat) (f : Fd) (n : Nat) : (s.addFree page f n).out = s.out := by
  obtain ⟨_, _, h⟩ := State.addFree_form s page f n; rw [h]
@[simp] theorem State.addFree_fuses (s : State) (page : Nat) (f : Fd) (n : Nat) :
    (s.addFree page f n).fuses = s.fuses := by
  obtain ⟨_, _, h⟩ := State.addFree_form s page f n; rw [h]
@[simp] theorem State.addFree_mem (s : State) (page : Nat) (f : Fd) (n : Nat) : (s.addFree page f n).mem = s.mem := by
  obtain ⟨_, _, h⟩ := State.addFree_form s page f n; rw [h]
@[simp] theorem State.addFree_seq (s : State) (page : Nat) (f : Fd) (n : Nat) : (s.addFree page f n).seq = s.seq := by
  obtain ⟨_, _, h⟩ := State.addFree_form s page f n; rw [h]
@[simp] theorem State.addFree_te (s : State) (page : Nat) (f : Fd) (n : Nat) : (s.addFree page f n).te = s.te := by
  obtain ⟨_, _, h⟩ := State.addFree_form s page f n; rw [h]
@[simp] theorem State.addFree_scale (s : State) (page : Nat) (f : Fd) (n : Nat) :
    (s.addFree page f n).scale = s.scale := by
  obtain ⟨_, _, h⟩ := State.addFree_form s page f n; rw [h]
@[simp] theorem State.addFree_err (s : State) (page : Nat) (f : Fd) (n : Nat) : (s.addFree page f n).err = s.err := by
  obtain ⟨_, _, h⟩ := State.addFree_form s page f n; rw [h]
@[simp] theorem State.addFree_coll (s : State) (page : Nat) (f : Fd) (n : Nat) :
    (s.addFree page f n).coll = s.coll := by
  obtain ⟨_, _, h⟩ := State.addFree_form s page f n; rw [h]
@[simp] theorem State.addFree_net (s : State) (page : Nat) (f : Fd) (n : Nat) : (s.addFree page f n).net = s.net := by
  obtain ⟨_, _, h⟩ := State.addFree_form s page f n; rw [h]
@[simp] theorem State.addFree_optics (s : State) (page : Nat) (f : Fd) (n : Nat) :
    (s.addFree page f n).optics = s.optics := by
  obtain ⟨_, _, h⟩ := State.addFree_form s page f n; rw [h]
@[simp] theorem State.addFree_snap (s : State) (page : Nat) (f : Fd) (n : Nat) :
    (s.addFree page f n).snap = s.snap := by
  obtain ⟨_, _, h⟩ := State.addFree_form s page f n; rw [h]
@[simp] theorem State.addFree_flash (s : State) (page : Nat) (f : Fd) (n : Nat) :
    (s.addFree page f n).flash = s.flash := by
  obtain ⟨_, _, h⟩ := State.addFree_form s page f n; rw [h]
@[simp] theorem State.addFree_pwr (s : State) (page : Nat) (f : Fd) (n : Nat) : (s.addFree page f n).pwr = s.pwr := by
  obtain ⟨_, _, h⟩ := State.addFree_form s page f n; rw [h]
@[simp] theorem State.addFree_host (s : State) (page : Nat) (f : Fd) (n : Nat) :
    (s.addFree page f n).host = s.host := by
  obtain ⟨_, _, h⟩ := State.addFree_form s page f n; rw [h]
@[simp] theorem State.addFree_svc (s : State) (page : Nat) (f : Fd) (n : Nat) : (s.addFree page f n).svc = s.svc := by
  obtain ⟨_, _, h⟩ := State.addFree_form s page f n; rw [h]
@[simp] theorem State.addFree_waits (s : State) (page : Nat) (f : Fd) (n : Nat) :
    (s.addFree page f n).waits = s.waits := by
  obtain ⟨_, _, h⟩ := State.addFree_form s page f n; rw [h]
@[simp] theorem State.addFree_woken (s : State) (page : Nat) (f : Fd) (n : Nat) :
    (s.addFree page f n).woken = s.woken := by
  obtain ⟨_, _, h⟩ := State.addFree_form s page f n; rw [h]

theorem State.count_form (s : State) (page : Nat) (f : Fd) :
    ∃ free rf, s.count page f = { s with free := free, rf := rf } :=
  State.addFree_form s page f 1
@[simp] theorem State.count_pending (s : State) (page : Nat) (f : Fd) : (s.count page f).pending = s.pending := by
  obtain ⟨_, _, h⟩ := State.count_form s page f; rw [h]
@[simp] theorem State.count_now (s : State) (page : Nat) (f : Fd) : (s.count page f).now = s.now := by
  obtain ⟨_, _, h⟩ := State.count_form s page f; rw [h]
@[simp] theorem State.count_out (s : State) (page : Nat) (f : Fd) : (s.count page f).out = s.out := by
  obtain ⟨_, _, h⟩ := State.count_form s page f; rw [h]
@[simp] theorem State.count_fuses (s : State) (page : Nat) (f : Fd) : (s.count page f).fuses = s.fuses := by
  obtain ⟨_, _, h⟩ := State.count_form s page f; rw [h]
@[simp] theorem State.count_mem (s : State) (page : Nat) (f : Fd) : (s.count page f).mem = s.mem := by
  obtain ⟨_, _, h⟩ := State.count_form s page f; rw [h]
@[simp] theorem State.count_seq (s : State) (page : Nat) (f : Fd) : (s.count page f).seq = s.seq := by
  obtain ⟨_, _, h⟩ := State.count_form s page f; rw [h]
@[simp] theorem State.count_te (s : State) (page : Nat) (f : Fd) : (s.count page f).te = s.te := by
  obtain ⟨_, _, h⟩ := State.count_form s page f; rw [h]
@[simp] theorem State.count_scale (s : State) (page : Nat) (f : Fd) : (s.count page f).scale = s.scale := by
  obtain ⟨_, _, h⟩ := State.count_form s page f; rw [h]
@[simp] theorem State.count_err (s : State) (page : Nat) (f : Fd) : (s.count page f).err = s.err := by
  obtain ⟨_, _, h⟩ := State.count_form s page f; rw [h]
@[simp] theorem State.count_coll (s : State) (page : Nat) (f : Fd) : (s.count page f).coll = s.coll := by
  obtain ⟨_, _, h⟩ := State.count_form s page f; rw [h]
@[simp] theorem State.count_net (s : State) (page : Nat) (f : Fd) : (s.count page f).net = s.net := by
  obtain ⟨_, _, h⟩ := State.count_form s page f; rw [h]
@[simp] theorem State.count_optics (s : State) (page : Nat) (f : Fd) : (s.count page f).optics = s.optics := by
  obtain ⟨_, _, h⟩ := State.count_form s page f; rw [h]
@[simp] theorem State.count_snap (s : State) (page : Nat) (f : Fd) : (s.count page f).snap = s.snap := by
  obtain ⟨_, _, h⟩ := State.count_form s page f; rw [h]
@[simp] theorem State.count_flash (s : State) (page : Nat) (f : Fd) : (s.count page f).flash = s.flash := by
  obtain ⟨_, _, h⟩ := State.count_form s page f; rw [h]
@[simp] theorem State.count_pwr (s : State) (page : Nat) (f : Fd) : (s.count page f).pwr = s.pwr := by
  obtain ⟨_, _, h⟩ := State.count_form s page f; rw [h]
@[simp] theorem State.count_host (s : State) (page : Nat) (f : Fd) : (s.count page f).host = s.host := by
  obtain ⟨_, _, h⟩ := State.count_form s page f; rw [h]
@[simp] theorem State.count_svc (s : State) (page : Nat) (f : Fd) : (s.count page f).svc = s.svc := by
  obtain ⟨_, _, h⟩ := State.count_form s page f; rw [h]
@[simp] theorem State.count_waits (s : State) (page : Nat) (f : Fd) : (s.count page f).waits = s.waits := by
  obtain ⟨_, _, h⟩ := State.count_form s page f; rw [h]
@[simp] theorem State.count_woken (s : State) (page : Nat) (f : Fd) : (s.count page f).woken = s.woken := by
  obtain ⟨_, _, h⟩ := State.count_form s page f; rw [h]

@[simp] theorem State.emit_pending (s : State) (o : Output) : (s.emit o).pending = s.pending := by cases s; rfl
@[simp] theorem State.emit_now (s : State) (o : Output) : (s.emit o).now = s.now := by cases s; rfl
@[simp] theorem State.emit_free (s : State) (o : Output) : (s.emit o).free = s.free := by cases s; rfl
@[simp] theorem State.emit_fuses (s : State) (o : Output) : (s.emit o).fuses = s.fuses := by cases s; rfl
@[simp] theorem State.emit_rf (s : State) (o : Output) : (s.emit o).rf = s.rf := by cases s; rfl
@[simp] theorem State.emit_mem (s : State) (o : Output) : (s.emit o).mem = s.mem := by cases s; rfl
@[simp] theorem State.emit_seq (s : State) (o : Output) : (s.emit o).seq = s.seq := by cases s; rfl
@[simp] theorem State.emit_te (s : State) (o : Output) : (s.emit o).te = s.te := by cases s; rfl
@[simp] theorem State.emit_scale (s : State) (o : Output) : (s.emit o).scale = s.scale := by cases s; rfl
@[simp] theorem State.emit_err (s : State) (o : Output) : (s.emit o).err = s.err := by cases s; rfl
@[simp] theorem State.emit_coll (s : State) (o : Output) : (s.emit o).coll = s.coll := by cases s; rfl
@[simp] theorem State.emit_net (s : State) (o : Output) : (s.emit o).net = s.net := by cases s; rfl
@[simp] theorem State.emit_optics (s : State) (o : Output) : (s.emit o).optics = s.optics := by cases s; rfl
@[simp] theorem State.emit_snap (s : State) (o : Output) : (s.emit o).snap = s.snap := by cases s; rfl
@[simp] theorem State.emit_flash (s : State) (o : Output) : (s.emit o).flash = s.flash := by cases s; rfl
@[simp] theorem State.emit_pwr (s : State) (o : Output) : (s.emit o).pwr = s.pwr := by cases s; rfl
@[simp] theorem State.emit_host (s : State) (o : Output) : (s.emit o).host = s.host := by cases s; rfl
@[simp] theorem State.emit_svc (s : State) (o : Output) : (s.emit o).svc = s.svc := by cases s; rfl
@[simp] theorem State.emit_waits (s : State) (o : Output) : (s.emit o).waits = s.waits := by cases s; rfl
@[simp] theorem State.emit_woken (s : State) (o : Output) : (s.emit o).woken = s.woken := by cases s; rfl

@[simp] theorem State.start_pending (s : State) : (s.start).pending = s.pending := by cases s; rfl
@[simp] theorem State.start_now (s : State) : (s.start).now = s.now := by cases s; rfl
@[simp] theorem State.start_free (s : State) : (s.start).free = s.free := by cases s; rfl
@[simp] theorem State.start_fuses (s : State) : (s.start).fuses = s.fuses := by cases s; rfl
@[simp] theorem State.start_rf (s : State) : (s.start).rf = s.rf := by cases s; rfl
@[simp] theorem State.start_mem (s : State) : (s.start).mem = s.mem := by cases s; rfl
@[simp] theorem State.start_seq (s : State) : (s.start).seq = s.seq := by cases s; rfl
@[simp] theorem State.start_te (s : State) : (s.start).te = s.te := by cases s; rfl
@[simp] theorem State.start_scale (s : State) : (s.start).scale = s.scale := by cases s; rfl
@[simp] theorem State.start_err (s : State) : (s.start).err = s.err := by cases s; rfl
@[simp] theorem State.start_coll (s : State) : (s.start).coll = s.coll := by cases s; rfl
@[simp] theorem State.start_net (s : State) : (s.start).net = s.net := by cases s; rfl
@[simp] theorem State.start_optics (s : State) : (s.start).optics = s.optics := by cases s; rfl
@[simp] theorem State.start_snap (s : State) : (s.start).snap = s.snap := by cases s; rfl
@[simp] theorem State.start_flash (s : State) : (s.start).flash = s.flash := by cases s; rfl
@[simp] theorem State.start_pwr (s : State) : (s.start).pwr = s.pwr := by cases s; rfl
@[simp] theorem State.start_host (s : State) : (s.start).host = s.host := by cases s; rfl
@[simp] theorem State.start_svc (s : State) : (s.start).svc = s.svc := by cases s; rfl
@[simp] theorem State.start_waits (s : State) : (s.start).waits = s.waits := by cases s; rfl
@[simp] theorem State.start_woken (s : State) : (s.start).woken = s.woken := by cases s; rfl

@[simp] theorem State.tick_pending (s : State) : (s.tick).pending = s.pending := by cases s; rfl
@[simp] theorem State.tick_free (s : State) : (s.tick).free = s.free := by cases s; rfl
@[simp] theorem State.tick_fuses (s : State) : (s.tick).fuses = s.fuses := by cases s; rfl
@[simp] theorem State.tick_rf (s : State) : (s.tick).rf = s.rf := by cases s; rfl
@[simp] theorem State.tick_mem (s : State) : (s.tick).mem = s.mem := by cases s; rfl
@[simp] theorem State.tick_seq (s : State) : (s.tick).seq = s.seq := by cases s; rfl
@[simp] theorem State.tick_te (s : State) : (s.tick).te = s.te := by cases s; rfl
@[simp] theorem State.tick_scale (s : State) : (s.tick).scale = s.scale := by cases s; rfl
@[simp] theorem State.tick_err (s : State) : (s.tick).err = s.err := by cases s; rfl
@[simp] theorem State.tick_coll (s : State) : (s.tick).coll = s.coll := by cases s; rfl
@[simp] theorem State.tick_net (s : State) : (s.tick).net = s.net := by cases s; rfl
@[simp] theorem State.tick_optics (s : State) : (s.tick).optics = s.optics := by cases s; rfl
@[simp] theorem State.tick_snap (s : State) : (s.tick).snap = s.snap := by cases s; rfl
@[simp] theorem State.tick_flash (s : State) : (s.tick).flash = s.flash := by cases s; rfl
@[simp] theorem State.tick_pwr (s : State) : (s.tick).pwr = s.pwr := by cases s; rfl
@[simp] theorem State.tick_host (s : State) : (s.tick).host = s.host := by cases s; rfl
@[simp] theorem State.tick_svc (s : State) : (s.tick).svc = s.svc := by cases s; rfl
@[simp] theorem State.tick_waits (s : State) : (s.tick).waits = s.waits := by cases s; rfl
@[simp] theorem State.tick_woken (s : State) : (s.tick).woken = s.woken := by cases s; rfl

theorem State.raiseVector_form (s : State) (v : Nat) :
    ∃ out rf, s.raiseVector v = { s with out := out, rf := rf } := by
  unfold State.raiseVector
  split
  · cases s; exact ⟨_, _, rfl⟩
  · cases s; exact ⟨_, _, rfl⟩
@[simp] theorem State.raiseVector_pending (s : State) (v : Nat) : (s.raiseVector v).pending = s.pending := by
  obtain ⟨_, _, h⟩ := State.raiseVector_form s v; rw [h]
@[simp] theorem State.raiseVector_now (s : State) (v : Nat) : (s.raiseVector v).now = s.now := by
  obtain ⟨_, _, h⟩ := State.raiseVector_form s v; rw [h]
@[simp] theorem State.raiseVector_free (s : State) (v : Nat) : (s.raiseVector v).free = s.free := by
  obtain ⟨_, _, h⟩ := State.raiseVector_form s v; rw [h]
@[simp] theorem State.raiseVector_fuses (s : State) (v : Nat) : (s.raiseVector v).fuses = s.fuses := by
  obtain ⟨_, _, h⟩ := State.raiseVector_form s v; rw [h]
@[simp] theorem State.raiseVector_mem (s : State) (v : Nat) : (s.raiseVector v).mem = s.mem := by
  obtain ⟨_, _, h⟩ := State.raiseVector_form s v; rw [h]
@[simp] theorem State.raiseVector_seq (s : State) (v : Nat) : (s.raiseVector v).seq = s.seq := by
  obtain ⟨_, _, h⟩ := State.raiseVector_form s v; rw [h]
@[simp] theorem State.raiseVector_te (s : State) (v : Nat) : (s.raiseVector v).te = s.te := by
  obtain ⟨_, _, h⟩ := State.raiseVector_form s v; rw [h]
@[simp] theorem State.raiseVector_scale (s : State) (v : Nat) : (s.raiseVector v).scale = s.scale := by
  obtain ⟨_, _, h⟩ := State.raiseVector_form s v; rw [h]
@[simp] theorem State.raiseVector_err (s : State) (v : Nat) : (s.raiseVector v).err = s.err := by
  obtain ⟨_, _, h⟩ := State.raiseVector_form s v; rw [h]
@[simp] theorem State.raiseVector_coll (s : State) (v : Nat) : (s.raiseVector v).coll = s.coll := by
  obtain ⟨_, _, h⟩ := State.raiseVector_form s v; rw [h]
@[simp] theorem State.raiseVector_net (s : State) (v : Nat) : (s.raiseVector v).net = s.net := by
  obtain ⟨_, _, h⟩ := State.raiseVector_form s v; rw [h]
@[simp] theorem State.raiseVector_optics (s : State) (v : Nat) : (s.raiseVector v).optics = s.optics := by
  obtain ⟨_, _, h⟩ := State.raiseVector_form s v; rw [h]
@[simp] theorem State.raiseVector_snap (s : State) (v : Nat) : (s.raiseVector v).snap = s.snap := by
  obtain ⟨_, _, h⟩ := State.raiseVector_form s v; rw [h]
@[simp] theorem State.raiseVector_flash (s : State) (v : Nat) : (s.raiseVector v).flash = s.flash := by
  obtain ⟨_, _, h⟩ := State.raiseVector_form s v; rw [h]
@[simp] theorem State.raiseVector_pwr (s : State) (v : Nat) : (s.raiseVector v).pwr = s.pwr := by
  obtain ⟨_, _, h⟩ := State.raiseVector_form s v; rw [h]
@[simp] theorem State.raiseVector_host (s : State) (v : Nat) : (s.raiseVector v).host = s.host := by
  obtain ⟨_, _, h⟩ := State.raiseVector_form s v; rw [h]
@[simp] theorem State.raiseVector_svc (s : State) (v : Nat) : (s.raiseVector v).svc = s.svc := by
  obtain ⟨_, _, h⟩ := State.raiseVector_form s v; rw [h]
@[simp] theorem State.raiseVector_waits (s : State) (v : Nat) : (s.raiseVector v).waits = s.waits := by
  obtain ⟨_, _, h⟩ := State.raiseVector_form s v; rw [h]
@[simp] theorem State.raiseVector_woken (s : State) (v : Nat) : (s.raiseVector v).woken = s.woken := by
  obtain ⟨_, _, h⟩ := State.raiseVector_form s v; rw [h]

theorem State.event_form (s : State) (ty : PageType) (i : Nat) (f : Fd) :
    ∃ out rf, s.event ty i f = { s with out := out, rf := rf } := by
  unfold State.event
  split
  · exact ⟨s.out, s.rf, rfl⟩
  · dsimp only
    obtain ⟨r, hr⟩ := State.fset_form s (pageNum ty i) f 1
    generalize s.fset (pageNum ty i) f 1 = u at hr ⊢
    split
    · obtain ⟨o, r', h⟩ := State.raiseVector_form u (ty.vector i)
      rw [h]; subst hr; exact ⟨o, r', rfl⟩
    · exact ⟨_, _, hr⟩
@[simp] theorem State.event_pending (s : State) (ty : PageType) (i : Nat) (f : Fd) :
    (s.event ty i f).pending = s.pending := by
  obtain ⟨_, _, h⟩ := State.event_form s ty i f; rw [h]
@[simp] theorem State.event_now (s : State) (ty : PageType) (i : Nat) (f : Fd) : (s.event ty i f).now = s.now := by
  obtain ⟨_, _, h⟩ := State.event_form s ty i f; rw [h]
@[simp] theorem State.event_free (s : State) (ty : PageType) (i : Nat) (f : Fd) : (s.event ty i f).free = s.free := by
  obtain ⟨_, _, h⟩ := State.event_form s ty i f; rw [h]
@[simp] theorem State.event_fuses (s : State) (ty : PageType) (i : Nat) (f : Fd) :
    (s.event ty i f).fuses = s.fuses := by
  obtain ⟨_, _, h⟩ := State.event_form s ty i f; rw [h]
@[simp] theorem State.event_mem (s : State) (ty : PageType) (i : Nat) (f : Fd) : (s.event ty i f).mem = s.mem := by
  obtain ⟨_, _, h⟩ := State.event_form s ty i f; rw [h]
@[simp] theorem State.event_seq (s : State) (ty : PageType) (i : Nat) (f : Fd) : (s.event ty i f).seq = s.seq := by
  obtain ⟨_, _, h⟩ := State.event_form s ty i f; rw [h]
@[simp] theorem State.event_te (s : State) (ty : PageType) (i : Nat) (f : Fd) : (s.event ty i f).te = s.te := by
  obtain ⟨_, _, h⟩ := State.event_form s ty i f; rw [h]
@[simp] theorem State.event_scale (s : State) (ty : PageType) (i : Nat) (f : Fd) :
    (s.event ty i f).scale = s.scale := by
  obtain ⟨_, _, h⟩ := State.event_form s ty i f; rw [h]
@[simp] theorem State.event_err (s : State) (ty : PageType) (i : Nat) (f : Fd) : (s.event ty i f).err = s.err := by
  obtain ⟨_, _, h⟩ := State.event_form s ty i f; rw [h]
@[simp] theorem State.event_coll (s : State) (ty : PageType) (i : Nat) (f : Fd) : (s.event ty i f).coll = s.coll := by
  obtain ⟨_, _, h⟩ := State.event_form s ty i f; rw [h]
@[simp] theorem State.event_net (s : State) (ty : PageType) (i : Nat) (f : Fd) : (s.event ty i f).net = s.net := by
  obtain ⟨_, _, h⟩ := State.event_form s ty i f; rw [h]
@[simp] theorem State.event_optics (s : State) (ty : PageType) (i : Nat) (f : Fd) :
    (s.event ty i f).optics = s.optics := by
  obtain ⟨_, _, h⟩ := State.event_form s ty i f; rw [h]
@[simp] theorem State.event_snap (s : State) (ty : PageType) (i : Nat) (f : Fd) : (s.event ty i f).snap = s.snap := by
  obtain ⟨_, _, h⟩ := State.event_form s ty i f; rw [h]
@[simp] theorem State.event_flash (s : State) (ty : PageType) (i : Nat) (f : Fd) :
    (s.event ty i f).flash = s.flash := by
  obtain ⟨_, _, h⟩ := State.event_form s ty i f; rw [h]
@[simp] theorem State.event_pwr (s : State) (ty : PageType) (i : Nat) (f : Fd) : (s.event ty i f).pwr = s.pwr := by
  obtain ⟨_, _, h⟩ := State.event_form s ty i f; rw [h]
@[simp] theorem State.event_host (s : State) (ty : PageType) (i : Nat) (f : Fd) : (s.event ty i f).host = s.host := by
  obtain ⟨_, _, h⟩ := State.event_form s ty i f; rw [h]
@[simp] theorem State.event_svc (s : State) (ty : PageType) (i : Nat) (f : Fd) : (s.event ty i f).svc = s.svc := by
  obtain ⟨_, _, h⟩ := State.event_form s ty i f; rw [h]
@[simp] theorem State.event_waits (s : State) (ty : PageType) (i : Nat) (f : Fd) :
    (s.event ty i f).waits = s.waits := by
  obtain ⟨_, _, h⟩ := State.event_form s ty i f; rw [h]
@[simp] theorem State.event_woken (s : State) (ty : PageType) (i : Nat) (f : Fd) :
    (s.event ty i f).woken = s.woken := by
  obtain ⟨_, _, h⟩ := State.event_form s ty i f; rw [h]

theorem State.svcEvent_form (s : State) (f : Fd) :
    ∃ out rf, s.svcEvent f = { s with out := out, rf := rf } := by
  unfold State.svcEvent
  split
  · exact ⟨s.out, s.rf, rfl⟩
  · dsimp only
    obtain ⟨r, hr⟩ := State.fset_form s 0 f 1
    generalize s.fset 0 f 1 = u at hr ⊢
    split
    · obtain ⟨o, r', h⟩ := State.raiseVector_form u 0
      rw [h]; subst hr; exact ⟨o, r', rfl⟩
    · exact ⟨_, _, hr⟩
@[simp] theorem State.svcEvent_pending (s : State) (f : Fd) : (s.svcEvent f).pending = s.pending := by
  obtain ⟨_, _, h⟩ := State.svcEvent_form s f; rw [h]
@[simp] theorem State.svcEvent_now (s : State) (f : Fd) : (s.svcEvent f).now = s.now := by
  obtain ⟨_, _, h⟩ := State.svcEvent_form s f; rw [h]
@[simp] theorem State.svcEvent_free (s : State) (f : Fd) : (s.svcEvent f).free = s.free := by
  obtain ⟨_, _, h⟩ := State.svcEvent_form s f; rw [h]
@[simp] theorem State.svcEvent_fuses (s : State) (f : Fd) : (s.svcEvent f).fuses = s.fuses := by
  obtain ⟨_, _, h⟩ := State.svcEvent_form s f; rw [h]
@[simp] theorem State.svcEvent_mem (s : State) (f : Fd) : (s.svcEvent f).mem = s.mem := by
  obtain ⟨_, _, h⟩ := State.svcEvent_form s f; rw [h]
@[simp] theorem State.svcEvent_seq (s : State) (f : Fd) : (s.svcEvent f).seq = s.seq := by
  obtain ⟨_, _, h⟩ := State.svcEvent_form s f; rw [h]
@[simp] theorem State.svcEvent_te (s : State) (f : Fd) : (s.svcEvent f).te = s.te := by
  obtain ⟨_, _, h⟩ := State.svcEvent_form s f; rw [h]
@[simp] theorem State.svcEvent_scale (s : State) (f : Fd) : (s.svcEvent f).scale = s.scale := by
  obtain ⟨_, _, h⟩ := State.svcEvent_form s f; rw [h]
@[simp] theorem State.svcEvent_err (s : State) (f : Fd) : (s.svcEvent f).err = s.err := by
  obtain ⟨_, _, h⟩ := State.svcEvent_form s f; rw [h]
@[simp] theorem State.svcEvent_coll (s : State) (f : Fd) : (s.svcEvent f).coll = s.coll := by
  obtain ⟨_, _, h⟩ := State.svcEvent_form s f; rw [h]
@[simp] theorem State.svcEvent_net (s : State) (f : Fd) : (s.svcEvent f).net = s.net := by
  obtain ⟨_, _, h⟩ := State.svcEvent_form s f; rw [h]
@[simp] theorem State.svcEvent_optics (s : State) (f : Fd) : (s.svcEvent f).optics = s.optics := by
  obtain ⟨_, _, h⟩ := State.svcEvent_form s f; rw [h]
@[simp] theorem State.svcEvent_snap (s : State) (f : Fd) : (s.svcEvent f).snap = s.snap := by
  obtain ⟨_, _, h⟩ := State.svcEvent_form s f; rw [h]
@[simp] theorem State.svcEvent_flash (s : State) (f : Fd) : (s.svcEvent f).flash = s.flash := by
  obtain ⟨_, _, h⟩ := State.svcEvent_form s f; rw [h]
@[simp] theorem State.svcEvent_pwr (s : State) (f : Fd) : (s.svcEvent f).pwr = s.pwr := by
  obtain ⟨_, _, h⟩ := State.svcEvent_form s f; rw [h]
@[simp] theorem State.svcEvent_host (s : State) (f : Fd) : (s.svcEvent f).host = s.host := by
  obtain ⟨_, _, h⟩ := State.svcEvent_form s f; rw [h]
@[simp] theorem State.svcEvent_svc (s : State) (f : Fd) : (s.svcEvent f).svc = s.svc := by
  obtain ⟨_, _, h⟩ := State.svcEvent_form s f; rw [h]
@[simp] theorem State.svcEvent_waits (s : State) (f : Fd) : (s.svcEvent f).waits = s.waits := by
  obtain ⟨_, _, h⟩ := State.svcEvent_form s f; rw [h]
@[simp] theorem State.svcEvent_woken (s : State) (f : Fd) : (s.svcEvent f).woken = s.woken := by
  obtain ⟨_, _, h⟩ := State.svcEvent_form s f; rw [h]

theorem State.eventIf_form (s : State) (c : Bool) (ty : PageType) (i : Nat) (f : Fd) :
    ∃ out rf, s.eventIf c ty i f = { s with out := out, rf := rf } := by
  unfold State.eventIf
  split
  · exact State.event_form s ty i f
  · cases s; exact ⟨_, _, rfl⟩
@[simp] theorem State.eventIf_pending (s : State) (c : Bool) (ty : PageType) (i : Nat) (f : Fd) :
    (s.eventIf c ty i f).pending = s.pending := by
  obtain ⟨_, _, h⟩ := State.eventIf_form s c ty i f; rw [h]
@[simp] theorem State.eventIf_now (s : State) (c : Bool) (ty : PageType) (i : Nat) (f : Fd) :
    (s.eventIf c ty i f).now = s.now := by
  obtain ⟨_, _, h⟩ := State.eventIf_form s c ty i f; rw [h]
@[simp] theorem State.eventIf_free (s : State) (c : Bool) (ty : PageType) (i : Nat) (f : Fd) :
    (s.eventIf c ty i f).free = s.free := by
  obtain ⟨_, _, h⟩ := State.eventIf_form s c ty i f; rw [h]
@[simp] theorem State.eventIf_fuses (s : State) (c : Bool) (ty : PageType) (i : Nat) (f : Fd) :
    (s.eventIf c ty i f).fuses = s.fuses := by
  obtain ⟨_, _, h⟩ := State.eventIf_form s c ty i f; rw [h]
@[simp] theorem State.eventIf_mem (s : State) (c : Bool) (ty : PageType) (i : Nat) (f : Fd) :
    (s.eventIf c ty i f).mem = s.mem := by
  obtain ⟨_, _, h⟩ := State.eventIf_form s c ty i f; rw [h]
@[simp] theorem State.eventIf_seq (s : State) (c : Bool) (ty : PageType) (i : Nat) (f : Fd) :
    (s.eventIf c ty i f).seq = s.seq := by
  obtain ⟨_, _, h⟩ := State.eventIf_form s c ty i f; rw [h]
@[simp] theorem State.eventIf_te (s : State) (c : Bool) (ty : PageType) (i : Nat) (f : Fd) :
    (s.eventIf c ty i f).te = s.te := by
  obtain ⟨_, _, h⟩ := State.eventIf_form s c ty i f; rw [h]
@[simp] theorem State.eventIf_scale (s : State) (c : Bool) (ty : PageType) (i : Nat) (f : Fd) :
    (s.eventIf c ty i f).scale = s.scale := by
  obtain ⟨_, _, h⟩ := State.eventIf_form s c ty i f; rw [h]
@[simp] theorem State.eventIf_err (s : State) (c : Bool) (ty : PageType) (i : Nat) (f : Fd) :
    (s.eventIf c ty i f).err = s.err := by
  obtain ⟨_, _, h⟩ := State.eventIf_form s c ty i f; rw [h]
@[simp] theorem State.eventIf_coll (s : State) (c : Bool) (ty : PageType) (i : Nat) (f : Fd) :
    (s.eventIf c ty i f).coll = s.coll := by
  obtain ⟨_, _, h⟩ := State.eventIf_form s c ty i f; rw [h]
@[simp] theorem State.eventIf_net (s : State) (c : Bool) (ty : PageType) (i : Nat) (f : Fd) :
    (s.eventIf c ty i f).net = s.net := by
  obtain ⟨_, _, h⟩ := State.eventIf_form s c ty i f; rw [h]
@[simp] theorem State.eventIf_optics (s : State) (c : Bool) (ty : PageType) (i : Nat) (f : Fd) :
    (s.eventIf c ty i f).optics = s.optics := by
  obtain ⟨_, _, h⟩ := State.eventIf_form s c ty i f; rw [h]
@[simp] theorem State.eventIf_snap (s : State) (c : Bool) (ty : PageType) (i : Nat) (f : Fd) :
    (s.eventIf c ty i f).snap = s.snap := by
  obtain ⟨_, _, h⟩ := State.eventIf_form s c ty i f; rw [h]
@[simp] theorem State.eventIf_flash (s : State) (c : Bool) (ty : PageType) (i : Nat) (f : Fd) :
    (s.eventIf c ty i f).flash = s.flash := by
  obtain ⟨_, _, h⟩ := State.eventIf_form s c ty i f; rw [h]
@[simp] theorem State.eventIf_pwr (s : State) (c : Bool) (ty : PageType) (i : Nat) (f : Fd) :
    (s.eventIf c ty i f).pwr = s.pwr := by
  obtain ⟨_, _, h⟩ := State.eventIf_form s c ty i f; rw [h]
@[simp] theorem State.eventIf_host (s : State) (c : Bool) (ty : PageType) (i : Nat) (f : Fd) :
    (s.eventIf c ty i f).host = s.host := by
  obtain ⟨_, _, h⟩ := State.eventIf_form s c ty i f; rw [h]
@[simp] theorem State.eventIf_svc (s : State) (c : Bool) (ty : PageType) (i : Nat) (f : Fd) :
    (s.eventIf c ty i f).svc = s.svc := by
  obtain ⟨_, _, h⟩ := State.eventIf_form s c ty i f; rw [h]
@[simp] theorem State.eventIf_waits (s : State) (c : Bool) (ty : PageType) (i : Nat) (f : Fd) :
    (s.eventIf c ty i f).waits = s.waits := by
  obtain ⟨_, _, h⟩ := State.eventIf_form s c ty i f; rw [h]
@[simp] theorem State.eventIf_woken (s : State) (c : Bool) (ty : PageType) (i : Nat) (f : Fd) :
    (s.eventIf c ty i f).woken = s.woken := by
  obtain ⟨_, _, h⟩ := State.eventIf_form s c ty i f; rw [h]

theorem State.countIf_form (s : State) (c : Bool) (page : Nat) (f : Fd) :
    ∃ free rf, s.countIf c page f = { s with free := free, rf := rf } := by
  unfold State.countIf
  split
  · exact State.count_form s page f
  · cases s; exact ⟨_, _, rfl⟩
@[simp] theorem State.countIf_pending (s : State) (c : Bool) (page : Nat) (f : Fd) :
    (s.countIf c page f).pending = s.pending := by
  obtain ⟨_, _, h⟩ := State.countIf_form s c page f; rw [h]
@[simp] theorem State.countIf_now (s : State) (c : Bool) (page : Nat) (f : Fd) :
    (s.countIf c page f).now = s.now := by
  obtain ⟨_, _, h⟩ := State.countIf_form s c page f; rw [h]
@[simp] theorem State.countIf_out (s : State) (c : Bool) (page : Nat) (f : Fd) :
    (s.countIf c page f).out = s.out := by
  obtain ⟨_, _, h⟩ := State.countIf_form s c page f; rw [h]
@[simp] theorem State.countIf_fuses (s : State) (c : Bool) (page : Nat) (f : Fd) :
    (s.countIf c page f).fuses = s.fuses := by
  obtain ⟨_, _, h⟩ := State.countIf_form s c page f; rw [h]
@[simp] theorem State.countIf_mem (s : State) (c : Bool) (page : Nat) (f : Fd) :
    (s.countIf c page f).mem = s.mem := by
  obtain ⟨_, _, h⟩ := State.countIf_form s c page f; rw [h]
@[simp] theorem State.countIf_seq (s : State) (c : Bool) (page : Nat) (f : Fd) :
    (s.countIf c page f).seq = s.seq := by
  obtain ⟨_, _, h⟩ := State.countIf_form s c page f; rw [h]
@[simp] theorem State.countIf_te (s : State) (c : Bool) (page : Nat) (f : Fd) : (s.countIf c page f).te = s.te := by
  obtain ⟨_, _, h⟩ := State.countIf_form s c page f; rw [h]
@[simp] theorem State.countIf_scale (s : State) (c : Bool) (page : Nat) (f : Fd) :
    (s.countIf c page f).scale = s.scale := by
  obtain ⟨_, _, h⟩ := State.countIf_form s c page f; rw [h]
@[simp] theorem State.countIf_err (s : State) (c : Bool) (page : Nat) (f : Fd) :
    (s.countIf c page f).err = s.err := by
  obtain ⟨_, _, h⟩ := State.countIf_form s c page f; rw [h]
@[simp] theorem State.countIf_coll (s : State) (c : Bool) (page : Nat) (f : Fd) :
    (s.countIf c page f).coll = s.coll := by
  obtain ⟨_, _, h⟩ := State.countIf_form s c page f; rw [h]
@[simp] theorem State.countIf_net (s : State) (c : Bool) (page : Nat) (f : Fd) :
    (s.countIf c page f).net = s.net := by
  obtain ⟨_, _, h⟩ := State.countIf_form s c page f; rw [h]
@[simp] theorem State.countIf_optics (s : State) (c : Bool) (page : Nat) (f : Fd) :
    (s.countIf c page f).optics = s.optics := by
  obtain ⟨_, _, h⟩ := State.countIf_form s c page f; rw [h]
@[simp] theorem State.countIf_snap (s : State) (c : Bool) (page : Nat) (f : Fd) :
    (s.countIf c page f).snap = s.snap := by
  obtain ⟨_, _, h⟩ := State.countIf_form s c page f; rw [h]
@[simp] theorem State.countIf_flash (s : State) (c : Bool) (page : Nat) (f : Fd) :
    (s.countIf c page f).flash = s.flash := by
  obtain ⟨_, _, h⟩ := State.countIf_form s c page f; rw [h]
@[simp] theorem State.countIf_pwr (s : State) (c : Bool) (page : Nat) (f : Fd) :
    (s.countIf c page f).pwr = s.pwr := by
  obtain ⟨_, _, h⟩ := State.countIf_form s c page f; rw [h]
@[simp] theorem State.countIf_host (s : State) (c : Bool) (page : Nat) (f : Fd) :
    (s.countIf c page f).host = s.host := by
  obtain ⟨_, _, h⟩ := State.countIf_form s c page f; rw [h]
@[simp] theorem State.countIf_svc (s : State) (c : Bool) (page : Nat) (f : Fd) :
    (s.countIf c page f).svc = s.svc := by
  obtain ⟨_, _, h⟩ := State.countIf_form s c page f; rw [h]
@[simp] theorem State.countIf_waits (s : State) (c : Bool) (page : Nat) (f : Fd) :
    (s.countIf c page f).waits = s.waits := by
  obtain ⟨_, _, h⟩ := State.countIf_form s c page f; rw [h]
@[simp] theorem State.countIf_woken (s : State) (c : Bool) (page : Nat) (f : Fd) :
    (s.countIf c page f).woken = s.woken := by
  obtain ⟨_, _, h⟩ := State.countIf_form s c page f; rw [h]

theorem State.pageErr_form (s : State) (ty : PageType) (i code : Nat) :
    ∃ rf, s.pageErr ty i code = { s with rf := rf } := by
  unfold State.pageErr
  dsimp only
  split
  · cases s; exact ⟨_, rfl⟩
  · split <;> (cases s; exact ⟨_, rfl⟩)
@[simp] theorem State.pageErr_pending (s : State) (ty : PageType) (i code : Nat) :
    (s.pageErr ty i code).pending = s.pending := by
  obtain ⟨_, h⟩ := State.pageErr_form s ty i code; rw [h]
@[simp] theorem State.pageErr_now (s : State) (ty : PageType) (i code : Nat) : (s.pageErr ty i code).now = s.now := by
  obtain ⟨_, h⟩ := State.pageErr_form s ty i code; rw [h]
@[simp] theorem State.pageErr_free (s : State) (ty : PageType) (i code : Nat) :
    (s.pageErr ty i code).free = s.free := by
  obtain ⟨_, h⟩ := State.pageErr_form s ty i code; rw [h]
@[simp] theorem State.pageErr_out (s : State) (ty : PageType) (i code : Nat) : (s.pageErr ty i code).out = s.out := by
  obtain ⟨_, h⟩ := State.pageErr_form s ty i code; rw [h]
@[simp] theorem State.pageErr_fuses (s : State) (ty : PageType) (i code : Nat) :
    (s.pageErr ty i code).fuses = s.fuses := by
  obtain ⟨_, h⟩ := State.pageErr_form s ty i code; rw [h]
@[simp] theorem State.pageErr_mem (s : State) (ty : PageType) (i code : Nat) : (s.pageErr ty i code).mem = s.mem := by
  obtain ⟨_, h⟩ := State.pageErr_form s ty i code; rw [h]
@[simp] theorem State.pageErr_seq (s : State) (ty : PageType) (i code : Nat) : (s.pageErr ty i code).seq = s.seq := by
  obtain ⟨_, h⟩ := State.pageErr_form s ty i code; rw [h]
@[simp] theorem State.pageErr_te (s : State) (ty : PageType) (i code : Nat) : (s.pageErr ty i code).te = s.te := by
  obtain ⟨_, h⟩ := State.pageErr_form s ty i code; rw [h]
@[simp] theorem State.pageErr_scale (s : State) (ty : PageType) (i code : Nat) :
    (s.pageErr ty i code).scale = s.scale := by
  obtain ⟨_, h⟩ := State.pageErr_form s ty i code; rw [h]
@[simp] theorem State.pageErr_err (s : State) (ty : PageType) (i code : Nat) : (s.pageErr ty i code).err = s.err := by
  obtain ⟨_, h⟩ := State.pageErr_form s ty i code; rw [h]
@[simp] theorem State.pageErr_coll (s : State) (ty : PageType) (i code : Nat) :
    (s.pageErr ty i code).coll = s.coll := by
  obtain ⟨_, h⟩ := State.pageErr_form s ty i code; rw [h]
@[simp] theorem State.pageErr_net (s : State) (ty : PageType) (i code : Nat) : (s.pageErr ty i code).net = s.net := by
  obtain ⟨_, h⟩ := State.pageErr_form s ty i code; rw [h]
@[simp] theorem State.pageErr_optics (s : State) (ty : PageType) (i code : Nat) :
    (s.pageErr ty i code).optics = s.optics := by
  obtain ⟨_, h⟩ := State.pageErr_form s ty i code; rw [h]
@[simp] theorem State.pageErr_snap (s : State) (ty : PageType) (i code : Nat) :
    (s.pageErr ty i code).snap = s.snap := by
  obtain ⟨_, h⟩ := State.pageErr_form s ty i code; rw [h]
@[simp] theorem State.pageErr_flash (s : State) (ty : PageType) (i code : Nat) :
    (s.pageErr ty i code).flash = s.flash := by
  obtain ⟨_, h⟩ := State.pageErr_form s ty i code; rw [h]
@[simp] theorem State.pageErr_pwr (s : State) (ty : PageType) (i code : Nat) : (s.pageErr ty i code).pwr = s.pwr := by
  obtain ⟨_, h⟩ := State.pageErr_form s ty i code; rw [h]
@[simp] theorem State.pageErr_host (s : State) (ty : PageType) (i code : Nat) :
    (s.pageErr ty i code).host = s.host := by
  obtain ⟨_, h⟩ := State.pageErr_form s ty i code; rw [h]
@[simp] theorem State.pageErr_svc (s : State) (ty : PageType) (i code : Nat) : (s.pageErr ty i code).svc = s.svc := by
  obtain ⟨_, h⟩ := State.pageErr_form s ty i code; rw [h]
@[simp] theorem State.pageErr_waits (s : State) (ty : PageType) (i code : Nat) :
    (s.pageErr ty i code).waits = s.waits := by
  obtain ⟨_, h⟩ := State.pageErr_form s ty i code; rw [h]
@[simp] theorem State.pageErr_woken (s : State) (ty : PageType) (i code : Nat) :
    (s.pageErr ty i code).woken = s.woken := by
  obtain ⟨_, h⟩ := State.pageErr_form s ty i code; rw [h]

theorem State.errSummary_form (s : State) (cls : Nat) :
    ∃ out rf err, s.errSummary cls = { s with out := out, rf := rf, err := err } := by
  unfold State.errSummary
  dsimp only
  obtain ⟨r1, h1⟩ := State.fset_form s 0 MODULE.ERR_SUM_sev (max (s.fget 0 MODULE.ERR_SUM_sev) cls)
  generalize s.fset 0 MODULE.ERR_SUM_sev (max (s.fget 0 MODULE.ERR_SUM_sev) cls) = u at h1 ⊢
  obtain ⟨r2, h2⟩ := State.fset_form u 0 MODULE.ERR_SUM_pend 1
  generalize u.fset 0 MODULE.ERR_SUM_pend 1 = v at h2 ⊢
  subst h1
  subst h2
  split
  · obtain ⟨o, r, h⟩ := State.raiseVector_form _ 0
    rw [h]
    split <;> exact ⟨_, _, _, rfl⟩
  · split <;> exact ⟨_, _, _, rfl⟩
@[simp] theorem State.errSummary_pending (s : State) (cls : Nat) : (s.errSummary cls).pending = s.pending := by
  obtain ⟨_, _, _, h⟩ := State.errSummary_form s cls; rw [h]
@[simp] theorem State.errSummary_now (s : State) (cls : Nat) : (s.errSummary cls).now = s.now := by
  obtain ⟨_, _, _, h⟩ := State.errSummary_form s cls; rw [h]
@[simp] theorem State.errSummary_free (s : State) (cls : Nat) : (s.errSummary cls).free = s.free := by
  obtain ⟨_, _, _, h⟩ := State.errSummary_form s cls; rw [h]
@[simp] theorem State.errSummary_fuses (s : State) (cls : Nat) : (s.errSummary cls).fuses = s.fuses := by
  obtain ⟨_, _, _, h⟩ := State.errSummary_form s cls; rw [h]
@[simp] theorem State.errSummary_mem (s : State) (cls : Nat) : (s.errSummary cls).mem = s.mem := by
  obtain ⟨_, _, _, h⟩ := State.errSummary_form s cls; rw [h]
@[simp] theorem State.errSummary_seq (s : State) (cls : Nat) : (s.errSummary cls).seq = s.seq := by
  obtain ⟨_, _, _, h⟩ := State.errSummary_form s cls; rw [h]
@[simp] theorem State.errSummary_te (s : State) (cls : Nat) : (s.errSummary cls).te = s.te := by
  obtain ⟨_, _, _, h⟩ := State.errSummary_form s cls; rw [h]
@[simp] theorem State.errSummary_scale (s : State) (cls : Nat) : (s.errSummary cls).scale = s.scale := by
  obtain ⟨_, _, _, h⟩ := State.errSummary_form s cls; rw [h]
@[simp] theorem State.errSummary_coll (s : State) (cls : Nat) : (s.errSummary cls).coll = s.coll := by
  obtain ⟨_, _, _, h⟩ := State.errSummary_form s cls; rw [h]
@[simp] theorem State.errSummary_net (s : State) (cls : Nat) : (s.errSummary cls).net = s.net := by
  obtain ⟨_, _, _, h⟩ := State.errSummary_form s cls; rw [h]
@[simp] theorem State.errSummary_optics (s : State) (cls : Nat) : (s.errSummary cls).optics = s.optics := by
  obtain ⟨_, _, _, h⟩ := State.errSummary_form s cls; rw [h]
@[simp] theorem State.errSummary_snap (s : State) (cls : Nat) : (s.errSummary cls).snap = s.snap := by
  obtain ⟨_, _, _, h⟩ := State.errSummary_form s cls; rw [h]
@[simp] theorem State.errSummary_flash (s : State) (cls : Nat) : (s.errSummary cls).flash = s.flash := by
  obtain ⟨_, _, _, h⟩ := State.errSummary_form s cls; rw [h]
@[simp] theorem State.errSummary_pwr (s : State) (cls : Nat) : (s.errSummary cls).pwr = s.pwr := by
  obtain ⟨_, _, _, h⟩ := State.errSummary_form s cls; rw [h]
@[simp] theorem State.errSummary_host (s : State) (cls : Nat) : (s.errSummary cls).host = s.host := by
  obtain ⟨_, _, _, h⟩ := State.errSummary_form s cls; rw [h]
@[simp] theorem State.errSummary_svc (s : State) (cls : Nat) : (s.errSummary cls).svc = s.svc := by
  obtain ⟨_, _, _, h⟩ := State.errSummary_form s cls; rw [h]
@[simp] theorem State.errSummary_waits (s : State) (cls : Nat) : (s.errSummary cls).waits = s.waits := by
  obtain ⟨_, _, _, h⟩ := State.errSummary_form s cls; rw [h]
@[simp] theorem State.errSummary_woken (s : State) (cls : Nat) : (s.errSummary cls).woken = s.woken := by
  obtain ⟨_, _, _, h⟩ := State.errSummary_form s cls; rw [h]

theorem State.errEvent_form (s : State) (ty : PageType) (i code detail rank : Nat) :
    ∃ free out rf err, s.errEvent ty i code detail rank = { s with free := free, out := out, rf := rf, err := err } := by
  unfold State.errEvent
  dsimp only
  obtain ⟨r, h⟩ := State.pageErr_form s ty i code
  rw [h]
  split
  · exact ⟨_, _, _, _, rfl⟩
  · split
    · obtain ⟨f2, r2, h2⟩ := State.count_form _ 0 MODULE.ERR_OVF_CNT_count
      rw [h2]
      obtain ⟨o3, r3, e3, h3⟩ := State.errSummary_form _ (errClass code)
      rw [h3]
      exact ⟨_, _, _, _, rfl⟩
    · obtain ⟨o3, r3, e3, h3⟩ := State.errSummary_form _ (errClass code)
      rw [h3]
      exact ⟨_, _, _, _, rfl⟩
@[simp] theorem State.errEvent_pending (s : State) (ty : PageType) (i code detail rank : Nat) :
    (s.errEvent ty i code detail rank).pending = s.pending := by
  obtain ⟨_, _, _, _, h⟩ := State.errEvent_form s ty i code detail rank; rw [h]
@[simp] theorem State.errEvent_now (s : State) (ty : PageType) (i code detail rank : Nat) :
    (s.errEvent ty i code detail rank).now = s.now := by
  obtain ⟨_, _, _, _, h⟩ := State.errEvent_form s ty i code detail rank; rw [h]
@[simp] theorem State.errEvent_fuses (s : State) (ty : PageType) (i code detail rank : Nat) :
    (s.errEvent ty i code detail rank).fuses = s.fuses := by
  obtain ⟨_, _, _, _, h⟩ := State.errEvent_form s ty i code detail rank; rw [h]
@[simp] theorem State.errEvent_mem (s : State) (ty : PageType) (i code detail rank : Nat) :
    (s.errEvent ty i code detail rank).mem = s.mem := by
  obtain ⟨_, _, _, _, h⟩ := State.errEvent_form s ty i code detail rank; rw [h]
@[simp] theorem State.errEvent_seq (s : State) (ty : PageType) (i code detail rank : Nat) :
    (s.errEvent ty i code detail rank).seq = s.seq := by
  obtain ⟨_, _, _, _, h⟩ := State.errEvent_form s ty i code detail rank; rw [h]
@[simp] theorem State.errEvent_te (s : State) (ty : PageType) (i code detail rank : Nat) :
    (s.errEvent ty i code detail rank).te = s.te := by
  obtain ⟨_, _, _, _, h⟩ := State.errEvent_form s ty i code detail rank; rw [h]
@[simp] theorem State.errEvent_scale (s : State) (ty : PageType) (i code detail rank : Nat) :
    (s.errEvent ty i code detail rank).scale = s.scale := by
  obtain ⟨_, _, _, _, h⟩ := State.errEvent_form s ty i code detail rank; rw [h]
@[simp] theorem State.errEvent_coll (s : State) (ty : PageType) (i code detail rank : Nat) :
    (s.errEvent ty i code detail rank).coll = s.coll := by
  obtain ⟨_, _, _, _, h⟩ := State.errEvent_form s ty i code detail rank; rw [h]
@[simp] theorem State.errEvent_net (s : State) (ty : PageType) (i code detail rank : Nat) :
    (s.errEvent ty i code detail rank).net = s.net := by
  obtain ⟨_, _, _, _, h⟩ := State.errEvent_form s ty i code detail rank; rw [h]
@[simp] theorem State.errEvent_optics (s : State) (ty : PageType) (i code detail rank : Nat) :
    (s.errEvent ty i code detail rank).optics = s.optics := by
  obtain ⟨_, _, _, _, h⟩ := State.errEvent_form s ty i code detail rank; rw [h]
@[simp] theorem State.errEvent_snap (s : State) (ty : PageType) (i code detail rank : Nat) :
    (s.errEvent ty i code detail rank).snap = s.snap := by
  obtain ⟨_, _, _, _, h⟩ := State.errEvent_form s ty i code detail rank; rw [h]
@[simp] theorem State.errEvent_flash (s : State) (ty : PageType) (i code detail rank : Nat) :
    (s.errEvent ty i code detail rank).flash = s.flash := by
  obtain ⟨_, _, _, _, h⟩ := State.errEvent_form s ty i code detail rank; rw [h]
@[simp] theorem State.errEvent_pwr (s : State) (ty : PageType) (i code detail rank : Nat) :
    (s.errEvent ty i code detail rank).pwr = s.pwr := by
  obtain ⟨_, _, _, _, h⟩ := State.errEvent_form s ty i code detail rank; rw [h]
@[simp] theorem State.errEvent_host (s : State) (ty : PageType) (i code detail rank : Nat) :
    (s.errEvent ty i code detail rank).host = s.host := by
  obtain ⟨_, _, _, _, h⟩ := State.errEvent_form s ty i code detail rank; rw [h]
@[simp] theorem State.errEvent_svc (s : State) (ty : PageType) (i code detail rank : Nat) :
    (s.errEvent ty i code detail rank).svc = s.svc := by
  obtain ⟨_, _, _, _, h⟩ := State.errEvent_form s ty i code detail rank; rw [h]
@[simp] theorem State.errEvent_waits (s : State) (ty : PageType) (i code detail rank : Nat) :
    (s.errEvent ty i code detail rank).waits = s.waits := by
  obtain ⟨_, _, _, _, h⟩ := State.errEvent_form s ty i code detail rank; rw [h]
@[simp] theorem State.errEvent_woken (s : State) (ty : PageType) (i code detail rank : Nat) :
    (s.errEvent ty i code detail rank).woken = s.woken := by
  obtain ⟨_, _, _, _, h⟩ := State.errEvent_form s ty i code detail rank; rw [h]

theorem State.ctrlIgnored_form (s : State) (ty : PageType) (i off : Nat) :
    ∃ free out rf err, s.ctrlIgnored ty i off = { s with free := free, out := out, rf := rf, err := err } := by
  unfold State.ctrlIgnored
  dsimp only
  obtain ⟨a, b, c, d, h⟩ := State.errEvent_form s ty i 0xB2 off 0
  rw [h]
  split
  · obtain ⟨o, r, h2⟩ := State.event_form _ ty i _
    rw [h2]
    exact ⟨_, _, _, _, rfl⟩
  · exact ⟨_, _, _, _, rfl⟩
@[simp] theorem State.ctrlIgnored_pending (s : State) (ty : PageType) (i off : Nat) :
    (s.ctrlIgnored ty i off).pending = s.pending := by
  obtain ⟨_, _, _, _, h⟩ := State.ctrlIgnored_form s ty i off; rw [h]
@[simp] theorem State.ctrlIgnored_now (s : State) (ty : PageType) (i off : Nat) :
    (s.ctrlIgnored ty i off).now = s.now := by
  obtain ⟨_, _, _, _, h⟩ := State.ctrlIgnored_form s ty i off; rw [h]
@[simp] theorem State.ctrlIgnored_fuses (s : State) (ty : PageType) (i off : Nat) :
    (s.ctrlIgnored ty i off).fuses = s.fuses := by
  obtain ⟨_, _, _, _, h⟩ := State.ctrlIgnored_form s ty i off; rw [h]
@[simp] theorem State.ctrlIgnored_mem (s : State) (ty : PageType) (i off : Nat) :
    (s.ctrlIgnored ty i off).mem = s.mem := by
  obtain ⟨_, _, _, _, h⟩ := State.ctrlIgnored_form s ty i off; rw [h]
@[simp] theorem State.ctrlIgnored_seq (s : State) (ty : PageType) (i off : Nat) :
    (s.ctrlIgnored ty i off).seq = s.seq := by
  obtain ⟨_, _, _, _, h⟩ := State.ctrlIgnored_form s ty i off; rw [h]
@[simp] theorem State.ctrlIgnored_te (s : State) (ty : PageType) (i off : Nat) :
    (s.ctrlIgnored ty i off).te = s.te := by
  obtain ⟨_, _, _, _, h⟩ := State.ctrlIgnored_form s ty i off; rw [h]
@[simp] theorem State.ctrlIgnored_scale (s : State) (ty : PageType) (i off : Nat) :
    (s.ctrlIgnored ty i off).scale = s.scale := by
  obtain ⟨_, _, _, _, h⟩ := State.ctrlIgnored_form s ty i off; rw [h]
@[simp] theorem State.ctrlIgnored_coll (s : State) (ty : PageType) (i off : Nat) :
    (s.ctrlIgnored ty i off).coll = s.coll := by
  obtain ⟨_, _, _, _, h⟩ := State.ctrlIgnored_form s ty i off; rw [h]
@[simp] theorem State.ctrlIgnored_net (s : State) (ty : PageType) (i off : Nat) :
    (s.ctrlIgnored ty i off).net = s.net := by
  obtain ⟨_, _, _, _, h⟩ := State.ctrlIgnored_form s ty i off; rw [h]
@[simp] theorem State.ctrlIgnored_optics (s : State) (ty : PageType) (i off : Nat) :
    (s.ctrlIgnored ty i off).optics = s.optics := by
  obtain ⟨_, _, _, _, h⟩ := State.ctrlIgnored_form s ty i off; rw [h]
@[simp] theorem State.ctrlIgnored_snap (s : State) (ty : PageType) (i off : Nat) :
    (s.ctrlIgnored ty i off).snap = s.snap := by
  obtain ⟨_, _, _, _, h⟩ := State.ctrlIgnored_form s ty i off; rw [h]
@[simp] theorem State.ctrlIgnored_flash (s : State) (ty : PageType) (i off : Nat) :
    (s.ctrlIgnored ty i off).flash = s.flash := by
  obtain ⟨_, _, _, _, h⟩ := State.ctrlIgnored_form s ty i off; rw [h]
@[simp] theorem State.ctrlIgnored_pwr (s : State) (ty : PageType) (i off : Nat) :
    (s.ctrlIgnored ty i off).pwr = s.pwr := by
  obtain ⟨_, _, _, _, h⟩ := State.ctrlIgnored_form s ty i off; rw [h]
@[simp] theorem State.ctrlIgnored_host (s : State) (ty : PageType) (i off : Nat) :
    (s.ctrlIgnored ty i off).host = s.host := by
  obtain ⟨_, _, _, _, h⟩ := State.ctrlIgnored_form s ty i off; rw [h]
@[simp] theorem State.ctrlIgnored_svc (s : State) (ty : PageType) (i off : Nat) :
    (s.ctrlIgnored ty i off).svc = s.svc := by
  obtain ⟨_, _, _, _, h⟩ := State.ctrlIgnored_form s ty i off; rw [h]
@[simp] theorem State.ctrlIgnored_waits (s : State) (ty : PageType) (i off : Nat) :
    (s.ctrlIgnored ty i off).waits = s.waits := by
  obtain ⟨_, _, _, _, h⟩ := State.ctrlIgnored_form s ty i off; rw [h]
@[simp] theorem State.ctrlIgnored_woken (s : State) (ty : PageType) (i off : Nat) :
    (s.ctrlIgnored ty i off).woken = s.woken := by
  obtain ⟨_, _, _, _, h⟩ := State.ctrlIgnored_form s ty i off; rw [h]

@[simp] theorem State.saveCands_pending (s : State) : (s.saveCands).pending = s.pending := by
  unfold State.saveCands; split
  · split <;> rfl
  · dsimp only; split <;> rfl
@[simp] theorem State.saveCands_now (s : State) : (s.saveCands).now = s.now := by
  unfold State.saveCands; split
  · split <;> rfl
  · dsimp only; split <;> rfl
@[simp] theorem State.saveCands_free (s : State) : (s.saveCands).free = s.free := by
  unfold State.saveCands; split
  · split <;> rfl
  · dsimp only; split <;> rfl
@[simp] theorem State.saveCands_out (s : State) : (s.saveCands).out = s.out := by
  unfold State.saveCands; split
  · split <;> rfl
  · dsimp only; split <;> rfl
@[simp] theorem State.saveCands_fuses (s : State) : (s.saveCands).fuses = s.fuses := by
  unfold State.saveCands; split
  · split <;> rfl
  · dsimp only; split <;> rfl
@[simp] theorem State.saveCands_rf (s : State) : (s.saveCands).rf = s.rf := by
  unfold State.saveCands; split
  · split <;> rfl
  · dsimp only; split <;> rfl
@[simp] theorem State.saveCands_mem (s : State) : (s.saveCands).mem = s.mem := by
  unfold State.saveCands; split
  · split <;> rfl
  · dsimp only; split <;> rfl
@[simp] theorem State.saveCands_seq (s : State) : (s.saveCands).seq = s.seq := by
  unfold State.saveCands; split
  · split <;> rfl
  · dsimp only; split <;> rfl
@[simp] theorem State.saveCands_te (s : State) : (s.saveCands).te = s.te := by
  unfold State.saveCands; split
  · split <;> rfl
  · dsimp only; split <;> rfl
@[simp] theorem State.saveCands_scale (s : State) : (s.saveCands).scale = s.scale := by
  unfold State.saveCands; split
  · split <;> rfl
  · dsimp only; split <;> rfl
@[simp] theorem State.saveCands_err (s : State) : (s.saveCands).err = s.err := by
  unfold State.saveCands; split
  · split <;> rfl
  · dsimp only; split <;> rfl
@[simp] theorem State.saveCands_coll (s : State) : (s.saveCands).coll = s.coll := by
  unfold State.saveCands; split
  · split <;> rfl
  · dsimp only; split <;> rfl
@[simp] theorem State.saveCands_net (s : State) : (s.saveCands).net = s.net := by
  unfold State.saveCands; split
  · split <;> rfl
  · dsimp only; split <;> rfl
@[simp] theorem State.saveCands_optics (s : State) : (s.saveCands).optics = s.optics := by
  unfold State.saveCands; split
  · split <;> rfl
  · dsimp only; split <;> rfl
@[simp] theorem State.saveCands_snap (s : State) : (s.saveCands).snap = s.snap := by
  unfold State.saveCands; split
  · split <;> rfl
  · dsimp only; split <;> rfl
@[simp] theorem State.saveCands_pwr (s : State) : (s.saveCands).pwr = s.pwr := by
  unfold State.saveCands; split
  · split <;> rfl
  · dsimp only; split <;> rfl
@[simp] theorem State.saveCands_svc (s : State) : (s.saveCands).svc = s.svc := by
  unfold State.saveCands; split
  · split <;> rfl
  · dsimp only; split <;> rfl
@[simp] theorem State.saveCands_waits (s : State) : (s.saveCands).waits = s.waits := by
  unfold State.saveCands; split
  · split <;> rfl
  · dsimp only; split <;> rfl
@[simp] theorem State.saveCands_woken (s : State) : (s.saveCands).woken = s.woken := by
  unfold State.saveCands; split
  · split <;> rfl
  · dsimp only; split <;> rfl

@[simp] theorem State.wearFlash_pending (s : State) : (s.wearFlash).pending = s.pending := by
  unfold State.wearFlash; split <;> simp
@[simp] theorem State.wearFlash_now (s : State) : (s.wearFlash).now = s.now := by
  unfold State.wearFlash; split <;> simp
@[simp] theorem State.wearFlash_out (s : State) : (s.wearFlash).out = s.out := by
  unfold State.wearFlash; split <;> simp
@[simp] theorem State.wearFlash_fuses (s : State) : (s.wearFlash).fuses = s.fuses := by
  unfold State.wearFlash; split <;> simp
@[simp] theorem State.wearFlash_mem (s : State) : (s.wearFlash).mem = s.mem := by
  unfold State.wearFlash; split <;> simp
@[simp] theorem State.wearFlash_seq (s : State) : (s.wearFlash).seq = s.seq := by
  unfold State.wearFlash; split <;> simp
@[simp] theorem State.wearFlash_te (s : State) : (s.wearFlash).te = s.te := by
  unfold State.wearFlash; split <;> simp
@[simp] theorem State.wearFlash_scale (s : State) : (s.wearFlash).scale = s.scale := by
  unfold State.wearFlash; split <;> simp
@[simp] theorem State.wearFlash_err (s : State) : (s.wearFlash).err = s.err := by
  unfold State.wearFlash; split <;> simp
@[simp] theorem State.wearFlash_coll (s : State) : (s.wearFlash).coll = s.coll := by
  unfold State.wearFlash; split <;> simp
@[simp] theorem State.wearFlash_net (s : State) : (s.wearFlash).net = s.net := by
  unfold State.wearFlash; split <;> simp
@[simp] theorem State.wearFlash_optics (s : State) : (s.wearFlash).optics = s.optics := by
  unfold State.wearFlash; split <;> simp
@[simp] theorem State.wearFlash_snap (s : State) : (s.wearFlash).snap = s.snap := by
  unfold State.wearFlash; split <;> simp
@[simp] theorem State.wearFlash_flash (s : State) : (s.wearFlash).flash = s.flash := by
  unfold State.wearFlash; split <;> simp
@[simp] theorem State.wearFlash_pwr (s : State) : (s.wearFlash).pwr = s.pwr := by
  unfold State.wearFlash; split <;> simp
@[simp] theorem State.wearFlash_host (s : State) : (s.wearFlash).host = s.host := by
  unfold State.wearFlash; split <;> simp
@[simp] theorem State.wearFlash_svc (s : State) : (s.wearFlash).svc = s.svc := by
  unfold State.wearFlash; split <;> simp
@[simp] theorem State.wearFlash_waits (s : State) : (s.wearFlash).waits = s.waits := by
  unfold State.wearFlash; split <;> simp
@[simp] theorem State.wearFlash_woken (s : State) : (s.wearFlash).woken = s.woken := by
  unfold State.wearFlash; split <;> simp

@[simp] theorem State.candidate_pending (s : State) (a : Nat) : (s.candidate a).pending = s.pending := by
  unfold State.candidate; split <;> (try split) <;> simp
@[simp] theorem State.candidate_now (s : State) (a : Nat) : (s.candidate a).now = s.now := by
  unfold State.candidate; split <;> (try split) <;> simp
@[simp] theorem State.candidate_fuses (s : State) (a : Nat) : (s.candidate a).fuses = s.fuses := by
  unfold State.candidate; split <;> (try split) <;> simp
@[simp] theorem State.candidate_seq (s : State) (a : Nat) : (s.candidate a).seq = s.seq := by
  unfold State.candidate; split <;> (try split) <;> simp
@[simp] theorem State.candidate_te (s : State) (a : Nat) : (s.candidate a).te = s.te := by
  unfold State.candidate; split <;> (try split) <;> simp
@[simp] theorem State.candidate_scale (s : State) (a : Nat) : (s.candidate a).scale = s.scale := by
  unfold State.candidate; split <;> (try split) <;> simp
@[simp] theorem State.candidate_coll (s : State) (a : Nat) : (s.candidate a).coll = s.coll := by
  unfold State.candidate; split <;> (try split) <;> simp
@[simp] theorem State.candidate_net (s : State) (a : Nat) : (s.candidate a).net = s.net := by
  unfold State.candidate; split <;> (try split) <;> simp
@[simp] theorem State.candidate_optics (s : State) (a : Nat) : (s.candidate a).optics = s.optics := by
  unfold State.candidate; split <;> (try split) <;> simp
@[simp] theorem State.candidate_snap (s : State) (a : Nat) : (s.candidate a).snap = s.snap := by
  unfold State.candidate; split <;> (try split) <;> simp
@[simp] theorem State.candidate_pwr (s : State) (a : Nat) : (s.candidate a).pwr = s.pwr := by
  unfold State.candidate; split <;> (try split) <;> simp
@[simp] theorem State.candidate_svc (s : State) (a : Nat) : (s.candidate a).svc = s.svc := by
  unfold State.candidate; split <;> (try split) <;> simp
@[simp] theorem State.candidate_waits (s : State) (a : Nat) : (s.candidate a).waits = s.waits := by
  unfold State.candidate; split <;> (try split) <;> simp
@[simp] theorem State.candidate_woken (s : State) (a : Nat) : (s.candidate a).woken = s.woken := by
  unfold State.candidate; split <;> (try split) <;> simp

@[simp] theorem State.queueCorrection_pending (s : State) (a : Nat) : (s.queueCorrection a).pending = s.pending := by
  unfold State.queueCorrection; split <;> (try split) <;> simp
@[simp] theorem State.queueCorrection_now (s : State) (a : Nat) : (s.queueCorrection a).now = s.now := by
  unfold State.queueCorrection; split <;> (try split) <;> simp
@[simp] theorem State.queueCorrection_fuses (s : State) (a : Nat) : (s.queueCorrection a).fuses = s.fuses := by
  unfold State.queueCorrection; split <;> (try split) <;> simp
@[simp] theorem State.queueCorrection_seq (s : State) (a : Nat) : (s.queueCorrection a).seq = s.seq := by
  unfold State.queueCorrection; split <;> (try split) <;> simp
@[simp] theorem State.queueCorrection_te (s : State) (a : Nat) : (s.queueCorrection a).te = s.te := by
  unfold State.queueCorrection; split <;> (try split) <;> simp
@[simp] theorem State.queueCorrection_scale (s : State) (a : Nat) : (s.queueCorrection a).scale = s.scale := by
  unfold State.queueCorrection; split <;> (try split) <;> simp
@[simp] theorem State.queueCorrection_coll (s : State) (a : Nat) : (s.queueCorrection a).coll = s.coll := by
  unfold State.queueCorrection; split <;> (try split) <;> simp
@[simp] theorem State.queueCorrection_net (s : State) (a : Nat) : (s.queueCorrection a).net = s.net := by
  unfold State.queueCorrection; split <;> (try split) <;> simp
@[simp] theorem State.queueCorrection_optics (s : State) (a : Nat) : (s.queueCorrection a).optics = s.optics := by
  unfold State.queueCorrection; split <;> (try split) <;> simp
@[simp] theorem State.queueCorrection_snap (s : State) (a : Nat) : (s.queueCorrection a).snap = s.snap := by
  unfold State.queueCorrection; split <;> (try split) <;> simp
@[simp] theorem State.queueCorrection_flash (s : State) (a : Nat) : (s.queueCorrection a).flash = s.flash := by
  unfold State.queueCorrection; split <;> (try split) <;> simp
@[simp] theorem State.queueCorrection_pwr (s : State) (a : Nat) : (s.queueCorrection a).pwr = s.pwr := by
  unfold State.queueCorrection; split <;> (try split) <;> simp
@[simp] theorem State.queueCorrection_host (s : State) (a : Nat) : (s.queueCorrection a).host = s.host := by
  unfold State.queueCorrection; split <;> (try split) <;> simp
@[simp] theorem State.queueCorrection_svc (s : State) (a : Nat) : (s.queueCorrection a).svc = s.svc := by
  unfold State.queueCorrection; split <;> (try split) <;> simp
@[simp] theorem State.queueCorrection_waits (s : State) (a : Nat) : (s.queueCorrection a).waits = s.waits := by
  unfold State.queueCorrection; split <;> (try split) <;> simp
@[simp] theorem State.queueCorrection_woken (s : State) (a : Nat) : (s.queueCorrection a).woken = s.woken := by
  unfold State.queueCorrection; split <;> (try split) <;> simp

@[simp] theorem State.noteCorrected_pending (s : State) (a : Nat) (double : Bool) :
    (s.noteCorrected a double).pending = s.pending := by
  unfold State.noteCorrected; dsimp only; split <;> (try split) <;> simp
@[simp] theorem State.noteCorrected_now (s : State) (a : Nat) (double : Bool) :
    (s.noteCorrected a double).now = s.now := by
  unfold State.noteCorrected; dsimp only; split <;> (try split) <;> simp
@[simp] theorem State.noteCorrected_fuses (s : State) (a : Nat) (double : Bool) :
    (s.noteCorrected a double).fuses = s.fuses := by
  unfold State.noteCorrected; dsimp only; split <;> (try split) <;> simp
@[simp] theorem State.noteCorrected_mem (s : State) (a : Nat) (double : Bool) :
    (s.noteCorrected a double).mem = s.mem := by
  unfold State.noteCorrected; dsimp only; split <;> (try split) <;> simp
@[simp] theorem State.noteCorrected_seq (s : State) (a : Nat) (double : Bool) :
    (s.noteCorrected a double).seq = s.seq := by
  unfold State.noteCorrected; dsimp only; split <;> (try split) <;> simp
@[simp] theorem State.noteCorrected_te (s : State) (a : Nat) (double : Bool) :
    (s.noteCorrected a double).te = s.te := by
  unfold State.noteCorrected; dsimp only; split <;> (try split) <;> simp
@[simp] theorem State.noteCorrected_scale (s : State) (a : Nat) (double : Bool) :
    (s.noteCorrected a double).scale = s.scale := by
  unfold State.noteCorrected; dsimp only; split <;> (try split) <;> simp
@[simp] theorem State.noteCorrected_coll (s : State) (a : Nat) (double : Bool) :
    (s.noteCorrected a double).coll = s.coll := by
  unfold State.noteCorrected; dsimp only; split <;> (try split) <;> simp
@[simp] theorem State.noteCorrected_net (s : State) (a : Nat) (double : Bool) :
    (s.noteCorrected a double).net = s.net := by
  unfold State.noteCorrected; dsimp only; split <;> (try split) <;> simp
@[simp] theorem State.noteCorrected_optics (s : State) (a : Nat) (double : Bool) :
    (s.noteCorrected a double).optics = s.optics := by
  unfold State.noteCorrected; dsimp only; split <;> (try split) <;> simp
@[simp] theorem State.noteCorrected_snap (s : State) (a : Nat) (double : Bool) :
    (s.noteCorrected a double).snap = s.snap := by
  unfold State.noteCorrected; dsimp only; split <;> (try split) <;> simp
@[simp] theorem State.noteCorrected_flash (s : State) (a : Nat) (double : Bool) :
    (s.noteCorrected a double).flash = s.flash := by
  unfold State.noteCorrected; dsimp only; split <;> (try split) <;> simp
@[simp] theorem State.noteCorrected_pwr (s : State) (a : Nat) (double : Bool) :
    (s.noteCorrected a double).pwr = s.pwr := by
  unfold State.noteCorrected; dsimp only; split <;> (try split) <;> simp
@[simp] theorem State.noteCorrected_host (s : State) (a : Nat) (double : Bool) :
    (s.noteCorrected a double).host = s.host := by
  unfold State.noteCorrected; dsimp only; split <;> (try split) <;> simp
@[simp] theorem State.noteCorrected_svc (s : State) (a : Nat) (double : Bool) :
    (s.noteCorrected a double).svc = s.svc := by
  unfold State.noteCorrected; dsimp only; split <;> (try split) <;> simp
@[simp] theorem State.noteCorrected_waits (s : State) (a : Nat) (double : Bool) :
    (s.noteCorrected a double).waits = s.waits := by
  unfold State.noteCorrected; dsimp only; split <;> (try split) <;> simp
@[simp] theorem State.noteCorrected_woken (s : State) (a : Nat) (double : Bool) :
    (s.noteCorrected a double).woken = s.woken := by
  unfold State.noteCorrected; dsimp only; split <;> (try split) <;> simp

@[simp] theorem State.noteUncorrectable_pending (s : State) (a : Nat) :
    (s.noteUncorrectable a).pending = s.pending := by
  unfold State.noteUncorrectable; dsimp only; split <;> (try split) <;> simp
@[simp] theorem State.noteUncorrectable_now (s : State) (a : Nat) : (s.noteUncorrectable a).now = s.now := by
  unfold State.noteUncorrectable; dsimp only; split <;> (try split) <;> simp
@[simp] theorem State.noteUncorrectable_fuses (s : State) (a : Nat) : (s.noteUncorrectable a).fuses = s.fuses := by
  unfold State.noteUncorrectable; dsimp only; split <;> (try split) <;> simp
@[simp] theorem State.noteUncorrectable_mem (s : State) (a : Nat) : (s.noteUncorrectable a).mem = s.mem := by
  unfold State.noteUncorrectable; dsimp only; split <;> (try split) <;> simp
@[simp] theorem State.noteUncorrectable_seq (s : State) (a : Nat) : (s.noteUncorrectable a).seq = s.seq := by
  unfold State.noteUncorrectable; dsimp only; split <;> (try split) <;> simp
@[simp] theorem State.noteUncorrectable_te (s : State) (a : Nat) : (s.noteUncorrectable a).te = s.te := by
  unfold State.noteUncorrectable; dsimp only; split <;> (try split) <;> simp
@[simp] theorem State.noteUncorrectable_scale (s : State) (a : Nat) : (s.noteUncorrectable a).scale = s.scale := by
  unfold State.noteUncorrectable; dsimp only; split <;> (try split) <;> simp
@[simp] theorem State.noteUncorrectable_coll (s : State) (a : Nat) : (s.noteUncorrectable a).coll = s.coll := by
  unfold State.noteUncorrectable; dsimp only; split <;> (try split) <;> simp
@[simp] theorem State.noteUncorrectable_net (s : State) (a : Nat) : (s.noteUncorrectable a).net = s.net := by
  unfold State.noteUncorrectable; dsimp only; split <;> (try split) <;> simp
@[simp] theorem State.noteUncorrectable_optics (s : State) (a : Nat) : (s.noteUncorrectable a).optics = s.optics := by
  unfold State.noteUncorrectable; dsimp only; split <;> (try split) <;> simp
@[simp] theorem State.noteUncorrectable_snap (s : State) (a : Nat) : (s.noteUncorrectable a).snap = s.snap := by
  unfold State.noteUncorrectable; dsimp only; split <;> (try split) <;> simp
@[simp] theorem State.noteUncorrectable_flash (s : State) (a : Nat) : (s.noteUncorrectable a).flash = s.flash := by
  unfold State.noteUncorrectable; dsimp only; split <;> (try split) <;> simp
@[simp] theorem State.noteUncorrectable_pwr (s : State) (a : Nat) : (s.noteUncorrectable a).pwr = s.pwr := by
  unfold State.noteUncorrectable; dsimp only; split <;> (try split) <;> simp
@[simp] theorem State.noteUncorrectable_host (s : State) (a : Nat) : (s.noteUncorrectable a).host = s.host := by
  unfold State.noteUncorrectable; dsimp only; split <;> (try split) <;> simp
@[simp] theorem State.noteUncorrectable_svc (s : State) (a : Nat) : (s.noteUncorrectable a).svc = s.svc := by
  unfold State.noteUncorrectable; dsimp only; split <;> (try split) <;> simp
@[simp] theorem State.noteUncorrectable_waits (s : State) (a : Nat) : (s.noteUncorrectable a).waits = s.waits := by
  unfold State.noteUncorrectable; dsimp only; split <;> (try split) <;> simp
@[simp] theorem State.noteUncorrectable_woken (s : State) (a : Nat) : (s.noteUncorrectable a).woken = s.woken := by
  unfold State.noteUncorrectable; dsimp only; split <;> (try split) <;> simp

@[simp] theorem State.notePoisonRead_pending (s : State) (a : Nat) : (s.notePoisonRead a).pending = s.pending := by
  unfold State.notePoisonRead; split <;> simp
@[simp] theorem State.notePoisonRead_now (s : State) (a : Nat) : (s.notePoisonRead a).now = s.now := by
  unfold State.notePoisonRead; split <;> simp
@[simp] theorem State.notePoisonRead_fuses (s : State) (a : Nat) : (s.notePoisonRead a).fuses = s.fuses := by
  unfold State.notePoisonRead; split <;> simp
@[simp] theorem State.notePoisonRead_mem (s : State) (a : Nat) : (s.notePoisonRead a).mem = s.mem := by
  unfold State.notePoisonRead; split <;> simp
@[simp] theorem State.notePoisonRead_seq (s : State) (a : Nat) : (s.notePoisonRead a).seq = s.seq := by
  unfold State.notePoisonRead; split <;> simp
@[simp] theorem State.notePoisonRead_te (s : State) (a : Nat) : (s.notePoisonRead a).te = s.te := by
  unfold State.notePoisonRead; split <;> simp
@[simp] theorem State.notePoisonRead_scale (s : State) (a : Nat) : (s.notePoisonRead a).scale = s.scale := by
  unfold State.notePoisonRead; split <;> simp
@[simp] theorem State.notePoisonRead_err (s : State) (a : Nat) : (s.notePoisonRead a).err = s.err := by
  unfold State.notePoisonRead; split <;> simp
@[simp] theorem State.notePoisonRead_coll (s : State) (a : Nat) : (s.notePoisonRead a).coll = s.coll := by
  unfold State.notePoisonRead; split <;> simp
@[simp] theorem State.notePoisonRead_net (s : State) (a : Nat) : (s.notePoisonRead a).net = s.net := by
  unfold State.notePoisonRead; split <;> simp
@[simp] theorem State.notePoisonRead_optics (s : State) (a : Nat) : (s.notePoisonRead a).optics = s.optics := by
  unfold State.notePoisonRead; split <;> simp
@[simp] theorem State.notePoisonRead_snap (s : State) (a : Nat) : (s.notePoisonRead a).snap = s.snap := by
  unfold State.notePoisonRead; split <;> simp
@[simp] theorem State.notePoisonRead_flash (s : State) (a : Nat) : (s.notePoisonRead a).flash = s.flash := by
  unfold State.notePoisonRead; split <;> simp
@[simp] theorem State.notePoisonRead_pwr (s : State) (a : Nat) : (s.notePoisonRead a).pwr = s.pwr := by
  unfold State.notePoisonRead; split <;> simp
@[simp] theorem State.notePoisonRead_host (s : State) (a : Nat) : (s.notePoisonRead a).host = s.host := by
  unfold State.notePoisonRead; split <;> simp
@[simp] theorem State.notePoisonRead_svc (s : State) (a : Nat) : (s.notePoisonRead a).svc = s.svc := by
  unfold State.notePoisonRead; split <;> simp
@[simp] theorem State.notePoisonRead_waits (s : State) (a : Nat) : (s.notePoisonRead a).waits = s.waits := by
  unfold State.notePoisonRead; split <;> simp
@[simp] theorem State.notePoisonRead_woken (s : State) (a : Nat) : (s.notePoisonRead a).woken = s.woken := by
  unfold State.notePoisonRead; split <;> simp

@[simp] theorem State.readPoison_pending (s : State) (a : Nat) : (s.readPoison a).pending = s.pending := by
  unfold State.readPoison; split <;> simp
@[simp] theorem State.readPoison_now (s : State) (a : Nat) : (s.readPoison a).now = s.now := by
  unfold State.readPoison; split <;> simp
@[simp] theorem State.readPoison_fuses (s : State) (a : Nat) : (s.readPoison a).fuses = s.fuses := by
  unfold State.readPoison; split <;> simp
@[simp] theorem State.readPoison_mem (s : State) (a : Nat) : (s.readPoison a).mem = s.mem := by
  unfold State.readPoison; split <;> simp
@[simp] theorem State.readPoison_seq (s : State) (a : Nat) : (s.readPoison a).seq = s.seq := by
  unfold State.readPoison; split <;> simp
@[simp] theorem State.readPoison_te (s : State) (a : Nat) : (s.readPoison a).te = s.te := by
  unfold State.readPoison; split <;> simp
@[simp] theorem State.readPoison_scale (s : State) (a : Nat) : (s.readPoison a).scale = s.scale := by
  unfold State.readPoison; split <;> simp
@[simp] theorem State.readPoison_err (s : State) (a : Nat) : (s.readPoison a).err = s.err := by
  unfold State.readPoison; split <;> simp
@[simp] theorem State.readPoison_coll (s : State) (a : Nat) : (s.readPoison a).coll = s.coll := by
  unfold State.readPoison; split <;> simp
@[simp] theorem State.readPoison_net (s : State) (a : Nat) : (s.readPoison a).net = s.net := by
  unfold State.readPoison; split <;> simp
@[simp] theorem State.readPoison_optics (s : State) (a : Nat) : (s.readPoison a).optics = s.optics := by
  unfold State.readPoison; split <;> simp
@[simp] theorem State.readPoison_snap (s : State) (a : Nat) : (s.readPoison a).snap = s.snap := by
  unfold State.readPoison; split <;> simp
@[simp] theorem State.readPoison_flash (s : State) (a : Nat) : (s.readPoison a).flash = s.flash := by
  unfold State.readPoison; split <;> simp
@[simp] theorem State.readPoison_pwr (s : State) (a : Nat) : (s.readPoison a).pwr = s.pwr := by
  unfold State.readPoison; split <;> simp
@[simp] theorem State.readPoison_host (s : State) (a : Nat) : (s.readPoison a).host = s.host := by
  unfold State.readPoison; split <;> simp
@[simp] theorem State.readPoison_svc (s : State) (a : Nat) : (s.readPoison a).svc = s.svc := by
  unfold State.readPoison; split <;> simp
@[simp] theorem State.readPoison_waits (s : State) (a : Nat) : (s.readPoison a).waits = s.waits := by
  unfold State.readPoison; split <;> simp
@[simp] theorem State.readPoison_woken (s : State) (a : Nat) : (s.readPoison a).woken = s.woken := by
  unfold State.readPoison; split <;> simp

@[simp] theorem State.touchWord_pending (s : State) (a : Nat) : (s.touchWord a).pending = s.pending := by
  unfold State.touchWord; split <;> simp
@[simp] theorem State.touchWord_now (s : State) (a : Nat) : (s.touchWord a).now = s.now := by
  unfold State.touchWord; split <;> simp
@[simp] theorem State.touchWord_fuses (s : State) (a : Nat) : (s.touchWord a).fuses = s.fuses := by
  unfold State.touchWord; split <;> simp
@[simp] theorem State.touchWord_seq (s : State) (a : Nat) : (s.touchWord a).seq = s.seq := by
  unfold State.touchWord; split <;> simp
@[simp] theorem State.touchWord_te (s : State) (a : Nat) : (s.touchWord a).te = s.te := by
  unfold State.touchWord; split <;> simp
@[simp] theorem State.touchWord_scale (s : State) (a : Nat) : (s.touchWord a).scale = s.scale := by
  unfold State.touchWord; split <;> simp
@[simp] theorem State.touchWord_coll (s : State) (a : Nat) : (s.touchWord a).coll = s.coll := by
  unfold State.touchWord; split <;> simp
@[simp] theorem State.touchWord_net (s : State) (a : Nat) : (s.touchWord a).net = s.net := by
  unfold State.touchWord; split <;> simp
@[simp] theorem State.touchWord_optics (s : State) (a : Nat) : (s.touchWord a).optics = s.optics := by
  unfold State.touchWord; split <;> simp
@[simp] theorem State.touchWord_snap (s : State) (a : Nat) : (s.touchWord a).snap = s.snap := by
  unfold State.touchWord; split <;> simp
@[simp] theorem State.touchWord_pwr (s : State) (a : Nat) : (s.touchWord a).pwr = s.pwr := by
  unfold State.touchWord; split <;> simp
@[simp] theorem State.touchWord_svc (s : State) (a : Nat) : (s.touchWord a).svc = s.svc := by
  unfold State.touchWord; split <;> simp
@[simp] theorem State.touchWord_waits (s : State) (a : Nat) : (s.touchWord a).waits = s.waits := by
  unfold State.touchWord; split <;> simp
@[simp] theorem State.touchWord_woken (s : State) (a : Nat) : (s.touchWord a).woken = s.woken := by
  unfold State.touchWord; split <;> simp

@[simp] theorem State.touch_pending (s : State) (as : List Nat) : (s.touch as).pending = s.pending := by
  induction as generalizing s with
  | nil => rfl
  | cons a r ih => exact (ih (s.touchWord a)).trans (by simp)
@[simp] theorem State.touch_now (s : State) (as : List Nat) : (s.touch as).now = s.now := by
  induction as generalizing s with
  | nil => rfl
  | cons a r ih => exact (ih (s.touchWord a)).trans (by simp)
@[simp] theorem State.touch_fuses (s : State) (as : List Nat) : (s.touch as).fuses = s.fuses := by
  induction as generalizing s with
  | nil => rfl
  | cons a r ih => exact (ih (s.touchWord a)).trans (by simp)
@[simp] theorem State.touch_seq (s : State) (as : List Nat) : (s.touch as).seq = s.seq := by
  induction as generalizing s with
  | nil => rfl
  | cons a r ih => exact (ih (s.touchWord a)).trans (by simp)
@[simp] theorem State.touch_te (s : State) (as : List Nat) : (s.touch as).te = s.te := by
  induction as generalizing s with
  | nil => rfl
  | cons a r ih => exact (ih (s.touchWord a)).trans (by simp)
@[simp] theorem State.touch_scale (s : State) (as : List Nat) : (s.touch as).scale = s.scale := by
  induction as generalizing s with
  | nil => rfl
  | cons a r ih => exact (ih (s.touchWord a)).trans (by simp)
@[simp] theorem State.touch_coll (s : State) (as : List Nat) : (s.touch as).coll = s.coll := by
  induction as generalizing s with
  | nil => rfl
  | cons a r ih => exact (ih (s.touchWord a)).trans (by simp)
@[simp] theorem State.touch_net (s : State) (as : List Nat) : (s.touch as).net = s.net := by
  induction as generalizing s with
  | nil => rfl
  | cons a r ih => exact (ih (s.touchWord a)).trans (by simp)
@[simp] theorem State.touch_optics (s : State) (as : List Nat) : (s.touch as).optics = s.optics := by
  induction as generalizing s with
  | nil => rfl
  | cons a r ih => exact (ih (s.touchWord a)).trans (by simp)
@[simp] theorem State.touch_snap (s : State) (as : List Nat) : (s.touch as).snap = s.snap := by
  induction as generalizing s with
  | nil => rfl
  | cons a r ih => exact (ih (s.touchWord a)).trans (by simp)
@[simp] theorem State.touch_pwr (s : State) (as : List Nat) : (s.touch as).pwr = s.pwr := by
  induction as generalizing s with
  | nil => rfl
  | cons a r ih => exact (ih (s.touchWord a)).trans (by simp)
@[simp] theorem State.touch_svc (s : State) (as : List Nat) : (s.touch as).svc = s.svc := by
  induction as generalizing s with
  | nil => rfl
  | cons a r ih => exact (ih (s.touchWord a)).trans (by simp)
@[simp] theorem State.touch_waits (s : State) (as : List Nat) : (s.touch as).waits = s.waits := by
  induction as generalizing s with
  | nil => rfl
  | cons a r ih => exact (ih (s.touchWord a)).trans (by simp)
@[simp] theorem State.touch_woken (s : State) (as : List Nat) : (s.touch as).woken = s.woken := by
  induction as generalizing s with
  | nil => rfl
  | cons a r ih => exact (ih (s.touchWord a)).trans (by simp)

@[simp] theorem State.store_pending (s : State) (bs : List WByte) : (s.store bs).pending = s.pending := by
  simp [State.store]
@[simp] theorem State.store_now (s : State) (bs : List WByte) : (s.store bs).now = s.now := by
  simp [State.store]
@[simp] theorem State.store_fuses (s : State) (bs : List WByte) : (s.store bs).fuses = s.fuses := by
  simp [State.store]
@[simp] theorem State.store_seq (s : State) (bs : List WByte) : (s.store bs).seq = s.seq := by
  simp [State.store]
@[simp] theorem State.store_te (s : State) (bs : List WByte) : (s.store bs).te = s.te := by
  simp [State.store]
@[simp] theorem State.store_scale (s : State) (bs : List WByte) : (s.store bs).scale = s.scale := by
  simp [State.store]
@[simp] theorem State.store_coll (s : State) (bs : List WByte) : (s.store bs).coll = s.coll := by
  simp [State.store]
@[simp] theorem State.store_net (s : State) (bs : List WByte) : (s.store bs).net = s.net := by
  simp [State.store]
@[simp] theorem State.store_optics (s : State) (bs : List WByte) : (s.store bs).optics = s.optics := by
  simp [State.store]
@[simp] theorem State.store_snap (s : State) (bs : List WByte) : (s.store bs).snap = s.snap := by
  simp [State.store]
@[simp] theorem State.store_pwr (s : State) (bs : List WByte) : (s.store bs).pwr = s.pwr := by
  simp [State.store]
@[simp] theorem State.store_svc (s : State) (bs : List WByte) : (s.store bs).svc = s.svc := by
  simp [State.store]
@[simp] theorem State.store_waits (s : State) (bs : List WByte) : (s.store bs).waits = s.waits := by
  simp [State.store]
@[simp] theorem State.store_woken (s : State) (bs : List WByte) : (s.store bs).woken = s.woken := by
  simp [State.store]

theorem State.stackBytes_form (s : State) (f : Fd) (a n : Nat) :
    ∃ rf, s.stackBytes f a n = { s with rf := rf } := by
  unfold State.stackBytes
  split <;> (cases s; exact ⟨_, rfl⟩)
@[simp] theorem State.stackBytes_pending (s : State) (f : Fd) (a n : Nat) :
    (s.stackBytes f a n).pending = s.pending := by
  obtain ⟨_, h⟩ := State.stackBytes_form s f a n; rw [h]
@[simp] theorem State.stackBytes_now (s : State) (f : Fd) (a n : Nat) : (s.stackBytes f a n).now = s.now := by
  obtain ⟨_, h⟩ := State.stackBytes_form s f a n; rw [h]
@[simp] theorem State.stackBytes_free (s : State) (f : Fd) (a n : Nat) : (s.stackBytes f a n).free = s.free := by
  obtain ⟨_, h⟩ := State.stackBytes_form s f a n; rw [h]
@[simp] theorem State.stackBytes_out (s : State) (f : Fd) (a n : Nat) : (s.stackBytes f a n).out = s.out := by
  obtain ⟨_, h⟩ := State.stackBytes_form s f a n; rw [h]
@[simp] theorem State.stackBytes_fuses (s : State) (f : Fd) (a n : Nat) : (s.stackBytes f a n).fuses = s.fuses := by
  obtain ⟨_, h⟩ := State.stackBytes_form s f a n; rw [h]
@[simp] theorem State.stackBytes_mem (s : State) (f : Fd) (a n : Nat) : (s.stackBytes f a n).mem = s.mem := by
  obtain ⟨_, h⟩ := State.stackBytes_form s f a n; rw [h]
@[simp] theorem State.stackBytes_seq (s : State) (f : Fd) (a n : Nat) : (s.stackBytes f a n).seq = s.seq := by
  obtain ⟨_, h⟩ := State.stackBytes_form s f a n; rw [h]
@[simp] theorem State.stackBytes_te (s : State) (f : Fd) (a n : Nat) : (s.stackBytes f a n).te = s.te := by
  obtain ⟨_, h⟩ := State.stackBytes_form s f a n; rw [h]
@[simp] theorem State.stackBytes_scale (s : State) (f : Fd) (a n : Nat) : (s.stackBytes f a n).scale = s.scale := by
  obtain ⟨_, h⟩ := State.stackBytes_form s f a n; rw [h]
@[simp] theorem State.stackBytes_err (s : State) (f : Fd) (a n : Nat) : (s.stackBytes f a n).err = s.err := by
  obtain ⟨_, h⟩ := State.stackBytes_form s f a n; rw [h]
@[simp] theorem State.stackBytes_coll (s : State) (f : Fd) (a n : Nat) : (s.stackBytes f a n).coll = s.coll := by
  obtain ⟨_, h⟩ := State.stackBytes_form s f a n; rw [h]
@[simp] theorem State.stackBytes_net (s : State) (f : Fd) (a n : Nat) : (s.stackBytes f a n).net = s.net := by
  obtain ⟨_, h⟩ := State.stackBytes_form s f a n; rw [h]
@[simp] theorem State.stackBytes_optics (s : State) (f : Fd) (a n : Nat) :
    (s.stackBytes f a n).optics = s.optics := by
  obtain ⟨_, h⟩ := State.stackBytes_form s f a n; rw [h]
@[simp] theorem State.stackBytes_snap (s : State) (f : Fd) (a n : Nat) : (s.stackBytes f a n).snap = s.snap := by
  obtain ⟨_, h⟩ := State.stackBytes_form s f a n; rw [h]
@[simp] theorem State.stackBytes_flash (s : State) (f : Fd) (a n : Nat) : (s.stackBytes f a n).flash = s.flash := by
  obtain ⟨_, h⟩ := State.stackBytes_form s f a n; rw [h]
@[simp] theorem State.stackBytes_pwr (s : State) (f : Fd) (a n : Nat) : (s.stackBytes f a n).pwr = s.pwr := by
  obtain ⟨_, h⟩ := State.stackBytes_form s f a n; rw [h]
@[simp] theorem State.stackBytes_host (s : State) (f : Fd) (a n : Nat) : (s.stackBytes f a n).host = s.host := by
  obtain ⟨_, h⟩ := State.stackBytes_form s f a n; rw [h]
@[simp] theorem State.stackBytes_svc (s : State) (f : Fd) (a n : Nat) : (s.stackBytes f a n).svc = s.svc := by
  obtain ⟨_, h⟩ := State.stackBytes_form s f a n; rw [h]
@[simp] theorem State.stackBytes_waits (s : State) (f : Fd) (a n : Nat) : (s.stackBytes f a n).waits = s.waits := by
  obtain ⟨_, h⟩ := State.stackBytes_form s f a n; rw [h]
@[simp] theorem State.stackBytes_woken (s : State) (f : Fd) (a n : Nat) : (s.stackBytes f a n).woken = s.woken := by
  obtain ⟨_, h⟩ := State.stackBytes_form s f a n; rw [h]

@[simp] theorem State.setSem_pending (s : State) (t n v : Nat) :
    (s.setSem t n v).pending = s.pending := by cases s; rfl
@[simp] theorem State.setSem_now (s : State) (t n v : Nat) : (s.setSem t n v).now = s.now := by cases s; rfl
@[simp] theorem State.setSem_free (s : State) (t n v : Nat) : (s.setSem t n v).free = s.free := by cases s; rfl
@[simp] theorem State.setSem_out (s : State) (t n v : Nat) : (s.setSem t n v).out = s.out := by cases s; rfl
@[simp] theorem State.setSem_fuses (s : State) (t n v : Nat) : (s.setSem t n v).fuses = s.fuses := by cases s; rfl
@[simp] theorem State.setSem_rf (s : State) (t n v : Nat) : (s.setSem t n v).rf = s.rf := by cases s; rfl
@[simp] theorem State.setSem_mem (s : State) (t n v : Nat) : (s.setSem t n v).mem = s.mem := by cases s; rfl
@[simp] theorem State.setSem_te (s : State) (t n v : Nat) : (s.setSem t n v).te = s.te := by cases s; rfl
@[simp] theorem State.setSem_scale (s : State) (t n v : Nat) : (s.setSem t n v).scale = s.scale := by cases s; rfl
@[simp] theorem State.setSem_err (s : State) (t n v : Nat) : (s.setSem t n v).err = s.err := by cases s; rfl
@[simp] theorem State.setSem_coll (s : State) (t n v : Nat) : (s.setSem t n v).coll = s.coll := by cases s; rfl
@[simp] theorem State.setSem_net (s : State) (t n v : Nat) : (s.setSem t n v).net = s.net := by cases s; rfl
@[simp] theorem State.setSem_optics (s : State) (t n v : Nat) : (s.setSem t n v).optics = s.optics := by cases s; rfl
@[simp] theorem State.setSem_snap (s : State) (t n v : Nat) : (s.setSem t n v).snap = s.snap := by cases s; rfl
@[simp] theorem State.setSem_flash (s : State) (t n v : Nat) : (s.setSem t n v).flash = s.flash := by cases s; rfl
@[simp] theorem State.setSem_pwr (s : State) (t n v : Nat) : (s.setSem t n v).pwr = s.pwr := by cases s; rfl
@[simp] theorem State.setSem_host (s : State) (t n v : Nat) : (s.setSem t n v).host = s.host := by cases s; rfl
@[simp] theorem State.setSem_svc (s : State) (t n v : Nat) : (s.setSem t n v).svc = s.svc := by cases s; rfl
@[simp] theorem State.setSem_waits (s : State) (t n v : Nat) : (s.setSem t n v).waits = s.waits := by cases s; rfl
@[simp] theorem State.setSem_woken (s : State) (t n v : Nat) : (s.setSem t n v).woken = s.woken := by cases s; rfl

@[simp] theorem State.putOcc_pending (s : State) (o : Occ) : (s.putOcc o).pending = s.pending := by cases s; rfl
@[simp] theorem State.putOcc_now (s : State) (o : Occ) : (s.putOcc o).now = s.now := by cases s; rfl
@[simp] theorem State.putOcc_free (s : State) (o : Occ) : (s.putOcc o).free = s.free := by cases s; rfl
@[simp] theorem State.putOcc_out (s : State) (o : Occ) : (s.putOcc o).out = s.out := by cases s; rfl
@[simp] theorem State.putOcc_fuses (s : State) (o : Occ) : (s.putOcc o).fuses = s.fuses := by cases s; rfl
@[simp] theorem State.putOcc_rf (s : State) (o : Occ) : (s.putOcc o).rf = s.rf := by cases s; rfl
@[simp] theorem State.putOcc_mem (s : State) (o : Occ) : (s.putOcc o).mem = s.mem := by cases s; rfl
@[simp] theorem State.putOcc_te (s : State) (o : Occ) : (s.putOcc o).te = s.te := by cases s; rfl
@[simp] theorem State.putOcc_scale (s : State) (o : Occ) : (s.putOcc o).scale = s.scale := by cases s; rfl
@[simp] theorem State.putOcc_err (s : State) (o : Occ) : (s.putOcc o).err = s.err := by cases s; rfl
@[simp] theorem State.putOcc_coll (s : State) (o : Occ) : (s.putOcc o).coll = s.coll := by cases s; rfl
@[simp] theorem State.putOcc_net (s : State) (o : Occ) : (s.putOcc o).net = s.net := by cases s; rfl
@[simp] theorem State.putOcc_optics (s : State) (o : Occ) : (s.putOcc o).optics = s.optics := by cases s; rfl
@[simp] theorem State.putOcc_snap (s : State) (o : Occ) : (s.putOcc o).snap = s.snap := by cases s; rfl
@[simp] theorem State.putOcc_flash (s : State) (o : Occ) : (s.putOcc o).flash = s.flash := by cases s; rfl
@[simp] theorem State.putOcc_pwr (s : State) (o : Occ) : (s.putOcc o).pwr = s.pwr := by cases s; rfl
@[simp] theorem State.putOcc_host (s : State) (o : Occ) : (s.putOcc o).host = s.host := by cases s; rfl
@[simp] theorem State.putOcc_svc (s : State) (o : Occ) : (s.putOcc o).svc = s.svc := by cases s; rfl
@[simp] theorem State.putOcc_waits (s : State) (o : Occ) : (s.putOcc o).waits = s.waits := by cases s; rfl
@[simp] theorem State.putOcc_woken (s : State) (o : Occ) : (s.putOcc o).woken = s.woken := by cases s; rfl

@[simp] theorem State.setQueue_pending (s : State) (t q : Nat) (x : QueueSt) :
    (s.setQueue t q x).pending = s.pending := by cases s; rfl
@[simp] theorem State.setQueue_now (s : State) (t q : Nat) (x : QueueSt) :
    (s.setQueue t q x).now = s.now := by cases s; rfl
@[simp] theorem State.setQueue_free (s : State) (t q : Nat) (x : QueueSt) :
    (s.setQueue t q x).free = s.free := by cases s; rfl
@[simp] theorem State.setQueue_out (s : State) (t q : Nat) (x : QueueSt) :
    (s.setQueue t q x).out = s.out := by cases s; rfl
@[simp] theorem State.setQueue_fuses (s : State) (t q : Nat) (x : QueueSt) :
    (s.setQueue t q x).fuses = s.fuses := by cases s; rfl
@[simp] theorem State.setQueue_rf (s : State) (t q : Nat) (x : QueueSt) :
    (s.setQueue t q x).rf = s.rf := by cases s; rfl
@[simp] theorem State.setQueue_mem (s : State) (t q : Nat) (x : QueueSt) :
    (s.setQueue t q x).mem = s.mem := by cases s; rfl
@[simp] theorem State.setQueue_te (s : State) (t q : Nat) (x : QueueSt) :
    (s.setQueue t q x).te = s.te := by cases s; rfl
@[simp] theorem State.setQueue_scale (s : State) (t q : Nat) (x : QueueSt) :
    (s.setQueue t q x).scale = s.scale := by cases s; rfl
@[simp] theorem State.setQueue_err (s : State) (t q : Nat) (x : QueueSt) :
    (s.setQueue t q x).err = s.err := by cases s; rfl
@[simp] theorem State.setQueue_coll (s : State) (t q : Nat) (x : QueueSt) :
    (s.setQueue t q x).coll = s.coll := by cases s; rfl
@[simp] theorem State.setQueue_net (s : State) (t q : Nat) (x : QueueSt) :
    (s.setQueue t q x).net = s.net := by cases s; rfl
@[simp] theorem State.setQueue_optics (s : State) (t q : Nat) (x : QueueSt) :
    (s.setQueue t q x).optics = s.optics := by cases s; rfl
@[simp] theorem State.setQueue_snap (s : State) (t q : Nat) (x : QueueSt) :
    (s.setQueue t q x).snap = s.snap := by cases s; rfl
@[simp] theorem State.setQueue_flash (s : State) (t q : Nat) (x : QueueSt) :
    (s.setQueue t q x).flash = s.flash := by cases s; rfl
@[simp] theorem State.setQueue_pwr (s : State) (t q : Nat) (x : QueueSt) :
    (s.setQueue t q x).pwr = s.pwr := by cases s; rfl
@[simp] theorem State.setQueue_host (s : State) (t q : Nat) (x : QueueSt) :
    (s.setQueue t q x).host = s.host := by cases s; rfl
@[simp] theorem State.setQueue_svc (s : State) (t q : Nat) (x : QueueSt) :
    (s.setQueue t q x).svc = s.svc := by cases s; rfl
@[simp] theorem State.setQueue_waits (s : State) (t q : Nat) (x : QueueSt) :
    (s.setQueue t q x).waits = s.waits := by cases s; rfl
@[simp] theorem State.setQueue_woken (s : State) (t q : Nat) (x : QueueSt) :
    (s.setQueue t q x).woken = s.woken := by cases s; rfl

@[simp] theorem State.putCtx_pending (s : State) (c : Ctx) : (s.putCtx c).pending = s.pending := by cases s; rfl
@[simp] theorem State.putCtx_now (s : State) (c : Ctx) : (s.putCtx c).now = s.now := by cases s; rfl
@[simp] theorem State.putCtx_free (s : State) (c : Ctx) : (s.putCtx c).free = s.free := by cases s; rfl
@[simp] theorem State.putCtx_out (s : State) (c : Ctx) : (s.putCtx c).out = s.out := by cases s; rfl
@[simp] theorem State.putCtx_fuses (s : State) (c : Ctx) : (s.putCtx c).fuses = s.fuses := by cases s; rfl
@[simp] theorem State.putCtx_rf (s : State) (c : Ctx) : (s.putCtx c).rf = s.rf := by cases s; rfl
@[simp] theorem State.putCtx_mem (s : State) (c : Ctx) : (s.putCtx c).mem = s.mem := by cases s; rfl
@[simp] theorem State.putCtx_seq (s : State) (c : Ctx) : (s.putCtx c).seq = s.seq := by cases s; rfl
@[simp] theorem State.putCtx_te (s : State) (c : Ctx) : (s.putCtx c).te = s.te := by cases s; rfl
@[simp] theorem State.putCtx_scale (s : State) (c : Ctx) : (s.putCtx c).scale = s.scale := by cases s; rfl
@[simp] theorem State.putCtx_err (s : State) (c : Ctx) : (s.putCtx c).err = s.err := by cases s; rfl
@[simp] theorem State.putCtx_net (s : State) (c : Ctx) : (s.putCtx c).net = s.net := by cases s; rfl
@[simp] theorem State.putCtx_optics (s : State) (c : Ctx) : (s.putCtx c).optics = s.optics := by cases s; rfl
@[simp] theorem State.putCtx_snap (s : State) (c : Ctx) : (s.putCtx c).snap = s.snap := by cases s; rfl
@[simp] theorem State.putCtx_flash (s : State) (c : Ctx) : (s.putCtx c).flash = s.flash := by cases s; rfl
@[simp] theorem State.putCtx_pwr (s : State) (c : Ctx) : (s.putCtx c).pwr = s.pwr := by cases s; rfl
@[simp] theorem State.putCtx_host (s : State) (c : Ctx) : (s.putCtx c).host = s.host := by cases s; rfl
@[simp] theorem State.putCtx_svc (s : State) (c : Ctx) : (s.putCtx c).svc = s.svc := by cases s; rfl
@[simp] theorem State.putCtx_waits (s : State) (c : Ctx) : (s.putCtx c).waits = s.waits := by cases s; rfl
@[simp] theorem State.putCtx_woken (s : State) (c : Ctx) : (s.putCtx c).woken = s.woken := by cases s; rfl

@[simp] theorem State.setPort_pending (s : State) (p : Nat) (x : PortSt) :
    (s.setPort p x).pending = s.pending := by cases s; rfl
@[simp] theorem State.setPort_now (s : State) (p : Nat) (x : PortSt) : (s.setPort p x).now = s.now := by cases s; rfl
@[simp] theorem State.setPort_free (s : State) (p : Nat) (x : PortSt) :
    (s.setPort p x).free = s.free := by cases s; rfl
@[simp] theorem State.setPort_out (s : State) (p : Nat) (x : PortSt) : (s.setPort p x).out = s.out := by cases s; rfl
@[simp] theorem State.setPort_fuses (s : State) (p : Nat) (x : PortSt) :
    (s.setPort p x).fuses = s.fuses := by cases s; rfl
@[simp] theorem State.setPort_rf (s : State) (p : Nat) (x : PortSt) : (s.setPort p x).rf = s.rf := by cases s; rfl
@[simp] theorem State.setPort_mem (s : State) (p : Nat) (x : PortSt) : (s.setPort p x).mem = s.mem := by cases s; rfl
@[simp] theorem State.setPort_seq (s : State) (p : Nat) (x : PortSt) : (s.setPort p x).seq = s.seq := by cases s; rfl
@[simp] theorem State.setPort_te (s : State) (p : Nat) (x : PortSt) : (s.setPort p x).te = s.te := by cases s; rfl
@[simp] theorem State.setPort_scale (s : State) (p : Nat) (x : PortSt) :
    (s.setPort p x).scale = s.scale := by cases s; rfl
@[simp] theorem State.setPort_err (s : State) (p : Nat) (x : PortSt) : (s.setPort p x).err = s.err := by cases s; rfl
@[simp] theorem State.setPort_coll (s : State) (p : Nat) (x : PortSt) :
    (s.setPort p x).coll = s.coll := by cases s; rfl
@[simp] theorem State.setPort_optics (s : State) (p : Nat) (x : PortSt) :
    (s.setPort p x).optics = s.optics := by cases s; rfl
@[simp] theorem State.setPort_snap (s : State) (p : Nat) (x : PortSt) :
    (s.setPort p x).snap = s.snap := by cases s; rfl
@[simp] theorem State.setPort_flash (s : State) (p : Nat) (x : PortSt) :
    (s.setPort p x).flash = s.flash := by cases s; rfl
@[simp] theorem State.setPort_pwr (s : State) (p : Nat) (x : PortSt) : (s.setPort p x).pwr = s.pwr := by cases s; rfl
@[simp] theorem State.setPort_host (s : State) (p : Nat) (x : PortSt) :
    (s.setPort p x).host = s.host := by cases s; rfl
@[simp] theorem State.setPort_svc (s : State) (p : Nat) (x : PortSt) : (s.setPort p x).svc = s.svc := by cases s; rfl
@[simp] theorem State.setPort_waits (s : State) (p : Nat) (x : PortSt) :
    (s.setPort p x).waits = s.waits := by cases s; rfl
@[simp] theorem State.setPort_woken (s : State) (p : Nat) (x : PortSt) :
    (s.setPort p x).woken = s.woken := by cases s; rfl

@[simp] theorem State.setCh_pending (s : State) (l k : Nat) (c : ChSt) :
    (s.setCh l k c).pending = s.pending := by cases s; rfl
@[simp] theorem State.setCh_now (s : State) (l k : Nat) (c : ChSt) : (s.setCh l k c).now = s.now := by cases s; rfl
@[simp] theorem State.setCh_free (s : State) (l k : Nat) (c : ChSt) : (s.setCh l k c).free = s.free := by cases s; rfl
@[simp] theorem State.setCh_out (s : State) (l k : Nat) (c : ChSt) : (s.setCh l k c).out = s.out := by cases s; rfl
@[simp] theorem State.setCh_fuses (s : State) (l k : Nat) (c : ChSt) :
    (s.setCh l k c).fuses = s.fuses := by cases s; rfl
@[simp] theorem State.setCh_rf (s : State) (l k : Nat) (c : ChSt) : (s.setCh l k c).rf = s.rf := by cases s; rfl
@[simp] theorem State.setCh_mem (s : State) (l k : Nat) (c : ChSt) : (s.setCh l k c).mem = s.mem := by cases s; rfl
@[simp] theorem State.setCh_seq (s : State) (l k : Nat) (c : ChSt) : (s.setCh l k c).seq = s.seq := by cases s; rfl
@[simp] theorem State.setCh_te (s : State) (l k : Nat) (c : ChSt) : (s.setCh l k c).te = s.te := by cases s; rfl
@[simp] theorem State.setCh_scale (s : State) (l k : Nat) (c : ChSt) :
    (s.setCh l k c).scale = s.scale := by cases s; rfl
@[simp] theorem State.setCh_err (s : State) (l k : Nat) (c : ChSt) : (s.setCh l k c).err = s.err := by cases s; rfl
@[simp] theorem State.setCh_coll (s : State) (l k : Nat) (c : ChSt) : (s.setCh l k c).coll = s.coll := by cases s; rfl
@[simp] theorem State.setCh_optics (s : State) (l k : Nat) (c : ChSt) :
    (s.setCh l k c).optics = s.optics := by cases s; rfl
@[simp] theorem State.setCh_snap (s : State) (l k : Nat) (c : ChSt) : (s.setCh l k c).snap = s.snap := by cases s; rfl
@[simp] theorem State.setCh_flash (s : State) (l k : Nat) (c : ChSt) :
    (s.setCh l k c).flash = s.flash := by cases s; rfl
@[simp] theorem State.setCh_pwr (s : State) (l k : Nat) (c : ChSt) : (s.setCh l k c).pwr = s.pwr := by cases s; rfl
@[simp] theorem State.setCh_host (s : State) (l k : Nat) (c : ChSt) : (s.setCh l k c).host = s.host := by cases s; rfl
@[simp] theorem State.setCh_svc (s : State) (l k : Nat) (c : ChSt) : (s.setCh l k c).svc = s.svc := by cases s; rfl
@[simp] theorem State.setCh_waits (s : State) (l k : Nat) (c : ChSt) :
    (s.setCh l k c).waits = s.waits := by cases s; rfl
@[simp] theorem State.setCh_woken (s : State) (l k : Nat) (c : ChSt) :
    (s.setCh l k c).woken = s.woken := by cases s; rfl

end Sys2Proof.Machine
end

