-- ==== Sys2Proof/Laws/Regs.lean ====
section
/-!
SUPPORT. Reads of registers after writes: a field holds the value written, every other field is left alone, and what an
event, a counter and an interrupt do to registers.
-/
namespace Sys2Proof.Machine

/-! ### Fields of a number -/

theorem natBits_lt (n lo w : Nat) : natBits n lo w < 2 ^ w := Nat.mod_lt _ (Nat.two_pow_pos w)

/-- A number is its high part, the field and its low part. -/
theorem natBits_split (n lo w : Nat) :
    n = n / 2 ^ (lo + w) * 2 ^ (lo + w) + natBits n lo w * 2 ^ lo + n % 2 ^ lo := by
  have h1 := Nat.div_add_mod n (2 ^ lo)
  have h2 := Nat.div_add_mod (n / 2 ^ lo) (2 ^ w)
  rw [Nat.div_div_eq_div_mul, ← Nat.pow_add] at h2
  unfold natBits
  calc n = 2 ^ lo * (n / 2 ^ lo) + n % 2 ^ lo := h1.symm
    _ = 2 ^ lo * (2 ^ w * (n / 2 ^ (lo + w)) + n / 2 ^ lo % 2 ^ w) + n % 2 ^ lo := by rw [h2]
    _ = _ := by rw [Nat.mul_add, ← Nat.mul_assoc, ← Nat.pow_add, Nat.mul_comm _ (n / _), Nat.mul_comm (2 ^ lo) (n / 2 ^ lo % 2 ^ w)]

theorem putBits_eq (n lo w v : Nat) :
    putBits n lo w v = n / 2 ^ (lo + w) * 2 ^ (lo + w) + v % 2 ^ w * 2 ^ lo + n % 2 ^ lo := by
  have h := natBits_split n lo w
  unfold putBits
  omega

/-- A field replaced reads as the value put. -/
theorem natBits_putBits_same (n lo w v : Nat) : natBits (putBits n lo w v) lo w = v % 2 ^ w := by
  rw [putBits_eq]
  unfold natBits
  have h : n / 2 ^ (lo + w) * 2 ^ (lo + w) + v % 2 ^ w * 2 ^ lo + n % 2 ^ lo =
      n % 2 ^ lo + 2 ^ lo * (v % 2 ^ w + 2 ^ w * (n / 2 ^ (lo + w))) := by
    rw [Nat.mul_add, ← Nat.mul_assoc, ← Nat.pow_add, Nat.mul_comm (n / _), Nat.mul_comm (v % _)]; omega
  rw [h, Nat.add_mul_div_left _ _ (Nat.two_pow_pos lo), Nat.div_eq_of_lt (Nat.mod_lt _ (Nat.two_pow_pos lo)), Nat.zero_add,
    Nat.add_mul_mod_self_left, Nat.mod_mod]

/-- A field below the one replaced is left alone. -/
theorem natBits_putBits_low (n lo w v a b : Nat) (h : a + b ≤ lo) : natBits (putBits n lo w v) a b = natBits n a b := by
  have hm : putBits n lo w v % 2 ^ lo = n % 2 ^ lo := by
    rw [putBits_eq]
    have e : n / 2 ^ (lo + w) * 2 ^ (lo + w) + v % 2 ^ w * 2 ^ lo + n % 2 ^ lo =
        n % 2 ^ lo + 2 ^ lo * (v % 2 ^ w + 2 ^ w * (n / 2 ^ (lo + w))) := by
      rw [Nat.mul_add, ← Nat.mul_assoc, ← Nat.pow_add, Nat.mul_comm (n / _), Nat.mul_comm (v % _)]; omega
    rw [e, Nat.add_mul_mod_self_left, Nat.mod_mod]
  have g (m : Nat) : natBits m a b = natBits (m % 2 ^ lo) a b := by
    unfold natBits
    obtain ⟨k, rfl⟩ : ∃ k, lo = a + (b + k) := ⟨lo - (a + b), by omega⟩
    rw [Nat.pow_add 2 a, Nat.mod_mul_right_div_self, Nat.mod_mod_of_dvd _ (Nat.pow_dvd_pow 2 (Nat.le_add_right b k))]
  rw [g, hm, ← g]

/-- A field above the one replaced is left alone. -/
theorem natBits_putBits_high (n lo w v a b : Nat) (h : lo + w ≤ a) : natBits (putBits n lo w v) a b = natBits n a b := by
  have hd : putBits n lo w v / 2 ^ (lo + w) = n / 2 ^ (lo + w) := by
    rw [putBits_eq]
    have e : n / 2 ^ (lo + w) * 2 ^ (lo + w) + v % 2 ^ w * 2 ^ lo + n % 2 ^ lo =
        v % 2 ^ w * 2 ^ lo + n % 2 ^ lo + 2 ^ (lo + w) * (n / 2 ^ (lo + w)) := by
      rw [Nat.mul_comm (n / _)]; omega
    have l : v % 2 ^ w * 2 ^ lo + n % 2 ^ lo < 2 ^ (lo + w) := by
      have h1 : v % 2 ^ w + 1 ≤ 2 ^ w := Nat.mod_lt _ (Nat.two_pow_pos w)
      have h2 : n % 2 ^ lo < 2 ^ lo := Nat.mod_lt _ (Nat.two_pow_pos lo)
      have h3 := Nat.mul_le_mul_right (2 ^ lo) h1
      rw [Nat.add_mul, Nat.one_mul] at h3
      rw [Nat.pow_add, Nat.mul_comm (2 ^ lo)]
      omega
    rw [e, Nat.add_mul_div_left _ _ (Nat.two_pow_pos _), Nat.div_eq_of_lt l, Nat.zero_add]
  unfold natBits
  obtain ⟨k, rfl⟩ : ∃ k, a = (lo + w) + k := ⟨a - (lo + w), by omega⟩
  rw [Nat.pow_add, ← Nat.div_div_eq_div_mul, ← Nat.div_div_eq_div_mul, hd]

theorem putBits_lt (n lo w v k : Nat) (h : n < 2 ^ k) (hw : lo + w ≤ k) : putBits n lo w v < 2 ^ k := by
  rw [putBits_eq]
  obtain ⟨j, rfl⟩ : ∃ j, k = (lo + w) + j := ⟨k - (lo + w), by omega⟩
  have h1 : v % 2 ^ w + 1 ≤ 2 ^ w := Nat.mod_lt _ (Nat.two_pow_pos w)
  have h2 : n % 2 ^ lo < 2 ^ lo := Nat.mod_lt _ (Nat.two_pow_pos lo)
  have h3 := Nat.mul_le_mul_right (2 ^ lo) h1
  have h4 : n / 2 ^ (lo + w) + 1 ≤ 2 ^ j := by
    rw [Nat.pow_add] at h
    exact Nat.div_lt_of_lt_mul h
  have h5 := Nat.mul_le_mul_right (2 ^ (lo + w)) h4
  rw [Nat.add_mul, Nat.one_mul] at h3 h5
  rw [Nat.mul_comm (2 ^ w), ← Nat.pow_add] at h3
  rw [Nat.mul_comm (2 ^ j), ← Nat.pow_add] at h5
  omega

/-! ### Registers -/

namespace State

@[simp] theorem reg_setReg_same (s : State) (p o : Nat) (v : Word) : (s.setReg p o v).reg p o = v := by
  show sparseGet _ (sparsePut _ _ _ _) _ = v
  exact sparseGet_put_same ..

theorem reg_setReg_other (s : State) {p o p' o' : Nat} (h : regKey p' o' ≠ regKey p o) (v : Word) :
    (s.setReg p o v).reg p' o' = s.reg p' o' := by
  show sparseGet _ (sparsePut _ _ _ _) _ = _
  exact sparseGet_put_other _ h ..

/-- Whatever else changes, registers read from the register file and the member alone. -/
theorem reg_congr {s t : State} (h : t.rf.cells = s.rf.cells) (k : t.fuses.member = s.fuses.member) (p o : Nat) :
    t.reg p o = s.reg p o := by unfold reg; rw [h, k]

theorem fget_congr {s t : State} {p : Nat} {f : Fd} (h : t.reg p f.off = s.reg p f.off) : t.fget p f = s.fget p f := by
  unfold fget; rw [h]

theorem toNat_fset (s : State) (p : Nat) (f : Fd) (v : Nat) (h : f.lo + f.w ≤ 32) :
    ((s.fset p f v).reg p f.off).toNat = putBits (s.reg p f.off).toNat f.lo f.w v := by
  unfold fset
  rw [reg_setReg_same, BitVec.toNat_ofNat, Nat.mod_eq_of_lt]
  exact putBits_lt _ _ _ _ 32 (s.reg p f.off).isLt h

/-- A field written reads as the value written. -/
theorem fget_fset_same (s : State) (p : Nat) (f : Fd) (v : Nat) (h : f.lo + f.w ≤ 32) :
    (s.fset p f v).fget p f = v % 2 ^ f.w := by
  show natBits ((s.fset p f v).reg p f.off).toNat f.lo f.w = _
  rw [toNat_fset s p f v h, natBits_putBits_same]

/-- A write of one register leaves every other register alone. -/
theorem reg_fset_other (s : State) {p : Nat} {f : Fd} {p' o' : Nat} (h : regKey p' o' ≠ regKey p f.off) (v : Nat) :
    (s.fset p f v).reg p' o' = s.reg p' o' := reg_setReg_other s h _

/-- A write of one field leaves the register's other fields alone. -/
theorem fget_fset_apart (s : State) (p : Nat) (f g : Fd) (v : Nat) (ho : g.off = f.off) (h : f.lo + f.w ≤ 32)
    (hd : g.lo + g.w ≤ f.lo ∨ f.lo + f.w ≤ g.lo) : (s.fset p f v).fget p g = s.fget p g := by
  show natBits ((s.fset p f v).reg p g.off).toNat g.lo g.w = natBits (s.reg p g.off).toNat g.lo g.w
  rw [ho, toNat_fset s p f v h]
  rcases hd with hd | hd
  · exact natBits_putBits_low _ _ _ _ _ _ hd
  · exact natBits_putBits_high _ _ _ _ _ _ hd

@[simp] theorem reg_emit (s : State) (o : Output) (p x : Nat) : (s.emit o).reg p x = s.reg p x := rfl
@[simp] theorem reg_start (s : State) (p x : Nat) : s.start.reg p x = s.reg p x := rfl
@[simp] theorem reg_useFree (s : State) (p x : Nat) : s.useFree.reg p x = s.reg p x := rfl
@[simp] theorem reg_putOcc (s : State) (o : Occ) (p x : Nat) : (s.putOcc o).reg p x = s.reg p x := rfl
@[simp] theorem reg_putCtx (s : State) (c : Ctx) (p x : Nat) : (s.putCtx c).reg p x = s.reg p x := rfl
@[simp] theorem reg_setPort (s : State) (n : Nat) (c : PortSt) (p x : Nat) : (s.setPort n c).reg p x = s.reg p x := rfl

/-- The key of MSIX_PEND. -/
def pendKey : Nat := regKey pcieP PCIE.MSIX_PEND_vec.off

/-- An interrupt changes no register but MSIX_PEND. -/
theorem reg_raiseVector (s : State) (v p x : Nat) (h : regKey p x ≠ pendKey) : (s.raiseVector v).reg p x = s.reg p x := by
  unfold raiseVector
  split
  · exact reg_fset_other (f := ⟨PCIE.MSIX_PEND_vec.off, v, 1⟩) s h _
  · rfl

/-- An event changes no register but its own PAGE_EVT and MSIX_PEND. -/
theorem reg_event (s : State) (ty : PageType) (i : Nat) (f : Fd) (p x : Nat) (h : regKey p x ≠ pendKey)
    (k : regKey p x ≠ regKey (pageNum ty i) f.off) : (s.event ty i f).reg p x = s.reg p x := by
  unfold event
  split
  · rfl
  · dsimp only
    split
    · rw [reg_raiseVector _ _ _ _ h, reg_fset_other s k]
    · rw [reg_fset_other s k]

/-- A service event changes no register but SVC_EVT and MSIX_PEND. -/
theorem reg_svcEvent (s : State) (f : Fd) (p x : Nat) (h : regKey p x ≠ pendKey) (k : regKey p x ≠ regKey 0 f.off) :
    (s.svcEvent f).reg p x = s.reg p x := by
  unfold svcEvent
  split
  · rfl
  · dsimp only
    split
    · rw [reg_raiseVector _ _ _ _ h, reg_fset_other s k]
    · rw [reg_fset_other s k]

/-- After an event its bit reads 1. -/
theorem flag_event (s : State) (ty : PageType) (i : Nat) (f : Fd) (hw : f.w = 1) (hl : f.lo < 32)
    (h : regKey (pageNum ty i) f.off ≠ pendKey) : (s.event ty i f).flag (pageNum ty i) f = true := by
  have hs : (s.fset (pageNum ty i) f 1).flag (pageNum ty i) f = true := by
    unfold flag
    rw [fget_fset_same _ _ _ _ (by omega), hw]; rfl
  unfold event
  split
  · assumption
  · dsimp only
    split
    · unfold flag at hs ⊢
      rw [fget_congr (reg_raiseVector _ _ _ _ h)]
      exact hs
    · exact hs

/-- A counter past no limit counts its amount. -/
theorem fget_addFree (s : State) (p : Nat) (f : Fd) (n : Nat) (h : f.lo + f.w ≤ 32) (hn : s.fget p f + n < 2 ^ f.w) :
    (s.addFree p f n).fget p f = s.fget p f + n := by
  unfold addFree
  rw [if_pos hn, fget_fset_same _ _ _ _ h, Nat.mod_eq_of_lt hn]

theorem reg_addFree (s : State) (p : Nat) (f : Fd) (n p' x : Nat) (h : regKey p' x ≠ regKey p f.off) :
    (s.addFree p f n).reg p' x = s.reg p' x := by
  unfold addFree
  split
  · exact reg_fset_other s h _
  · exact reg_fset_other s h _

theorem reg_count (s : State) (p : Nat) (f : Fd) (p' x : Nat) (h : regKey p' x ≠ regKey p f.off) :
    (s.count p f).reg p' x = s.reg p' x := reg_addFree s p f 1 p' x h

theorem reg_setPair_other (s : State) (p : Nat) (f : Fd) (v p' x : Nat) (h : regKey p' x ≠ regKey p f.off)
    (k : regKey p' x ≠ regKey p (f.off + 4)) : (s.setPair p f v).reg p' x = s.reg p' x := by
  unfold setPair
  rw [reg_setReg_other _ k, reg_setReg_other _ h]

/-- A pair written reads as its value, of 64 bits. -/
theorem pair_setPair (s : State) (p : Nat) (f : Fd) (v : Nat) : (s.setPair p f v).pair p f = v % 2 ^ 64 := by
  unfold setPair pair
  have h : regKey p f.off ≠ regKey p (f.off + 4) := by unfold regKey; omega
  rw [reg_setReg_same, reg_setReg_other _ h, reg_setReg_same, BitVec.toNat_ofNat, BitVec.toNat_ofNat]
  omega

end State
end Sys2Proof.Machine
end

