-- ==== Sys2Proof/Laws/Touch.lean ====
section
/-!
SUPPORT. What reading words with its effects does to memory: it depends on memory and the member alone, and no byte reads
otherwise after it (05 R115, R116).
-/
namespace Sys2Proof.Machine

/-! ### The effect on memory depends on memory and the member alone -/

theorem State.candidate_mem_congr {s u : State} (h : s.mem = u.mem) (k : s.fuses = u.fuses) (a : Nat) :
    (s.candidate a).mem = (u.candidate a).mem := by
  unfold State.candidate State.member
  rw [h, k]
  split <;> (try split) <;> simp [h]

theorem State.queueCorrection_mem_congr {s u : State} (h : s.mem = u.mem) (k : s.fuses = u.fuses) (a : Nat) :
    (s.queueCorrection a).mem = (u.queueCorrection a).mem := by
  unfold State.queueCorrection State.member
  rw [h, k]
  split <;> (try split) <;> simp [h]

theorem State.touchWord_mem_congr {s u : State} (h : s.mem = u.mem) (k : s.fuses = u.fuses) (wa : Nat) :
    (s.touchWord wa).mem = (u.touchWord wa).mem := by
  unfold State.touchWord
  rw [h]
  split
  · simp [h]
  · simp only [State.readPoison_mem]
    exact State.queueCorrection_mem_congr (by simpa using h) (by simpa using k) wa
  · simp only [State.readPoison_mem]
    exact State.candidate_mem_congr (State.queueCorrection_mem_congr (by simpa using h) (by simpa using k) wa)
      (by simpa using k) wa
  · exact State.candidate_mem_congr (by simp [h]) (by simpa using k) wa

/-- Touching the same words changes equal memories of one member alike. -/
theorem State.touch_mem_congr {s u : State} (h : s.mem = u.mem) (k : s.fuses = u.fuses) (ws : List Nat) :
    (s.touch ws).mem = (u.touch ws).mem := by
  induction ws generalizing s u with
  | nil => exact h
  | cons wa r ih => exact ih (State.touchWord_mem_congr h k wa) (by simpa using k)

/-- Storing the same bytes changes equal memories of one member alike. -/
theorem State.store_mem_congr {s u : State} (h : s.mem = u.mem) (k : s.fuses = u.fuses) (bs : List WByte) :
    (s.store bs).mem = (u.store bs).mem := by
  simp only [State.store]
  rw [State.touch_mem_congr h k]

/-! ### No byte reads otherwise -/

theorem MemSt.byte_putWord (m : MemSt) (wa d a : Nat) (p : Bool) :
    (m.putWord wa d p).byte a = (m.putBytes wa (if p then 0 else d) 8).byte a := by
  unfold MemSt.putWord
  generalize poisonField = f
  rfl
theorem MemSt.diff_putWord (m : MemSt) (wa d : Nat) (p : Bool) :
    (m.putWord wa d p).diff wa = if p then poisonField else 0 := by
  unfold MemSt.putWord
  generalize poisonField = f
  exact MemSt.diff_setDiff_same _ wa _

theorem MemSt.rawWord_putWord_poison (m : MemSt) (wa : Nat) : (m.putWord wa 0 true).rawWord wa = 0 := by
  have h (i : Nat) (hi : i < 8) : (m.putWord wa 0 true).byte (wa + i) = 0 := by
    rw [MemSt.byte_putWord, if_pos rfl, MemSt.byte_putBytes_in m wa 0 8 i hi, Nat.zero_div]
    rfl
  have g (n : Nat) : ∀ a, (∀ i, i < n → (m.putWord wa 0 true).byte (a + i) = 0) →
      (m.putWord wa 0 true).rawBytes a n = 0 := by
    induction n with
    | zero => intro a _; rfl
    | succ n ih =>
      intro a ha
      have h0 := ha 0 (by omega)
      have h1 := ih (a + 1) fun i hi => by simpa [Nat.add_assoc, Nat.add_comm 1 i] using ha (i + 1) (by omega)
      simp only [MemSt.rawBytes]
      simp only [Nat.add_zero] at h0
      rw [h0, h1]; rfl
  exact g 8 wa h


/-- A poisoned word decodes without error, and reads as 0. -/
theorem MemSt.putWord_poison_reads (m : MemSt) (wa : Nat) :
    (m.putWord wa 0 true).wordData wa = 0 ∧ (m.putWord wa 0 true).wordPoison wa = true := by
  have h : eccDecode (syndrome poisonField) = .ok := by decide +kernel
  have p : poisonField.getLsbD 15 = true := by decide +kernel
  constructor
  · simp only [MemSt.wordData, MemSt.ecc, MemSt.diff_putWord, if_true, h, EccOut.fixes, List.foldl_nil,
      MemSt.rawWord_putWord_poison]
  · simp only [MemSt.wordPoison, MemSt.ecc, MemSt.diff_putWord, if_true, h, EccOut.fixes, List.foldl_nil, p]

/-- Memory as its words read: data and poison of the word that holds each byte. -/
def MemSt.SameReads (m m' : MemSt) : Prop :=
  ∀ a, m'.wordData (wordOf a) = m.wordData (wordOf a) ∧ m'.wordPoison (wordOf a) = m.wordPoison (wordOf a)

theorem MemSt.SameReads.trans {a b c : MemSt} (h : SameReads a b) (k : SameReads b c) : SameReads a c :=
  fun x => ⟨(k x).1.trans (h x).1, (k x).2.trans (h x).2⟩
theorem MemSt.SameReads.of_eq {m m' : MemSt} (h : m'.cells = m.cells) (k : m'.chk = m.chk) : SameReads m m' := by
  have b (a : Nat) : m'.byte a = m.byte a := by simp [MemSt.byte, h]
  have d (a : Nat) : m'.diff a = m.diff a := by simp [MemSt.diff, k]
  have r (a : Nat) : m'.rawWord a = m.rawWord a := MemSt.rawBytes_congr _ _ _ _ fun i _ => b _
  intro a
  simp [MemSt.wordData, MemSt.wordPoison, MemSt.ecc, d, r]

theorem State.candidate_cells (s : State) (a : Nat) :
    (s.candidate a).mem.cells = s.mem.cells ∧ (s.candidate a).mem.chk = s.mem.chk := by
  unfold State.candidate
  split <;> (try split) <;> simp
theorem State.queueCorrection_cells (s : State) (a : Nat) :
    (s.queueCorrection a).mem.cells = s.mem.cells ∧ (s.queueCorrection a).mem.chk = s.mem.chk := by
  unfold State.queueCorrection
  split <;> (try split) <;> simp

theorem State.touchWord_reads (s : State) (wa : Nat) (h : wa % 8 = 0) : s.mem.SameReads (s.touchWord wa).mem := by
  unfold State.touchWord
  split
  · exact .of_eq (by simp) (by simp)
  · have := State.queueCorrection_cells (s.noteCorrected wa false) wa
    exact .of_eq (by simp [this]) (by simp [this])
  · have h1 := State.candidate_cells ((s.noteCorrected wa true).queueCorrection wa) wa
    have h2 := State.queueCorrection_cells (s.noteCorrected wa true) wa
    exact .of_eq (by simp [h1, h2]) (by simp [h1, h2])
  · rename_i hu
    have hc := State.candidate_cells ({ s.noteUncorrectable wa with mem := (s.noteUncorrectable wa).mem.putWord wa 0 true }) wa
    refine MemSt.SameReads.trans ?_ (MemSt.SameReads.of_eq hc.1 hc.2)
    show s.mem.SameReads ((s.noteUncorrectable wa).mem.putWord wa 0 true)
    rw [State.noteUncorrectable_mem]
    intro a
    by_cases e : wordOf a = wa
    · have p := MemSt.putWord_poison_reads s.mem wa
      rw [e, p.1, p.2]
      simp [MemSt.wordData, MemSt.wordPoison, hu]
    · have ha : wordOf a % 8 = 0 := by unfold wordOf; omega
      have o : MemSt.sameWord s.mem (s.mem.putWord wa 0 true) (wordOf a) :=
        MemSt.putWord_other s.mem 0 true (by omega)
      exact ⟨o.data, o.poison⟩

/-- Reading words with its effects leaves what every byte reads as, and its poison, alone. -/
theorem State.touch_reads (s : State) (ws : List Nat) (h : ∀ wa ∈ ws, wa % 8 = 0) : s.mem.SameReads (s.touch ws).mem := by
  induction ws generalizing s with
  | nil => exact fun _ => ⟨rfl, rfl⟩
  | cons wa r ih =>
    exact (State.touchWord_reads s wa (h wa (by simp))).trans (ih (s.touchWord wa) fun x hx => h x (by simp [hx]))

theorem partialWords_aligned (bs : List WByte) : ∀ wa ∈ partialWords bs, wa % 8 = 0 := by
  intro wa hw
  exact MemSt.touchedWords_aligned bs wa (List.mem_filter.1 hw).1

/-- A store leaves every byte of a word it writes no byte of alone (01 R28, R29). -/
theorem State.readByte_store_other (s : State) (bs : List WByte) (a : Nat) (h : ∀ b ∈ bs, wordOf b.addr ≠ wordOf a) :
    (s.store bs).mem.readByte a = s.mem.readByte a ∧ (s.store bs).mem.poisoned a = s.mem.poisoned a := by
  have t := State.touch_reads s (partialWords bs) (partialWords_aligned bs) a
  have w := MemSt.readByte_write_other (s.touch (partialWords bs)).mem bs a h
  refine ⟨w.1.trans ?_, w.2.trans t.2⟩
  simp only [MemSt.readByte, t.1]

end Sys2Proof.Machine
end

