-- ==== Sys2Proof/Tests/Slice0.lean ====
section
/-!
SUPPORT. The model's own tests: for every clause of every statement with hypotheses a state and operands that meet them
all, the refusal of ill-formed commands, and the spec's worked examples.
-/
set_option exponentiation.threshold 60000
namespace Sys2Proof.Tests
open Sys2Proof Sys2Proof.Machine Sys2Proof.Machine.State Sys2Proof.Claims

/-! ### Small states -/

/-- The state right after reset: the ranger's port reaches every page. -/
def w0 : State := State.reset
/-- The module in service. -/
def w1 : State := (w0.fset 0 MODULE.BOOT_STAT_stage 10).fset 0 MODULE.PAGE_STAT_ready 1
/-- An occurrence of an opcode on queue 0 of tile 0, with its unit and place. -/
def wocc (id op : Nat) (u : UnitId) (p : Place) : Occ :=
  ⟨id, 0, 0, 0, BitVec.ofNat 512 op, [], [], u, p, 0, false, false, false, 0, [], [], 0, [], []⟩
/-- A state with these occurrences. -/
def wocs (os : List Occ) : State := { w1 with seq := { w1.seq with occs := os, nextId := 100 } }
/-- Tile 0's sequencer quiesced. -/
def wTseqQuiet : State := w1.fset (tseqP 0) TSEQ.PAGE_CTRL_quiesce 1
/-- Queue 7 of tile 7 with rings of 16 slots in the understory. -/
def wRing : State :=
  ((((w1.fset (tseqP 7) (qfd TSEQ.Q_CTRL_size_log2 7) 4).setQReg 7 7 0x04 0x100).setQReg 7 7 0x08 0x8000).setQReg 7 7
    0x0C 0x100)
/-- The same, enabled. -/
def wRingOn : State := wRing.fset (tseqP 7) (qfd TSEQ.Q_CTRL_enable 7) 1
def wClr : Clearing := ⟨1, 5, 2, 0, [0], 0, 1, 0, ⟨5, 0, 0, 0, false⟩, false, 0, 0, 0, 0, 0, 0, false, false, false⟩
def wClrS : State := { w1 with snap := { w1.snap with clr := some wClr } }
/-- A collective of rank 0 alone, open. -/
def wCtx1 : Ctx :=
  ⟨1, 0, 2, 0, 0, 1, 0, 0, [0], true, 0, [], [], [], [], 0, 0, 0, false, false, [], [], [], [], none, false, false⟩
def wColl1 : State :=
  let s := wocs [wocc 1 0x10 .coll .running]
  { s with coll := { s.coll with ctxs := [wCtx1] } }
/-- The row of a register. -/
def wrow (ty : PageType) (off : Nat) : RegRow := (ty.row off).getD ⟨0, 0, 0, 0, 0, 0, 0, []⟩
/-- The collective engine quiesced. -/
def wCollQuiet : State := w1.fset collP COLL.PAGE_CTRL_quiesce 1
def wStaged : State := w1.setStaged .ranger (pageNum .norm 0) 0x040 (some 7)
def wComb : State := w1.fset (peP 4) PE.COMB_STAT_b_ok 1
def wStkQuiet : State := w1.fset (stkP 7) STK.PAGE_CTRL_quiesce 1
/-- Queue 0 of tile 0 with 16 slots, three released. -/
def wQueue : State := (w1.fset (tseqP 0) (qfd TSEQ.Q_CTRL_size_log2 0) 4).setQReg 0 0 0x18 3
/-- The module in service with the first word of tile 0's understory off by one bit and noted for correction. -/
def wCorr : State := { w1 with mem := { w1.mem with chk := [(0, 1)], corrq := [⟨0, false⟩] } }
/-- The scrubber of tile 7 at its last understory line. -/
def wScrub : State :=
  (w1.fset (scrubP 7) SCRUB.PAGE_CTRL_enable 1).fset (scrubP 7) (scrubPosFd false) (scrubUnits false - 1)
/-- The start-up at a stage, for a member. -/
def wStage (n : Nat) (m : Member) : State :=
  { w0.fset 0 MODULE.BOOT_STAT_stage n with fuses := { w0.fuses with member := m } }
/-- What the hardware finds in a stage. -/
def wFind (ok : Bool) : BootInfo := ⟨ok, some 0, [], [], [], [], [], [], 1⟩
/-- The module at a power state, on its way to another when one is named. -/
def wPow (st : Nat) (toward : Option Nat) : State :=
  let s := w1.fset pwrP PWR.PAGE_STAT_state st
  match toward with
  | some t => (s.fset pwrP PWR.PAGE_STAT_moving 1).fset pwrP PWR.PAGE_STAT_target t
  | none => s
def wErr : ErrEntry := ⟨0, 0x8C, 1, 0, 1, 0, 0, 0⟩
/-- An error entry in the FIFO, latched for the host. -/
def wFifo : State := { w1 with err := { w1.err with fifo := [wErr], nextId := 1, hostLatch := some wErr } }
/-- Tile 7's clock change asked for, or begun. -/
def wTclk (d : Option Nat) : State :=
  match d with
  | none =>
    (List.range 4).foldl (fun s e => s.fset (pageNum .te (28 + e)) TE.PAGE_CTRL_quiesce 1)
      ((w1.fset clkP (divPend 7) 1).fset (pageNum .ve 7) VE.PAGE_CTRL_quiesce 1)
  | some d => { w1 with pwr := { w1.pwr with changing := [(7, d)] } }
/-- A tensor of one element, or of a row of `n`, at an address. -/
def wten (base fmt n size : Nat) : Tensor := ⟨base, fmt, 1, false, 0, [n - 1], [(size : Int)], 0, 0, 0⟩
/-- An occurrence with its descriptor and tensors. -/
def woct (id desc : Nat) (u : UnitId) (p : Place) (ts : List (Option Tensor)) : Occ := { wocc id desc u p with tens := ts }
/-- The module in service with these occurrences. -/
def wsv (os : List Occ) : State := { w1 with seq := { w1.seq with occs := os, nextId := 100 } }
/-- Tile 0's queue 0 in this state. -/
def wq (x : QueueSt) (s : State) : State := s.setQueue 0 0 x
/-- Tile 0's sequencer and queue 0 enabled, a descriptor at the head. -/
def wdisp (desc : Nat) : State :=
  wq ⟨[⟨0, BitVec.ofNat 512 desc⟩], 0, [], none, false⟩
    ((w1.fset (tseqP 0) TSEQ.PAGE_CTRL_enable 1).fset (tseqP 0) (qfd TSEQ.Q_CTRL_enable 0) 1)
/-- Occurrence 1 at the head of tile 0's queue 0. -/
def whead (o : Occ) : State := wq ⟨[], 1, [], some 1, false⟩ (wsv [o])
def wPage : Nat := pageNum .te 0
/-- An access of the ranger that waits for a page. -/
def wacc (page : Nat) : WaitAcc := ⟨0, .ranger, false, page, 0x014, 4, none, none⟩
/-- Queue 0 of tile 0 enabled, with 16 slots at 0x1000 and one descriptor released. -/
def wfetch : State :=
  (((w1.fset (tseqP 0) (qfd TSEQ.Q_CTRL_enable 0) 1).fset (tseqP 0) (qfd TSEQ.Q_CTRL_size_log2 0) 4).setQReg 0 0 0x00
    0x1000).setQReg 0 0 0x18 1
def wmulA : Tensor := ⟨0x1000, 5, 2, false, 0, [63, 0], [1, 64], 0, 0, 0⟩
def wmulT : Tensor := ⟨0x3000, 4, 2, false, 0, [0, 0], [8, 8], 0, 0, 0⟩
/-- A MATMUL of 64 products into one total. -/
def wmul (p : Place) : Occ := woct 1 0x01 (.te 0) p [some wmulA, some wmulA, some wmulT]
def wmulAt (k : Nat) : State :=
  (wsv [wmul .running]).setTe 0 ⟨some 1, false, 0, 0, k, 0, true, []⟩
/-- The same of another MATMUL. -/
def wmulOf (o : Occ) (k : Nat) (ds : List DrainBlk) : State :=
  (wsv [o]).setTe 0 ⟨some 1, false, 0, 0, k, 0, true, ds⟩
def wblk : DrainBlk := ⟨1, 0, 0, [(0, false)], true, []⟩
/-- The same MATMUL as one descriptor of a whole chain. -/
def wmulD : Occ := woct 1 (0x01 + 2 ^ 307) (.te 0) .running [some wmulA, some wmulA, some wmulT]
def wmulB : Tensor := { wmulA with lens := [159, 0] }
def wmul8 : Occ := woct 1 0x01 (.te 0) .running [some wmulB, some wmulB, some wmulT]
/-- A head with a gate, its mask entry the first of tile 0's table. -/
def wgate (desc : Nat) : State := (wdisp desc).fset (tseqP 0) TSEQ.TD_COUNT_entries 1
def wdrain : Occ := woct 1 0x02 (.drain 0) .input [some wmulT]
def wblkS : State := (wsv [{ wmul .waiting with id := 1 }]).setTe 0 ⟨none, false, 0, 0, 0, 0, true, [wblk]⟩
def wmove : Occ := woct 1 0x08 .dma .input [some (wten 0 2 1 4), some (wten 0x1000 2 1 4)]
def wvec : Occ := { wocc 1 0x303 .ve .input with wins := [none, none, none, none] }
/-- The management bus answers: the module in service. -/
def wDbg : State := { w1 with host := { w1.host with chal := some ([1, 2], 3, 0) }, now := 60000000 }
/-- The census base aligned in the first stack. -/
def wCen : State := w1.setPair 0 MODULE.CENSUS_BASE_LO_addr 0x10000000000
def wBut : State := w1.fset 0 MODULE.SVC_CTRL_button_en 1
/-- The module in service with a park state. -/
def wPark (n : Nat) : State := w1.fset 0 MODULE.SVC_STAT_park_state n
def wQuiet : State := w1.fset collP COLL.PAGE_CTRL_quiesce 1
/-- Stack 7's PHY trained, or training after some failures. -/
def wPhy (f : Option Nat) : State :=
  match f with
  | none => w1.fset (phyP 7) STKPHY.PAGE_STAT_trained 1
  | some n => (w1.fset (phyP 7) STKPHY.PAGE_STAT_training 1).setPhyFails 7 n
/-- A plan: channel 0 of link 0 in port 0, whose peer is rank 1; rank 2 is reached through port 0, then port 1. -/
def wPlan : PlanTab := ⟨[0x00000000, 0x01010000], [0x101FF0001, 0x101FF0003], [], [0xFF0100FF0002], 0x11111111⟩
/-- Link 0 up, its first channels enabled both ways and locked, the plan above in force under epoch 7. -/
def wNet : State :=
  let s := ((((w1.fset 0 MODULE.PAGE_STAT_coord_valid 1).fset (linkP 0) LINK.PAGE_CTRL_enable 1).fset (peP 0)
    PE.PAGE_CTRL_enable 1).fset (pechP 0) PECH.PAGE_CTRL_enable 1).fset planP PLAN.PLAN_EPOCH_epoch 7
  let s := [0, 1].foldl (fun s k => ((((((s.chSet 0 k PECH.CH_CTRL_tx_en 1).chSet 0 k PECH.CH_CTRL_rx_en 1).chSet 0 k
    PECH.CH_STAT_sel 4).chSet 0 k PECH.CH_STAT_mod 4).chSet 0 k PECH.CH_STAT_drop 4).chSet 0 k PECH.CH_CTRL_rx_line
    1).setCh 0 k ⟨true, some ⟨2 * k + 1, 0, 7, 0, k, 1, 0⟩, 0, false, false⟩) s
  { s with net := { s.net with plan := some wPlan } }
/-- A data frame to a rank on virtual channel 0. -/
def wFrame (dst vc typ len : Nat) (pay : Payload) : Frame :=
  ⟨dst, 0, 0, vc, typ, 0, false, false, false, false, false, 0, 4, 0, 0, len, 0, 0, false, pay⟩
def wHb : Frame := wFrame 1 0 2 0 .heartbeat
def wPortS (x : PortSt) : State := wNet.setPort 0 x
def wPort : PortSt := { portReset with credit := [1, 1, 1, 1, 1, 1, 1, 1] }
/-- Link 39, channel 15 with a ring in a state. -/
def wRg (r : Ring) (v : Nat) : State := w1.setRing 39 15 r v
/-- Photonic engine 4 lit by comb 0, its other comb sound or not, with or without automatic failover. -/
def wLit (b auto : Nat) : State :=
  (((w1.fset (peP 4) PE.PAGE_STAT_lit 1).fset (peP 4) PE.COMB_STAT_a_ok 1).fset (peP 4) PE.COMB_STAT_b_ok b).fset (peP 4)
    PE.COMB_CTRL_auto auto
/-- A side of link 39's channel 15 that serves, its link not shut. -/
def wServe : State :=
  let s := [(peP 4, PE.PAGE_CTRL_enable), (pechP 39, PECH.PAGE_CTRL_enable), (pechP 39, PECH.PAGE_STAT_mated),
    (peP 4, PE.SHUTTER_plug), (0, MODULE.SVC_STAT_latch)].foldl (fun s x => s.fset x.1 x.2 1) w1
  (s.chSet 39 15 PECH.CH_CTRL_tx_en 1).chSet 39 15 PECH.CH_CTRL_rx_en 1
/-- One block of the USER partition, its last. -/
def wFlash : State := (w1.fset flashP FLASH.FC_BLOCK_block 0x7FFFFFFF).fset flashP FLASH.FC_COUNT_blocks 1
def wCtx : Ctx :=
  ⟨1, 0, 2, 0, 0, 1, 0, 0, [0], false, 0, [], [], [], [], 0, 0, 0, false, false, [], [], [], [], none, false, false⟩
/-- A fan-out frame to rank 1 waiting on port 0, its channel in the plan. -/
def wFanF : Frame := { wFrame 1 2 0 0 .none with fanout := true }
def wFan : State :=
  let s := (wPortS { wPort with waiting := [wFanF] }).chSet 0 0 PECH.CH_CTRL_tx_line 1
  { s with net := { s.net with plan := some { wPlan with fans := [0x10001] } } }
/-- Channel 15 of the global link 39 locked, its decoder too. -/
def wGl : State :=
  let s := (((w1.fset 0 MODULE.PAGE_STAT_coord_valid 1).fset (linkP 39) LINK.PAGE_CTRL_enable 1).fset (peP 4)
    PE.PAGE_CTRL_enable 1).fset (pechP 39) PECH.PAGE_CTRL_enable 1
  (((s.chSet 39 15 PECH.CH_CTRL_rx_en 1).chSet 39 15 PECH.CH_STAT_drop 4).setCh 39 15 ⟨true, none, 0, false, false⟩)
/-- A link that probes, its plug in. -/
def wProbe (l : Nat) : State :=
  [(pechP l, PECH.PAGE_STAT_probing), (peP (l / 8), PE.SHUTTER_plug), (peP (l / 8), PE.PAGE_CTRL_enable),
    (peP (l / 8), PE.PAGE_STAT_lit), (0, MODULE.SVC_STAT_latch)].foldl (fun s x => s.fset x.1 x.2 1) w1
def wReplay : State := (wPortS { wPort with replay := [⟨wHb, false⟩] })
def wStg (n : Nat) (s : State) : State := { s with net := { s.net with stage := n, next := some (8, wPlan) } }
/-- A frame from rank 1 to this module, and its reception on channel 0 of link 0. -/
def wIn (vc typ : Nat) (pay : Payload) : Frame := { wFrame 0 vc typ 0 pay with src := 1, hopSrc := 1 }
def wRx (f : Frame) : Rx :=
  ⟨0, 0, true, (List.range (Frame.flits f)).map (Frame.tag f), (Frame.crc f).getD 0, 0, 0, f⟩
/-- The network up with credit granted on port 0. -/
def wUp : State := wPortS { wPort with granted := List.replicate 8 4 }
/-- What a state becomes by receiving a frame. -/
def wGot (s : State) (f : Frame) : State := (s.start.receive (wRx f)).1
/-- An open collective of ranks 0 and 1 on VC 2: sub-operation and own position. -/
def wCol (sub pos : Nat) : Ctx :=
  { wCtx with
    sub := sub, g := 2, pos := pos, ranks := [0, 1], outs := [⟨1, 1, false, false, true, 0, [], false⟩],
    ins := [⟨1, 1, false, false, false, 0⟩] }
/-- Its occurrence, with a source and a destination of one binary32 element. -/
def wColO : Occ := woct 1 0x10 .coll .running [some (wten 0 2 1 4), some (wten 0x1000 2 1 4), none, none]
def wRecO : Occ := woct 1 0x10 .coll .running [none, some (wten 0x1000 2 1 4), none, none]
/-- A state with an open collective. -/
def wWith (s : State) (c : Ctx) (o : Occ) : State :=
  { s with coll := { s.coll with ctxs := [c] }, seq := { s.seq with occs := [o], nextId := 100 } }
/-- An occurrence at the head of tile 0's queue 0 that wants a context on VC 2. -/
def wWant : Occ := { woct 1 0x10 .coll .checked [some (wten 0 2 1 4), some (wten 0x1000 2 1 4), none, none] with
  aux := [0, 2, 5, 6, 0] }
def wNx : Occ := { woct 1 0x318 .ve .checked [none, some (wten 0 0 1 1)] with aux := [0, 2, 5, 6, 0] }
/-- A SIGNAL at the head, to this module (0) or another rank. -/
def wSig (b : Nat) : Occ := wocc 1 (0x29 + b) .tseq .checked
def wSigN (rank : Nat) : Occ := wSig (rank * 2 ^ 192 + 2 ^ 223)
/-- A full table of opens that wait on VC 2. -/
def wFull : State :=
  { wUp with coll := { wUp.coll with pend := (List.range 256).map fun i => ⟨2, i + 1, 0, 2, ⟨6, 2, 1, 2, 1, 1, 0⟩⟩ } }
def wSeen : Ctx := { wCol 7 0 with seen := [(1, 0, 0)] }
def wTake : Ctx := { wCol 7 0 with ins := [⟨1, 1, false, true, true, 1⟩] }
/-- A receiving occurrence whose destination stands in stack 0, and that stack quiesced. -/
def wFarO : Occ := woct 1 0x10 .coll .running [none, some (wten 0x10000000000 2 1 4), none, none]
def wFarS : State := (wWith wUp wTake wFarO).fset (stkP 0) STK.PAGE_CTRL_quiesce 1
/-- A CLR in the snapshot unit's input for clearing 5 at L0, and the same with room for it. -/
def wClrO (p : Place) : Occ := { wocc 1 0x20 .snap p with aux := [5, 4, 0] }
def wRoom : State := (wsv [wClrO .input]).fset snapP SNAP.L0_CFG_size 1
/-- A clearing under way in this state. -/
def wCl (k : Clearing) (s : State) : State :=
  { s with snap := { s.snap with clr := some k }, seq := { s.seq with occs := [wClrO .running], nextId := 100 } }
/-- The clearing of 17 ranks at position 1, and of two at position 0, in a phase. -/
def wLeaf (ph : Nat) (sent : Bool) : Clearing :=
  { wClr with ranks := (List.range 17), pos := 1, phase := ph, sent := sent }
def wRoot (ph : Nat) : Clearing := { wClr with ranks := [0, 1], phase := ph }
def wBusy : State := { wCl wClr w1 with seq := { w1.seq with occs := [wClrO .running, wocc 2 0 .tseq .checked] } }
/-- Flash with a pinned copy in each place of layer 2. -/
def wKept : State :=
  { w1 with flash := { w1.flash with copies := l2Places.map fun b => ⟨7, b, 0, true⟩ } }
/-- Paired with rank 1, the partner space of one GiB per stack. -/
def wPaired (s : State) : State :=
  let s := ((s.fset snapP SNAP.PAIR_STAT_state 2).fset snapP SNAP.PAIR_rank 1).fset snapP SNAP.PART_CFG_size 1
  { s with snap := { s.snap with pairTo := 1 } }
/-- A MARK in a place, its record's end in the trail at byte 10, over a trail of one MiB. -/
def wMark (p : Place) : Occ := { wocc 1 0x21 .trail p with aux := [10], tens := [none] }
def wTrail : State := (wsv [wMark .input]).fset trailP TRAIL.TRAIL_SIZE_mib 1
/-- The trail being replayed, the record that the MARK makes standing where the replay is. -/
def wVer : State :=
  let s := wTrail.fset trailP TRAIL.PAGE_STAT_verify 1
  { s with mem := ((recordBytes (s.markRecord (wMark .input))).zipIdx).foldl (fun m x =>
      m.write (wbytes (s.ringAddr (s.pair trailP TRAIL.REPLAY_POS_LO_bytes + x.2)) x.1 false 1)) s.mem }
def wSnapS (c : Clearing) : State := wCl c (wPaired wUp)
/-- Heartbeats on, watching rank 1, which is lost after three missed periods. -/
def wHbS : State := ((wPaired wUp).fset snapP SNAP.HB_CFG_en 1).fset snapP SNAP.HB_CFG_miss 3
def wMiss (n : Nat) : State := { wHbS with snap := { wHbS.snap with misses := [(1, n)] } }
def wAsk : State :=
  let s := (wUp.fset snapP SNAP.PAIR_STAT_state 1).fset snapP SNAP.PAIR_rank 1
  { s with snap := { s.snap with pairTo := 1 } }
def wThird : State := { wUp with snap := { wUp.snap with pairRec := [⟨2, 0, 0, 0, 0⟩] } }
def wLost : State := { wUp with snap := { wUp.snap with lost := [1] } }
def wRes (x : Restore) : State := { wPaired wUp with snap := { (wPaired wUp).snap with restore := some x } }
def wCode (n : Nat) : State := w1.fset snapP SNAP.RESTORE_STAT_code n
def wr (arrived : Bool) : Restore := ⟨1, 5, 0, [], [], arrived⟩
/-- The header of a copy of clearing 5 with no region, its CRC-32C `v`, and without it. -/
def wHdrOf (v : Nat) : List (Nat × Nat) :=
  [(0, 0x31), (1, 0x52), (2, 0x4C), (3, 0x43), (4, v % 256), (5, v / 256 % 256), (6, v / 65536 % 256),
    (7, v / 16777216 % 256), (8, 5), (32, 1)]
def wHdr0 : Nat → Nat := sparseGet (fun _ => 0) [(0, 0x31), (1, 0x52), (2, 0x4C), (3, 0x43), (8, 5), (32, 1)]
theorem crcBit_lt (c : Nat) (h : c < 2 ^ 32) : crcBit c < 2 ^ 32 := by
  unfold crcBit
  split
  · exact Nat.xor_lt_two_pow (by omega) (by decide)
  · omega
theorem crc_lt (l : List Nat) (hl : ∀ b ∈ l, b < 256) : ∀ c, c < 2 ^ 32 → l.foldl crcByte c < 2 ^ 32 := by
  induction l with
  | nil => exact fun _ h => h
  | cons b l ih =>
    intro c h
    have hb : b < 2 ^ 32 := Nat.lt_trans (hl b (by simp)) (by decide)
    refine ih (fun b hb => hl b (by simp [hb])) _ ?_
    iterate 8 refine crcBit_lt _ ?_
    exact Nat.xor_lt_two_pow h hb
theorem crc32c_lt (l : List Nat) (hl : ∀ b ∈ l, b < 256) : crc32c l < 2 ^ 32 := by
  have h := crc_lt l hl 0xFFFFFFFF (by decide)
  unfold crc32c
  generalize l.foldl crcByte 0xFFFFFFFF = x at h ⊢
  exact Nat.xor_lt_two_pow h (by decide)
theorem crc_map (n : Nat) (f g : Nat → Nat) (h : ∀ i, f i = g i) :
    crc32c ((List.range n).map f) = crc32c ((List.range n).map g) := by rw [funext h]
theorem hdr_crc (v : Nat) (hv : v < 2 ^ 32) : leAt (sparseGet (fun _ => 0) (wHdrOf v)) 4 4 = v := by
  simp only [leAt, wHdrOf, List.range, List.range.loop, List.foldr, sparseGet]
  simp
  omega
theorem hdr_rest (v i : Nat) : (if 4 ≤ i ∧ i < 8 then 0 else sparseGet (fun _ => 0) (wHdrOf v) i) = wHdr0 i := by
  split
  · next h =>
    simp [wHdr0, sparseGet, show i ≠ 0 by omega, show i ≠ 1 by omega, show i ≠ 2 by omega, show i ≠ 3 by omega,
      show i ≠ 8 by omega, show i ≠ 32 by omega]
  · next h =>
    simp only [wHdrOf, wHdr0, sparseGet, show i ≠ 4 by omega, show i ≠ 5 by omega, show i ≠ 6 by omega,
      show i ≠ 7 by omega, if_false]
theorem header_ok (v : Nat) (hv : v < 2 ^ 32) (h : crc32c ((List.range 0x2000).map wHdr0) = v) :
    headerOk (sparseGet (fun _ => 0) (wHdrOf v)) = true := by
  unfold headerOk
  rw [Bool.and_eq_true, decide_eq_true_eq, decide_eq_true_eq]
  have e : ∀ n, crc32c ((List.range n).map fun i => if 4 ≤ i ∧ i < 8 then 0 else sparseGet (fun _ => 0) (wHdrOf v) i) =
      crc32c ((List.range n).map wHdr0) := fun n => crc_map n _ _ (hdr_rest v)
  rw [e, h]
  refine ⟨?_, hdr_crc v hv⟩
  simp [leAt, wHdrOf, sparseGet, List.range, List.range.loop]
theorem sparse_lt (m : List (Nat × Nat)) (h : ∀ x ∈ m, x.2 < 256) (i : Nat) : sparseGet (fun _ => 0) m i < 256 := by
  induction m with
  | nil => exact (by decide : 0 < 256)
  | cons x m ih =>
    rw [sparseGet]
    split
    · exact h x (by simp)
    · exact ih fun y hy => h y (by simp [hy])
theorem hdr0_lt (n : Nat) : ∀ b ∈ (List.range n).map wHdr0, b < 256 := by
  intro b hb
  obtain ⟨i, -, rfl⟩ := List.mem_map.mp hb
  exact sparse_lt _ (by decide) i
def wCrc (n : Nat) : Nat := crc32c ((List.range n).map wHdr0)
theorem wCrc_lt (n : Nat) : wCrc n < 2 ^ 32 := crc32c_lt _ (hdr0_lt n)
def wHdr : List (Nat × Nat) := wHdrOf (wCrc 0x2000)
theorem wHdr_ok : headerOk (sparseGet (fun _ => 0) wHdr) = true := header_ok (wCrc 0x2000) (wCrc_lt _) rfl
def wBack : Restore := ⟨1, 5, 0, wHdr, [], true⟩
def wBackS : State := { w1 with snap := { w1.snap with restore := some wBack } }
def wHdrB : Nat → Nat := sparseGet (fun _ => 0) wHdr
/-- What a fold keeps, each of its steps keeping it. -/
theorem foldl_same {α β γ : Type} (g : α → γ) (f : α → β → α) (h : ∀ a b, g (f a b) = g a) (l : List β) :
    ∀ a, g (l.foldl f a) = g a := by
  induction l with
  | nil => exact fun _ => rfl
  | cons b l ih => exact fun a => (ih _).trans (h a b)
theorem skew_same (s t : State) (P : Nat) (h : (s.rf, s.fuses) = (t.rf, t.fuses)) : s.skewOf P = t.skewOf P := by
  obtain ⟨hr, hf⟩ := Prod.mk.inj h
  cases s; cases t; subst hr; subst hf; rfl
/-- What a restore makes of the register file: the semaphores and slots are no part of it. -/
theorem onTiles_rf (s : State) (i : Nat) (f : Slot → Slot) : ((s.onTiles i f).rf, (s.onTiles i f).fuses) = (s.rf, s.fuses) :=
  foldl_same (fun s : State => (s.rf, s.fuses)) (fun (s : State) t => s.setSlot t i (f (s.slotOf t i))) (fun _ _ => by simp only [setSlot]) _ _
def wTile (b : Nat → Nat) (s : State) (t : Nat) : State :=
  let o := 0x52000 + 0x8000 * t
  let p := pageNum .rng t
  let s := (s.setPair p RNG.JOB_KEY_LO_key (leAt b o 8)).fset p RNG.STEP_value (leAt b (o + 8) 4)
  (List.range 8).foldl (fun (s : State) n =>
    ((s.setDraw t n (leAt b (o + 12 + 8 * n) 8)).fset p (RNG.SEQ_CFG_per_step.plus (16 * n)) (leAt b (o + 76 + 4 * n) 4)).fset p
      (RNG.SEQ_BASE_step.plus (16 * n)) (leAt b (o + 108 + 4 * n) 4)) s
def wX : State := { wBackS with fuses := { w1.fuses with member := .xsc1 } }
def wFin (s : State) : State :=
  let s := (s.setPair (pageNum .norm 0) NORM.NORM_MAX_LO_value (hdrNormMax wHdrB)).setPair collP COLL.JOB_KEY_LO_key (hdrJobKey wHdrB)
  { s with scale := { s.scale with watch := [] } }
theorem end_same (s t : State) (h : (s.rf, s.fuses) = (t.rf, t.fuses)) : ((wFin s).rf, (wFin s).fuses) = ((wFin t).rf, (wFin t).fuses) := by
  obtain ⟨hr, hf⟩ := Prod.mk.inj h
  cases s; cases t; subst hr; subst hf; rfl
/-- The slots and semaphores put back. -/
def wRest (n : Nat) (s : State) : State :=
  (List.range n).foldl (fun s i => s.onTiles i fun _ => Slot.ofRecord (leAt wHdrB (0x2000 + 80 * i) 80))
    ((List.range n).foldl (fun (s : State) n => s.setSem 0 n (leAt wHdrB (0x52000 + 0x8000 * 0 + 0x1000 + 4 * n) 4)) s)
theorem rest_same (n : Nat) (s : State) : ((wRest n s).rf, (wRest n s).fuses) = (s.rf, s.fuses) :=
  (foldl_same (fun s : State => (s.rf, s.fuses)) (fun s i => s.onTiles i fun _ => Slot.ofRecord (leAt wHdrB (0x2000 + 80 * i) 80))
    (fun s i => onTiles_rf s i _) (List.range n) _).trans
    (foldl_same (fun s : State => (s.rf, s.fuses)) (fun (s : State) n => s.setSem 0 n (leAt wHdrB (0x52000 + 0x8000 * 0 + 0x1000 + 4 * n) 4))
      (fun _ _ => by simp only [setSem]) (List.range n) s)
theorem back_eq : wX.restoreState wHdrB = wFin (wRest 4096 (wTile wHdrB wX 0)) := by
  have h : List.range (Member.tiles wX.member) = [0] := by decide
  unfold State.restoreState wFin wRest wTile
  simp only [h, List.foldl]
theorem put_back : ((wX.restoreState wHdrB).rf, (wX.restoreState wHdrB).fuses) = ((wFin (wTile wHdrB wX 0)).rf, (wFin (wTile wHdrB wX 0)).fuses) := by
  rw [back_eq]
  exact end_same _ _ (rest_same 4096 _)
set_option maxRecDepth 100000 in
theorem skew0 : (wFin (wTile wHdrB wX 0)).skewOf (hdrDataPos wHdrB) = none := by decide
theorem passes : RestorePasses wX (copiedBack wX wBack wHdrB fun i => ([] : List Nat).contains (i / 8)) wBack wHdrB fun i => ([] : List Nat).contains (i / 8) := by
  refine ⟨by simp, by decide, by decide, by decide, by decide, ?_⟩
  have h : copiedBack wX wBack wHdrB (fun i => ([] : List Nat).contains (i / 8)) = wX.restoreState wHdrB := by
    rw [copiedBack, if_pos (show wBack.src = 1 from rfl)]
  rw [h, skew_same _ _ _ put_back, skew0]

/-! ### Tests: the spec's own examples -/

set_option maxRecDepth 1000000 in
/-- 08 R202's check value. -/
theorem test_philox_check_value :
    philox 0 0 = ⟨0x6627E8D5, 0xE169C58D, 0xBC57AC4C, 0x9B00DBD8⟩ := by decide

set_option maxRecDepth 1000000 in
/-- 08 R206's counter words. -/
theorem test_philox_counter_words : philoxCtr 0x0102 7 3000000 = 0x0102000000070000_0000002DC6C00000 := by decide

set_option maxRecDepth 1000000 in
/-- 02, worked conversions to FP16. -/
theorem test_fp16_below_the_limit : (converted 2 1 0 0 .rne false 0x477FEF00).code = 0x7BFF ∧
    (converted 2 1 0 0 .rne false 0x477FEF00).saturated = false := by decide
set_option maxRecDepth 1000000 in
theorem test_fp16_saturates : (converted 2 1 0 0 .rne false 0x477FF000).code = 0x7BFF ∧
    (converted 2 1 0 0 .rne false 0x477FF000).saturated = true := by decide
set_option maxRecDepth 1000000 in
theorem test_fp16_overflows : (converted 2 1 0 0 .rne true 0x477FF000).code = 0x7C00 ∧
    (converted 2 1 0 0 .rne true 0x477FF000).overflow = true := by decide
set_option maxRecDepth 1000000 in
theorem test_fp16_underflows : (converted 2 1 0 0 .rne false 0x33400000).code = 1 ∧
    (converted 2 1 0 0 .rne false 0x33400000).underflow = true ∧ (converted 2 1 0 0 .rne false 0x32800000).code = 0 := by
  decide

set_option maxRecDepth 1000000 in
/-- 02, worked conversions from M48 and BIN64. -/
theorem test_m48_rounds_to_even : (converted 3 2 0 0 .rne false 0x3F8000008000).code = 0x3F800000 ∧
    (converted 3 2 0 0 .rne false 0x3F8000018000).code = 0x3F800002 := by decide
set_option maxRecDepth 1000000 in
theorem test_bin64_to_m48_is_exact : (converted 4 3 0 0 .rne false 0x3FF0000000400000).code = 0x3F8000000200 ∧
    (converted 4 2 0 0 .rne false 0x3FF0000000400000).code = 0x3F800000 := by decide

set_option maxRecDepth 1000000 in
/-- 03, worked group sum. -/
theorem test_group_sum : groupValues true ([(0x3C00, 0x3C00), (0x0400, 0x1000), (0x0001, 0x0200), (0xBC00, 0x3400)].map
    fun x => (decodeFmt 1 0 x.1, decodeFmt 1 0 x.2)) = [⟨0x3F400000, false⟩] := by decide

set_option maxRecDepth 1000000 in
/-- 05, worked check bits. -/
theorem test_check_bits : remPow 15 = 0x4599 ∧ remPow 16 = 0x4EAB := by decide

set_option maxRecDepth 1000000 in
/-- 01, worked addresses. -/
theorem test_worked_addresses : region .xsm8 0x01A280000000 = .stack 5 0x280000000 ∧
    pageNum .tseq 3 = 0x1C0 ∧ region .xsm8 0x0003FFFFFFFF = .understory 7 0x7FFFFFFF := by decide

set_option maxRecDepth 1000000 in
/-- 08, scale rule examples for the target 32,752. -/
theorem test_scale_rule : (scaleRule 0x406CCCCD 0x46FFE000 0).1 = 13 ∧ (scaleRule 0x46FFE000 0x46FFE000 5).1 = 0 ∧
    (scaleRule 0x47000000 0x46FFE000 0).1 = -1 ∧ (scaleRule 0x47C35000 0x46FFE000 0).1 = -2 ∧
    scaleRule 0x0D800000 0x46FFE000 0 = (80, true) := by decide

set_option maxRecDepth 1000000 in
/-- 08, worked norm across two modules. -/
theorem test_worked_norm : (accumulated clearRec [decodeFmt 2 0 0x40400000, decodeFmt 2 0 1]).la = 9 * 2 ^ 298 + 1 ∧
    (⟨25 * 2 ^ 298 + 1, 0, 0, false, 4⟩ : NormRec).final 0x3FF0000000000000 =
      (0x4039000000000000, 0x4014000000000000, 0x3FC999999999999A) := by decide

/-! ### Tests: steps -/

set_option maxRecDepth 1000000 in
theorem test_step_idles : (match step State.reset with | .next t => t.now | _ => 0) = 1 := by decide
set_option maxRecDepth 1000000 in
/-- A doorbell at the front of the queue is taken, and leaves the queue. -/
theorem test_step_takes_the_front :
    (match step { wQueue with pending := [.doorbell .ranger 0 0 16, .wakePin] } with
      | .next t => (t.pending, t.qTail 0 0) | _ => ([], 0)) = ([.wakePin], 16) := by decide
set_option maxRecDepth 1000000 in
/-- 15, worked cap cut: a cap of 500 W sets 900 W and raises CAP_BELOW_FLOOR. -/
theorem test_cap_floor : (match exec (.capWrite .ranger 500) w1 with
    | .next t => (t.fget pwrP PWR.CAP_watts, t.err.fifo.map fun e => e.code) | _ => (0, [])) = (900, [0xB5]) := by decide

/-- An XSM-4-288 in service. -/
def w4 : State := { w1 with fuses := { w1.fuses with member := .xsm4 } }
/-- What reading a register of 4 bytes answers there. -/
def tRead (page off : Nat) : List Output :=
  match exec (.rcRead .ranger page off 4) w4 with | .next t => t.out | _ => []
set_option maxRecDepth 1000000 in
/-- 18, worked discovery on an XSM-4-288. -/
theorem test_discovery_present : tRead 0 0 = [.readData .ranger 0x00010001] ∧
    tRead 0 4 = [.readData .ranger 0x062B0F0F] ∧ tRead 0x143 0 = [.readData .ranger 0x00110601] ∧
    tRead 0x146 0 = [.readData .ranger 0x00130101] := by decide
set_option maxRecDepth 1000000 in
theorem test_discovery_absent : tRead 0x246 0 = [.readData .ranger 0] ∧ tRead 0x640 0 = [.readData .ranger 0] ∧
    tRead 0x380 0 = [.readData .ranger 0] := by decide
set_option maxRecDepth 1000000 in
theorem test_decode_spells_nothing : decodeTableWord 8 0 = none := by decide

/-! ### Ill-formed commands are refused: one for each check of each command -/

def tRx : Rx := wRx wHb
def tTrain : TrainRec := ⟨0, 0, 0, 0, 0, 0, 0⟩
def tBoot : BootInfo := wFind true

set_option maxRecDepth 1000000 in
theorem test_wf_refuses_1 : ([
    .registerWrite .ranger 4096 0 0 0, .registerWrite .ranger 0 4096 0 0, .registerWrite .ranger 0 0 4097 0,
    .registerWrite .ranger 0 0 4 (256 ^ 4), .rcRead .ranger 4096 0 0, .rcRead .ranger 0 4096 0,
    .rcRead .ranger 0 0 4097, .pairLowRead .ranger 4096 0, .pairLowRead .ranger 0 4096,
    .pairLowWrite .ranger 4096 0 0, .pairLowWrite .ranger 0 4096 0, .pairLowWrite .ranger 0 0 (2 ^ 32),
    .pairHighWrite .ranger 4096 0 0, .pairHighWrite .ranger 0 4096 0, .pairHighWrite .ranger 0 0 (2 ^ 64),
    .pageErrCntRead .ranger 4096, .pageEvtEnWrite .ranger 4096 0, .pageEvtEnWrite .ranger 0 (2 ^ 32),
    .calDataRead .ranger 5, .pcieMemoryWrite (2 ^ 41) [] true, .pcieMemoryWrite 0 [256] true,
    .pcieMemoryRead (2 ^ 41) 0 [], .pcieMemoryRead 0 0 [(0, 160)], .pcieConfigAccess ⟨.read 4096, 0⟩,
    .corrqRewrite (2 ^ 40), .scrubAccess 8 true 0 [], .scrubAccess 0 true 0 [(0, 160)], .scrubLate 8 true,
    .stackTempRead 8 0, .spadSoftReset .ranger 8, .spadClassSel .ranger 8 0, .spadClassSel .ranger 0 8,
    .scrubEnable .ranger 8 true, .scrubSoftReset .ranger 8, .scrubQuiesce .ranger 8 true, .stkSoftReset .ranger 8,
    .stkQuiesce .ranger 8 true, .queueRingWrite .ranger 8 0 .base 0, .queueRingWrite .ranger 0 8 .base 0,
    .queueRingWrite .ranger 0 0 .base (2 ^ 64), .queueEnable .ranger 8 0, .queueEnable .ranger 0 8,
    .queueDisable .ranger 8 0, .queueDisable .ranger 0 8, .queueReset .ranger 8 0, .queueReset .ranger 0 8,
    .doorbell .ranger 8 0 0, .doorbell .ranger 0 8 0, .doorbell .ranger 0 0 (2 ^ 32), .descFetch 8 0, .descFetch 0 8,
    .dispatch 8 0, .dispatch 0 8, .handOver 8 0, .handOver 0 8, .contextGrant 8, .descComplete 8 0, .nop 8 0,
    .nop 0 8, .wait 8 0] : List Instr).all (fun i => !i.wf) = true := by decide

set_option maxRecDepth 1000000 in
theorem test_wf_refuses_2 : ([
    .wait 0 8, .signal 8 0, .signal 0 8, .fence 8 0, .fence 0 8, .fenceComplete 8 0, .fenceComplete 0 8,
    .repeatLoop 8 0, .repeatLoop 0 8, .repeatComplete 8 0, .repeatComplete 0 8, .qWaitLimitExpire 8 0,
    .qWaitLimitExpire 0 8, .semSet .ranger 8 0, .semSet .ranger 0 (2 ^ 32), .semAdd .ranger 8 0,
    .semAdd .ranger 0 (2 ^ 32), .tseqEnable .ranger 8 true, .tseqQuiesce .ranger 8 true, .tseqSoftReset .ranger 8,
    .semClear .ranger 8, .matmul 8 0 0, .matmul 0 4 0, .drain 8 0, .drain 0 4, .blockDrain 8 0, .blockDrain 0 4,
    .teEnable .ranger 32 true, .teQuiesce .ranger 32 true, .teSoftReset .ranger 32, .move 8 [], .move 0 [(0, 160)],
    .stash 8, .unstash 8, .gatherAhead 8 0, .gatherAhead 0 (2 ^ 32), .dmaEnable .ranger 8 true,
    .dmaQuiesce .ranger 8 true, .dmaSoftReset .ranger 8, .vecAdd 8, .vecSub 8, .vecMul 8, .vecFma 8, .vecDiv 8,
    .vecSqrt 8, .vecMax 8, .vecMin 8, .vecAbs 8, .vecNeg 8, .vecSel 8, .vecCvt 8, .vecFill 8, .vecRsqrt 8, .vecExp2 8,
    .vecLog2 8, .vecTanh 8, .vecGelu 8, .vecSilu 8, .vecGeluBwd 8, .vecSiluBwd 8] : List Instr).all (fun i => !i.wf) = true := by decide

set_option maxRecDepth 1000000 in
theorem test_wf_refuses_3 : ([
    .vecExp2sub 8, .vecRescaleAdd 8, .vecCmp 8, .vecBittest 8, .vecMand 8, .vecMor 8, .vecMxor 8, .vecMandn 8,
    .vecRsum 8, .vecRmax 8, .vecRmin 8, .vecRamax 8, .vecTopk 8, .optAdamw 8, .optSgdm 8, .veEnable .ranger 8 true,
    .veQuiesce .ranger 8 true, .veSoftReset .ranger 8, .rngBits 8, .rngUniform 8, .rngNormal 8, .rngBernoulli 8,
    .rngSetStep 8, .rngJobKeyWrite .ranger 8 0, .rngJobKeyWrite .ranger 0 (2 ^ 64), .rngStepWrite .ranger 8 0,
    .rngStepWrite .ranger 0 (2 ^ 32), .rngDrawWrite .ranger 8 0 0, .rngDrawWrite .ranger 0 8 0,
    .rngDrawWrite .ranger 0 0 (2 ^ 64), .rngRealign .ranger 8, .rngEnable .ranger 8 true, .rngQuiesce .ranger 8 true,
    .rngSoftReset .ranger 8, .scaleExport 8, .scalePush 8, .scaleSetTarget 8, .scaleSave 8, .scaleLoad 8,
    .scaleWatchExport 8, .scaleEnable .ranger 8 true, .scaleQuiesce .ranger 8 true, .scaleSoftReset .ranger 8,
    .watchIdxWrite .ranger 8 0 true, .watchIdxWrite .ranger 0 4096 true, .watchSoftReset .ranger 8, .normClear 8,
    .normAccumulate 8, .normExchange 8, .normFinal 8, .collAllreduce 8 0 0, .collAllreduce 0 (2 ^ 32) 0,
    .collAllreduce 0 0 65536, .collReduceScatter 8 0 0, .collReduceScatter 0 (2 ^ 32) 0, .collReduceScatter 0 0 65536,
    .collAllgather 8 0 0, .collAllgather 0 (2 ^ 32) 0, .collAllgather 0 0 65536, .collBroadcast 8 0 0] : List Instr).all (fun i => !i.wf) = true := by decide

set_option maxRecDepth 1000000 in
theorem test_wf_refuses_4 : ([
    .collBroadcast 0 (2 ^ 32) 0, .collBroadcast 0 0 65536, .collAlltoall 8 0 0, .collAlltoall 0 (2 ^ 32) 0,
    .collAlltoall 0 0 65536, .collSend 8 0 0, .collSend 0 (2 ^ 32) 0, .collSend 0 0 65536, .collRecv 8 0 0,
    .collRecv 0 (2 ^ 32) 0, .collRecv 0 0 65536, .chainPass 8 0 0, .chainPass 0 (2 ^ 32) 0, .chainPass 0 0 65536,
    .groupLoad .ranger 4096, .groupBaseWrite .ranger true (2 ^ 64), .collJobKeyWrite .ranger (2 ^ 64),
    .reportBaseWrite .ranger (2 ^ 40), .openReceive { tRx with link := 40 }, .acceptReceive { tRx with link := 40 },
    .nakReceived { tRx with link := 40 }, .retryReceive { tRx with link := 40 }, .openRetryTimeout 8 0 0 0,
    .openRetryTimeout 0 (2 ^ 32) 0 0, .openRetryTimeout 0 0 65536 0, .openRetryTimeout 0 0 0 65536,
    .dataReceive { tRx with link := 40 }, .portDownEnd 255, .closeReceive { tRx with link := 40 },
    .abortReceive { tRx with link := 40 }, .creditReceive { tRx with link := 40 },
    .ackReceive { tRx with link := 40 }, .replayReqReceive { tRx with link := 40 },
    .signalReceive { tRx with link := 40 }, .signalAckReceive { tRx with link := 40 },
    .mgmtFrameReceive { tRx with link := 40 }, .frameTransmit 255, .frameIncompleteTimeout 40 0 0 0,
    .frameIncompleteTimeout 0 16 0 0, .ackTimer 255, .replayTimeout 255, .combFailover 5, .combSelect .ranger 5 0,
    .combSelect .ranger 0 2, .lineFailed 5 0, .lineFailed 0 64, .lockLost 40 0 .sel, .lockLost 0 16 .sel,
    .ringAcquireDone 40 0 .sel, .ringAcquireDone 0 16 .sel, .ringAcquireFail 40 0 .sel, .ringAcquireFail 0 16 .sel,
    .ringScanDone 40 0 .sel, .ringScanDone 0 16 .sel, .ringVerifyDone 40 0 .sel 0, .ringVerifyDone 0 16 .sel 0,
    .ringVerifyDone 0 0 .sel 64, .ringLightLost 40 0 .sel, .ringLightLost 0 16 .sel, .ringLightRestored 40 0 .sel] : List Instr).all (fun i => !i.wf) = true := by decide

set_option maxRecDepth 1000000 in
theorem test_wf_refuses_5 : ([
    .ringLightRestored 0 16 .sel, .chRetired 40 0 true, .chRetired 0 16 true, .chRevive .ranger 40 0,
    .chRevive .ranger 0 16, .pilotWindow 40 0 .sel 0, .pilotWindow 0 16 .sel 0, .pilotWindow 0 0 .sel 64,
    .thermalHoldEnd 5, .meshCommit .ranger 5, .meshCommitDone 5, .meshCal .ranger 5, .meshCalDone 5 true,
    .meshTrim 5 [], .meshTrim 0 [(64, 0)], .monitorLow 40 0 0 0 true, .monitorLow 0 16 0 0 true,
    .monitorLow 0 0 16 0 true, .plugSensorChange 5 true, .lossOfSignal 40, .probePulse 40, .probeLightDetect 40 true,
    .probeResponseEnd 40, .shutterForce .ranger 5 0, .shutterForce .ranger 0 256, .peEnable .ranger 5 true,
    .peSoftReset .ranger 5, .peQuiesce .ranger 5 true, .pechEnable .ranger 40 true, .pechSoftReset .ranger 40,
    .pechQuiesce .ranger 40 true, .linkOptTest .ranger 40 true, .linkOptPark .ranger 40 true, .trainSend 40 0,
    .trainSend 0 16, .trainReceive 40 0 tTrain, .trainReceive 0 16 tTrain,
    .trainReceive 0 0 { tTrain with channel := 16 }, .linkEnable .ranger 40 true, .linkSoftReset .ranger 40,
    .linkQuiesce .ranger 40 true, .portFailover 65536 0, .portFailover 0 8, .portFailback 65536 0, .portFailback 0 8,
    .barrierRecordReceive { tRx with link := 40 }, .barrierVerdictReceive { tRx with link := 40 },
    .l1AckReceive { tRx with link := 40 }, .snapshotFrameReceive { tRx with link := 40 },
    .trailMirrorReceive { tRx with link := 40 }, .pairGo .ranger 65536, .pairRecordReceive { tRx with link := 40 },
    .mirrorAckReceive { tRx with link := 40 }, .heartbeatReceive { tRx with link := 40 }, .heartbeatMiss 65536,
    .lostNoticeReceive { tRx with link := 40 }, .restoreGo .ranger 4 0, .restoreGo .ranger 0 65536, .hubCtrlUc 42 0,
    .unitState 8 0] : List Instr).all (fun i => !i.wf) = true := by decide

set_option maxRecDepth 1000000 in
theorem test_wf_refuses_6 : ([
    .unitState 0 12, .railFault 256, .clockLoss 29, .pwrReq .ranger 8, .wakeStepTimeout 256 0, .wakeStepTimeout 0 16,
    .capWrite .ranger 8192, .powerControlTick 65536 0 0 [], .dieTempSample 8 0, .thermalSensorSample 34 0,
    .tclkDivWrite .ranger (2 ^ 32), .tclkChange 8, .tclkChangeDone 8, .domainIdleStop 4096, .bootStageDone 16 tBoot,
    .setCoord .ranger true (2 ^ 32) 0, .setCoord .ranger true 0 (2 ^ 32), .readReg .ranger true (2 ^ 32) 0,
    .readReg .ranger true 0 (2 ^ 32), .writeReg .ranger true (2 ^ 32) 0 0, .writeReg .ranger true 0 (2 ^ 32) 0,
    .writeReg .ranger true 0 0 (2 ^ 32), .mgmtPwrReq .ranger true (2 ^ 32), .reset .ranger true (2 ^ 32),
    .fwWrite .ranger true (2 ^ 48) 0, .fwWrite .ranger true 0 (2 ^ 32), .fwActivate .ranger true (2 ^ 32),
    .dbgRequest .ranger 4, .phyCheck 8 true, .phyRetrainDone 8 true 0, .stkphySoftReset .ranger 8,
    .fecDecoderLock 40 0 true, .fecDecoderLock 0 16 true, .restoreRequestReceive { tRx with link := 40 },
    .restoreFrameReceive { tRx with link := 40 }] : List Instr).all (fun i => !i.wf) = true := by decide

set_option maxRecDepth 1000000 in
theorem test_wf_refuses_frames : ([{ tRx with chan := 16 }, { tRx with frame := { wHb with dst := 65536 } },
    { tRx with frame := { wHb with src := 65536 } }, { tRx with frame := { wHb with vc := 8 } },
    { tRx with frame := { wHb with typ := 32 } }, { tRx with frame := { wHb with seq := 2 ^ 24 } },
    { tRx with frame := { wHb with len := 4097 } },
    { tRx with crc := 2 ^ 32 }, { tRx with tags := [2 ^ 16] }] : List Rx).all (fun r => !r.wf) = true := by decide

set_option maxRecDepth 1000000 in
theorem test_wf_refuses_training : ([{ tTrain with link := 40 }, { tTrain with txLine := 64 }] : List TrainRec).all
    (fun r => !r.wf) = true := by decide

set_option maxRecDepth 1000000 in
theorem test_wf_refuses_upsets : upsetsWf [(2 ^ 40, 0)] = false := by decide

set_option maxRecDepth 1000000 in
theorem test_wf_admits : ([.nop 7 7, .errAck .pcie, .openReceive tRx, .trainReceive 39 15 tTrain, .frameTransmit 254] :
    List Instr).all (fun i => i.wf) = true := by decide

/-! ### Witnesses: the hypotheses of each clause are met together -/

set_option maxRecDepth 1000000 in
theorem wit_empty_queue_ticks_0 :
    ∃ (s : State), (s.pending = []) :=
  ⟨w0, by decide⟩

set_option maxRecDepth 1000000 in
theorem wit_every_step_keeps_sound_0 :
    ∃ (s : State) (t : State), (Sound s) ∧ (step s = .next t) :=
  ⟨w0, { w0 with now := 1 }, ⟨by decide, by decide, fun _ => by show 0 ≤ 16; decide, by decide⟩, rfl⟩

set_option maxRecDepth 1000000 in
theorem wit_fuses_change_only_by_security_version_0 :
    ∃ (c : Instr) (s : State) (t : State), (s.fuses.svn ≤ 64) ∧ (exec c s = .next t) :=
  ⟨.nop 0 0, w0, w0, by decide, rfl⟩

set_option maxRecDepth 1000000 in
theorem wit_control_field_writes_take_effect_0 :
    ∃ (c : Instr) (port : Port) (ty : PageType) (i : Nat) (f : Fd) (v : Nat) (s : State), (ctrlField c = some (port,
      ty, i, f, v)) ∧ (Open s port ty i) :=
  ⟨.dmaEnable .ranger 7 true, .ranger, .dma, 7, DMA.PAGE_CTRL_enable, 1, w1, by decide⟩

set_option maxRecDepth 1000000 in
theorem wit_control_field_writes_take_effect_0a :
    ∃ (c : Instr) (port : Port) (ty : PageType) (i : Nat) (f : Fd) (v : Nat) (s : State), (ctrlField c = some (port,
      ty, i, f, v)) ∧ (Open s port ty i) :=
  ⟨.shutterForce .mgmt 4 255, .mgmt, .pe, 4, PE.SHUTTER_force, 255, w1, by decide⟩

set_option maxRecDepth 1000000 in
theorem wit_memory_and_queue_soft_resets_0 :
    ∃ (s : State) (port : Port) (tile : _), (Open s port .spad tile) :=
  ⟨w1, .ranger, 7, by decide⟩

set_option maxRecDepth 1000000 in
theorem wit_memory_and_queue_soft_resets_1 :
    ∃ (s : State) (port : Port) (stack : _), (Open s port .stk stack) ∧ (s.snap.inbox = []) :=
  ⟨w1, .ranger, 7, by decide⟩

set_option maxRecDepth 1000000 in
theorem wit_memory_and_queue_soft_resets_2 :
    ∃ (s : State) (port : Port) (tile : _), (Open s port .scrub tile) :=
  ⟨w1, .ranger, 7, by decide⟩

set_option maxRecDepth 1000000 in
theorem wit_memory_and_queue_soft_resets_3 :
    ∃ (s : State) (port : Port) (tile : _), (Open s port .tseq tile) ∧ (s.tseqQuiesced tile = true) :=
  ⟨wTseqQuiet, .ranger, 0, by decide⟩

set_option maxRecDepth 1000000 in
theorem wit_memory_and_queue_soft_resets_4 :
    ∃ (s : State) (port : Port) (tile : _), (Open s port .tseq tile) ∧ (s.tseqQuiesced tile = true) :=
  ⟨wTseqQuiet, .ranger, 0, by decide⟩

set_option maxRecDepth 1000000 in
theorem wit_memory_and_queue_soft_resets_5 :
    ∃ (s : State) (port : Port) (tile : _) (q : _), (Open s port .tseq tile) ∧ (q < 8) ∧
      (s.qEnabled tile q = false) ∧ (s.qIdle tile q = true) ∧
        (4 ≤ s.fget (tseqP tile) (qfd TSEQ.Q_CTRL_size_log2 q)) ∧
          (s.fget (tseqP tile) (qfd TSEQ.Q_CTRL_size_log2 q) ≤ 16) :=
  ⟨wRing, .ranger, 7, 7, by decide⟩

set_option maxRecDepth 1000000 in
theorem wit_memory_and_queue_soft_resets_6 :
    ∃ (s : State) (port : Port) (tile : _) (q : _), (Open s port .tseq tile) ∧ (q < 8) ∧
      (s.qEnabled tile q = false) ∧ (s.ringsOk tile q = true) ∧
        (4 ≤ s.fget (tseqP tile) (qfd TSEQ.Q_CTRL_size_log2 q)) ∧
          (s.fget (tseqP tile) (qfd TSEQ.Q_CTRL_size_log2 q) ≤ 16) :=
  ⟨wRing, .ranger, 7, 7, by decide⟩

set_option maxRecDepth 1000000 in
theorem wit_memory_and_queue_soft_resets_7 :
    ∃ (s : State) (port : Port) (tile : _) (q : _), (Open s port .tseq tile) ∧ (q < 8) ∧ (s.qEnabled tile q = true) ∧
      (4 ≤ s.fget (tseqP tile) (qfd TSEQ.Q_CTRL_size_log2 q)) ∧
        (s.fget (tseqP tile) (qfd TSEQ.Q_CTRL_size_log2 q) ≤ 16) :=
  ⟨wRingOn, .ranger, 7, 7, by decide⟩

set_option maxRecDepth 1000000 in
theorem wit_execution_unit_soft_resets_0 :
    ∃ (s : State) (port : Port) (e : _), (Open s port .te e) :=
  ⟨w1, .ranger, 31, by decide⟩

set_option maxRecDepth 1000000 in
theorem wit_execution_unit_soft_resets_1 :
    ∃ (s : State) (port : Port) (e : _) (o : Occ), (Open s port .te e) ∧
      (Held s (e / 4) (.te (e % 4)) o ∨ Held s (e / 4) (.drain (e % 4)) o ∨ Held s (e / 4) .quad o) ∧
        (o.place = .running ∨ o.place = .waiting) ∧ (s.coll.ctxs = []) :=
  ⟨wocs [wocc 1 0x01 (.te 0) .running], .ranger, 0, wocc 1 0x01 (.te 0) .running, by decide⟩

set_option maxRecDepth 1000000 in
theorem wit_execution_unit_soft_resets_2 :
    ∃ (s : State) (port : Port) (tile : _) (o : Occ), (Open s port .ve tile) ∧
      (s.current (onTile tile .ve) = some o) ∧ (s.ctxOf o.id = none) :=
  ⟨wocs [wocc 1 0x18 .ve .running], .ranger, 0, wocc 1 0x18 .ve .running, by decide⟩

set_option maxRecDepth 1000000 in
theorem wit_execution_unit_soft_resets_3 :
    ∃ (s : State) (port : Port) (tile : _) (o : Occ), (Open s port .rng tile) ∧
      (s.current (onTile tile .rng) = some o) ∧ (s.ctxOf o.id = none) :=
  ⟨wocs [wocc 1 0x1A .rng .running], .ranger, 0, wocc 1 0x1A .rng .running, by decide⟩

set_option maxRecDepth 1000000 in
theorem wit_execution_unit_soft_resets_4 :
    ∃ (s : State) (port : Port) (tile : _) (o : Occ), (Open s port .scale tile) ∧ (s.scaleFront tile = some o) ∧
      (s.ctxOf o.id = none) :=
  ⟨wocs [wocc 1 0x11C .scale .input], .ranger, 0, wocc 1 0x11C .scale .input, by decide⟩

set_option maxRecDepth 1000000 in
theorem wit_execution_unit_soft_resets_5 :
    ∃ (s : State) (port : Port) (o : Occ), (Open s port .trail 0) ∧
      (s.current (fun o => decide (o.unit = .trail)) = some o) ∧ (s.ctxOf o.id = none) :=
  ⟨wocs [wocc 1 0x21 .trail .running], .ranger, wocc 1 0x21 .trail .running, by decide⟩

set_option maxRecDepth 1000000 in
theorem wit_execution_unit_soft_resets_6 :
    ∃ (s : State) (port : Port) (tile : _) (o : Occ), (Open s port .dma tile) ∧ (Held s tile .dma o) ∧
      (∀ x ∈ s.seq.occs, onTile tile .dma x = true → s.ctxOf x.id = none) :=
  ⟨wocs [wocc 1 0x08 .dma .running], .ranger, 0, wocc 1 0x08 .dma .running, by decide⟩

set_option maxRecDepth 1000000 in
theorem wit_execution_unit_soft_resets_7 :
    ∃ (s : State) (port : Port) (tile : _) (n : _), (Open s port .watch tile) ∧ (n < 4096) :=
  ⟨w1, .ranger, 7, 4095, by decide⟩

set_option maxRecDepth 1000000 in
theorem wit_execution_unit_soft_resets_8 :
    ∃ (s : State) (port : Port), (Open s port .coll 0) :=
  ⟨w1, .ranger, by decide⟩

set_option maxRecDepth 1000000 in
theorem wit_execution_unit_soft_resets_9 :
    ∃ (s : State) (port : Port) (c : Ctx) (o : Occ), (Open s port .coll 0) ∧ (c ∈ s.coll.ctxs) ∧
      (s.occ c.occ = some o) ∧ (s.running c = true) :=
  ⟨wColl1, .ranger, wCtx1, wocc 1 0x10 .coll .running, by decide⟩

set_option maxRecDepth 1000000 in
theorem wit_execution_unit_soft_resets_10 :
    ∃ (s : State) (port : Port) (k : _), (Open s port .snap 0) ∧ (s.snap.clr = some k) ∧ (k.ended = false) :=
  ⟨wClrS, .ranger, wClr, by decide⟩

set_option maxRecDepth 1000000 in
theorem wit_plain_register_writes_0 :
    ∃ (s : State) (port : Port) (ty : PageType) (i : Nat) (off : Nat) (v : Nat) (r : RegRow), (Open s port ty i) ∧
      (ty.row off = some r) ∧ (r.outside v = false) ∧ (ty ∈ plainTypes) ∧ (0x020 < off) ∧ (off % 4 = 0) ∧
        ((ty.pairLow off && decide (ty.rwBits off ≠ 0)) = false) ∧
          ((ty.pairHigh off && decide (ty.rwBits (off - 4) ≠ 0)) = false) :=
  ⟨w1, .ranger, .link, 39, 0x044, 20, wrow .link 0x044, by decide⟩

set_option maxRecDepth 1000000 in
theorem wit_plain_register_writes_1 :
    ∃ (s : State) (port : Port) (ty : PageType) (i : Nat) (off : Nat) (v : Nat) (r : RegRow), (Open s port ty i) ∧
      (ty.row off = some r) ∧ (r.outside v = false) ∧ (ty ≠ .module) ∧ (off % 4 = 0) ∧ (ty.pairLow off = true) ∧
        (ty.rwBits off ≠ 0) :=
  ⟨w1, .ranger, .norm, 0, 0x040, 5, wrow .norm 0x040, by decide⟩

set_option maxRecDepth 1000000 in
theorem wit_plain_register_writes_2 :
    ∃ (s : State) (port : Port) (ty : PageType) (i : Nat) (off : Nat) (v : Nat) (r : RegRow) (w : _) (low : _),
      (Open s port ty i) ∧ (ty.row off = some r) ∧ (r.outside v = false) ∧ (ty ∈ plainPairTypes) ∧ (off % 4 = 0) ∧
        (4 ≤ off) ∧ (ty.pairHigh off = true) ∧ (ty.pairLow off = false) ∧ (ty.rwBits (off - 4) ≠ 0) ∧
          (ty.row (off - 4) = some low) ∧ (s.stagedOf port (pageNum ty i) (off - 4) = some w) :=
  ⟨wStaged, .ranger, .norm, 0, 0x044, 5, wrow .norm 0x044, 7, wrow .norm 0x040, by decide⟩

set_option maxRecDepth 1000000 in
theorem wit_plain_register_writes_3 :
    ∃ (s : State) (port : Port) (ty : PageType) (i : Nat) (off : Nat) (v : Nat) (r : RegRow), (Open s port ty i) ∧
      (ty.row off = some r) ∧ (r.outside v = false) ∧ (off = 0x014) :=
  ⟨w1, .ranger, .te, 31, 0x014, 63, wrow .te 0x014, by decide⟩

set_option maxRecDepth 1000000 in
theorem wit_register_reads_0 :
    ∃ (s : State) (port : Port) (ty : PageType) (i : Nat) (off : _) (n : _), (Readable s port ty i) ∧
      (off % 4 + n ≤ 4) ∧ (0 < n) ∧ (off / 4 * 4 ≠ 0x01C) ∧ (¬(ty = .module ∧ off / 4 * 4 = 0x090)) ∧
        (ty.pairLow (off / 4 * 4) = false) ∧ (ty.pairHigh (off / 4 * 4) = false) ∧
          (ty.measured (off / 4 * 4) = false) ∧ (rcBits ty (off / 4 * 4) ≠ 0) :=
  ⟨w1, .ranger, .link, 39, 0x04B, 1, by decide⟩

set_option maxRecDepth 1000000 in
theorem wit_register_reads_1 :
    ∃ (s : State) (port : Port) (ty : PageType) (i : Nat) (off : _), (Readable s port ty i) ∧ (off % 4 = 0) ∧
      (off ≠ 0x01C) ∧ (¬(ty = .module ∧ off = 0x090)) ∧ (ty.pairLow off = true) ∧ (ty.pairHigh off = false) ∧
        (ty.measured off = false) :=
  ⟨w1, .ranger, .norm, 0, 0x040, by decide⟩

set_option maxRecDepth 1000000 in
theorem wit_register_reads_2 :
    ∃ (s : State) (port : Port) (ty : PageType) (i : Nat), (Readable s port ty i) ∧ (ty.pairHigh 0x01C = false) ∧
      (ty.measured 0x01C = false) :=
  ⟨w1, .ranger, .te, 31, by decide⟩

set_option maxRecDepth 1000000 in
theorem wit_register_reads_3 :
    ∃ (s : State) (port : Port) (ty : PageType) (i : Nat), (Readable s port ty i) ∧ (ty = .pecal) :=
  ⟨w1, .ranger, .pecal, 4, by decide⟩

set_option maxRecDepth 1000000 in
theorem wit_tile_register_writes_0 :
    ∃ (s : State) (port : Port) (tile : Nat) (cls : _), (cls < 8) ∧ (Open s port .spad tile) :=
  ⟨w1, .ranger, 7, 7, by decide⟩

set_option maxRecDepth 1000000 in
theorem wit_tile_register_writes_1 :
    ∃ (s : State) (port : Port) (tile : Nat) (q : _), (q < 8) ∧ (Open s port .tseq tile) ∧
      (s.qEnabled tile q = false) ∧ (s.qIdle tile q = true) :=
  ⟨w1, .ranger, 7, 7, by decide⟩

set_option maxRecDepth 1000000 in
theorem wit_tile_register_writes_2 :
    ∃ (s : State) (port : Port) (tile : Nat) (q : _), (q < 8) ∧ (Open s port .tseq tile) ∧
      (s.qEnabled tile q = false) ∧ (s.qIdle tile q = true) :=
  ⟨w1, .ranger, 7, 7, by decide⟩

set_option maxRecDepth 1000000 in
theorem wit_tile_register_writes_3 :
    ∃ (s : State) (port : Port) (tile : Nat) (q : _) (v : _), (q < 8) ∧ (Open s port .tseq tile) ∧
      (s.qEnabled tile q = false) ∧ (s.qIdle tile q = true) ∧ (4 ≤ v) ∧ (v ≤ 16) :=
  ⟨w1, .ranger, 7, 7, 4, by decide⟩

set_option maxRecDepth 1000000 in
theorem wit_tile_register_writes_3a :
    ∃ (s : State) (port : Port) (tile : Nat) (q : _) (v : _), (q < 8) ∧ (Open s port .tseq tile) ∧
      (s.qEnabled tile q = false) ∧ (s.qIdle tile q = true) ∧ (4 ≤ v) ∧ (v ≤ 16) :=
  ⟨w1, .ranger, 7, 7, 16, by decide⟩

set_option maxRecDepth 1000000 in
theorem wit_tile_register_writes_4 :
    ∃ (s : State) (port : Port) (tile : Nat) (q : _) (tail : _), (q < 8) ∧ (Open s port .tseq tile) ∧
      (tail < 2 ^ 32) ∧ (countGap tail (s.qTail tile q) + countGap (s.qTail tile q) (s.qHead tile q) ≤ s.qSlots tile q) :=
  ⟨wQueue, .ranger, 0, 0, 16, by decide⟩

set_option maxRecDepth 1000000 in
theorem wit_tile_register_writes_5 :
    ∃ (s : State) (port : Port) (tile : Nat) (q : _) (tail : _), (q < 8) ∧ (Open s port .tseq tile) ∧
      (tail < 2 ^ 32) ∧ (s.qSlots tile q < countGap tail (s.qTail tile q) + countGap (s.qTail tile q) (s.qHead tile q)) ∧ (s.fget (tseqP tile) (qfd TSEQ.Q_DB_ERR_CNT_count q) + 1 < 2 ^ TSEQ.Q_DB_ERR_CNT_count.w) :=
  ⟨wQueue, .ranger, 0, 0, 17, by decide⟩

set_option maxRecDepth 1000000 in
theorem wit_tile_register_writes_6 :
    ∃ (s : State) (port : Port) (tile : Nat), (Open s port .tseq tile) :=
  ⟨w1, .ranger, 7, by decide⟩

set_option maxRecDepth 1000000 in
theorem wit_tile_register_writes_7 :
    ∃ (s : State) (port : Port) (tile : Nat), (Open s port .tseq tile) :=
  ⟨w1, .ranger, 7, by decide⟩

set_option maxRecDepth 1000000 in
theorem wit_tile_register_writes_8 :
    ∃ (s : State) (port : Port) (tile : Nat), (Open s port .rng tile) ∧ (s.tableFree tile = true) :=
  ⟨w1, .ranger, 7, by decide⟩

set_option maxRecDepth 1000000 in
theorem wit_tile_register_writes_9 :
    ∃ (s : State) (port : Port) (tile : Nat), (Open s port .rng tile) :=
  ⟨w1, .ranger, 7, by decide⟩

set_option maxRecDepth 1000000 in
theorem wit_tile_register_writes_10 :
    ∃ (s : State) (port : Port) (tile : Nat) (n : _), (n < 8) ∧ (Open s port .rng tile) ∧
      (s.unitBusy tile .rng = false) :=
  ⟨w1, .ranger, 7, 7, by decide⟩

set_option maxRecDepth 1000000 in
theorem wit_tile_register_writes_11 :
    ∃ (s : State) (port : Port) (tile : Nat), (Open s port .rng tile) :=
  ⟨w1, .ranger, 7, by decide⟩

set_option maxRecDepth 1000000 in
theorem wit_tile_register_writes_12 :
    ∃ (s : State) (port : Port) (tile : Nat) (slot : _), (slot < 4096) ∧ (Open s port .watch tile) :=
  ⟨w1, .ranger, 7, 4095, by decide⟩

set_option maxRecDepth 1000000 in
theorem wit_collective_and_engine_register_writes_0 :
    ∃ (s : State) (port : Port) (v : _), (Open s port .coll 0) ∧ (s.collQuiesced = true) ∧ (v ≤ 4096) :=
  ⟨wCollQuiet, .ranger, 4096, by decide⟩

set_option maxRecDepth 1000000 in
theorem wit_collective_and_engine_register_writes_1 :
    ∃ (s : State) (port : Port) (v : _), (Open s port .coll 0) ∧ (s.collQuiesced = true) ∧ (v % 16 = 0) :=
  ⟨wCollQuiet, .ranger, 2^40 + 16, by decide⟩

set_option maxRecDepth 1000000 in
theorem wit_collective_and_engine_register_writes_2 :
    ∃ (s : State) (port : Port), (Open s port .coll 0) ∧ (s.collQuiesced = true) :=
  ⟨wCollQuiet, .ranger, by decide⟩

set_option maxRecDepth 1000000 in
theorem wit_collective_and_engine_register_writes_3 :
    ∃ (s : State) (port : Port) (a : _), (Open s port .coll 0) ∧ (s.collQuiesced = true) ∧ (a % 32 = 0) :=
  ⟨wCollQuiet, .ranger, 2^40 + 32, by decide⟩

set_option maxRecDepth 1000000 in
theorem wit_collective_and_engine_register_writes_4 :
    ∃ (s : State) (port : Port) (idx : _), (idx < 4096) ∧ (Open s port .coll 0) ∧ (s.coll.loading = none) :=
  ⟨w1, .ranger, 4095, by decide⟩

set_option maxRecDepth 1000000 in
theorem wit_collective_and_engine_register_writes_5 :
    ∃ (s : State) (port : Port) (p : _) (sel : _), (sel < 2) ∧ (Open s port .pe p) ∧ (s.combOk p sel = true) ∧
      (s.combSel p < 2) :=
  ⟨wComb, .ranger, 4, 1, by decide⟩

set_option maxRecDepth 1000000 in
theorem wit_collective_and_engine_register_writes_6 :
    ∃ (s : State) (port : Port) (l : _) (k : _), (k < 16) ∧ (Open s port .pech l) :=
  ⟨w1, .ranger, 39, 15, by decide⟩

set_option maxRecDepth 1000000 in
theorem wit_collective_and_engine_register_writes_7 :
    ∃ (s : State) (port : Port) (l : _), (Open s port .link l) ∧
      (s.fget (linkP l) LINK.RETRAIN_CNT_count + 1 < 2 ^ LINK.RETRAIN_CNT_count.w) :=
  ⟨w1, .ranger, 39, by decide⟩

set_option maxRecDepth 1000000 in
theorem wit_collective_and_engine_register_writes_8 :
    ∃ (s : State) (port : Port) (l : _) (k : _), (k < 16) ∧ (Open s port .pech l) ∧
      (s.sideServes l k false = false) ∧ (s.sideServes l k true = false) :=
  ⟨w1, .ranger, 39, 15, by decide⟩

set_option maxRecDepth 1000000 in
theorem wit_collective_and_engine_register_writes_9 :
    ∃ (s : State) (port : Port) (p : _) (j : _) (k : _), (j < 8) ∧ (k < 16) ∧ (Open s port .pe p) ∧
      (s.sideServes (8 * p + j) k false = false) ∧ (s.sideServes (8 * p + j) k true = false) :=
  ⟨w1, .ranger, 4, 7, 15, by decide⟩

set_option maxRecDepth 1000000 in
theorem wit_collective_and_engine_register_writes_10 :
    ∃ (s : State) (port : Port) (k : _), (Open s port .stkphy k) ∧ (s.flag (stkP k) STK.PAGE_CTRL_quiesce = true) ∧
      (s.flag (phyP k) STKPHY.PAGE_CTRL_soft_reset = false) :=
  ⟨wStkQuiet, .ranger, 7, by decide⟩

set_option maxRecDepth 1000000 in
theorem wit_host_memory_requests_0 :
    ∃ (s : State) (off : _) (a : _) (bytes : List Nat), (s.bar2 off bytes.length = .mem a) ∧ (s.memOpen a = true) ∧
      (s.portWaits .pcie = false) :=
  ⟨w1, 0, 0, [1, 2], by decide⟩

set_option maxRecDepth 1000000 in
theorem wit_host_memory_requests_1 :
    ∃ (s : State) (off : _) (a : _) (bytes : List Nat), (s.bar2 off bytes.length = .mem a) ∧
      ((s.memOpen a && !s.portWaits .pcie) = false) :=
  ⟨{ w1 with waits := [⟨0, .pcie, false, 0, 0, 4, none, none⟩] }, 0, 0, [1, 2], by decide⟩

set_option maxRecDepth 1000000 in
theorem wit_host_memory_requests_2 :
    ∃ (s : State) (off : _) (a : _) (bytes : List Nat), (s.bar2 off bytes.length = .mem a) ∧ (s.memOpen a = true) ∧
      (s.portWaits .pcie = false) :=
  ⟨w1, 0, 0, [1, 2], by decide⟩

set_option maxRecDepth 1000000 in
theorem wit_host_memory_requests_3 :
    ∃ (s : State) (off : _) (n : _) (a : _), (s.bar2 off n = .mem a) ∧ (s.memOpen a = true) ∧
      (s.portWaits .pcie = false) :=
  ⟨w1, 7, 9, 7, by decide⟩

set_option maxRecDepth 1000000 in
theorem wit_host_memory_requests_4 :
    ∃ (s : State) (off : _) (n : _) (a : _), (s.bar2 off n = .hole a) :=
  ⟨w1, 0x3FFFFFFFF, 2, 0x3FFFFFFFF, by decide⟩

set_option maxRecDepth 1000000 in
theorem wit_host_memory_requests_5 :
    ∃ (s : State), (s.pcieUp = true) ∧ (s.bootStage < 3) :=
  ⟨wStage 2 .xsm8, by decide⟩

set_option maxRecDepth 1000000 in
theorem wit_host_memory_requests_6 :
    ∃ (s : State) (n : _), (s.pcieUp = true) ∧ (3 ≤ s.bootStage) ∧
      (s.fget pcieP PCIE.ERR_CNT_count + n < 2 ^ PCIE.ERR_CNT_count.w) :=
  ⟨w1, 1, by decide⟩

set_option maxRecDepth 1000000 in
theorem wit_host_memory_requests_7 :
    ∃ (s : State) (c : _), (s.pcieUp = true) ∧ (3 ≤ s.bootStage) ∧ (c ∈ [PcieCap.flitMode, .tags10, .msix, .aer,
      .ecrc, .poisoning, .flr, .resizableBar, .aspmL1, .laneMargining]) :=
  ⟨w1, PcieCap.aer, by decide⟩

set_option maxRecDepth 1000000 in
theorem wit_host_memory_requests_8 :
    ∃ (s : State) (c : _), (s.pcieUp = true) ∧ (3 ≤ s.bootStage) ∧ (c ∈ [PcieCap.msi, .aspmL0s, .l1Substates, .ats,
      .pri, .pasid, .sriov, .doe, .ide]) :=
  ⟨w1, PcieCap.ats, by decide⟩

set_option maxRecDepth 1000000 in
theorem wit_host_memory_requests_9 :
    ∃ (s : State) (k : _), (s.pcieUp = true) ∧ (3 ≤ s.bootStage) ∧ (36 ≤ k) ∧ (k ≤ 41) :=
  ⟨w1, 41, by decide⟩

set_option maxRecDepth 1000000 in
theorem wit_host_memory_requests_10 :
    ∃ (s : State), (s.pcieUp = true) :=
  ⟨w1, by decide⟩

set_option maxRecDepth 1000000 in
theorem wit_scrub_and_correction_0 :
    ∃ (s : State) (addr : _) (e : CorrEntry) (tile : _) (stack : Bool) (off : _),
      (region s.member addr = (if stack then .stack tile off else .understory tile off)) ∧
        (s.mem.corrq.find? (fun e => decide (corrOwner s.member e.addr = corrOwner s.member addr)) = some e) ∧
          (s.scrubOn tile stack = true) ∧ (e.stale = false) :=
  ⟨wCorr, 0, ⟨0, false⟩, 0, false, 0, by decide⟩

set_option maxRecDepth 1000000 in
theorem wit_scrub_and_correction_1 :
    ∃ (s : State) (addr : _) (e : CorrEntry) (tile : _) (stack : Bool) (off : _),
      (region s.member addr = (if stack then .stack tile off else .understory tile off)) ∧
        (s.mem.corrq.find? (fun e => decide (corrOwner s.member e.addr = corrOwner s.member addr)) = some e) ∧
          (s.scrubOn tile stack = true) ∧ (e.stale = true) :=
  ⟨{ wCorr with mem := { wCorr.mem with corrq := [⟨0, true⟩] } }, 0, ⟨0, true⟩, 0, false, 0, by decide⟩

set_option maxRecDepth 1000000 in
theorem wit_scrub_and_correction_2 :
    ∃ (s : State) (tile : _) (stack : _), (s.scrubRuns tile stack = true) :=
  ⟨wScrub, 7, false, by decide⟩

set_option maxRecDepth 1000000 in
theorem wit_scrub_and_correction_3 :
    ∃ (s : State) (tile : _) (stack : _) (wa : _), (s.scrubRuns tile stack = true) ∧ (wa ∈ nextWords s tile stack) :=
  ⟨{ w1.fset (scrubP 0) SCRUB.PAGE_CTRL_enable 1 with mem := { w1.mem with chk := [(0, 1)] } }, 0, false, 0, by decide⟩

set_option maxRecDepth 1000000 in
theorem wit_scrub_and_correction_4 :
    ∃ (s : State) (tile : _) (stack : _), (tile < Member.tiles s.member) ∧ (s.scrubInForce tile stack ≠ 0) ∧
      (s.domainOn .scrub tile = true) ∧ (s.err.fifo.length < 63) ∧
        (s.mem.scrubLate.contains (scrubKey tile stack) = false) :=
  ⟨w1, 7, true, by decide⟩

set_option maxRecDepth 1000000 in
theorem wit_scrub_and_correction_5 :
    ∃ (s : State) (tile : _) (stack : _), (s.mem.scrubLate.contains (scrubKey tile stack) = true) :=
  ⟨{ w1 with mem := { w1.mem with scrubLate := [scrubKey 7 true] } }, 7, true, by decide⟩

set_option maxRecDepth 1000000 in
theorem wit_scrub_and_correction_6 :
    ∃ (s : State) (stack : _), (stack < Member.stacks s.member) ∧ (s.domainOn .stk stack = true) :=
  ⟨w1, 7, by decide⟩

set_option maxRecDepth 1000000 in
theorem wit_start_up_and_resets_0 :
    ∃ (s : State) (stage : _) (b : BootInfo), (s.stageMay stage = true) ∧ (b.ok = false) :=
  ⟨wStage 0 .xsm8, 1, wFind false, by decide⟩

set_option maxRecDepth 1000000 in
theorem wit_start_up_and_resets_1 :
    ∃ (s : State) (stage : _) (b : BootInfo), (s.stageMay stage = true) ∧ (b.ok = true) ∧ (stage ∈ [1, 2, 3, 4, 5,
      8, 9, 10]) :=
  ⟨wStage 9 .xsm8, 10, wFind true, by decide⟩

set_option maxRecDepth 1000000 in
theorem wit_start_up_and_resets_2 :
    ∃ (s : State) (b : BootInfo), (s.stageMay 3 = true) ∧ (b.ok = true) :=
  ⟨wStage 2 .xsm8, wFind true, by decide⟩

set_option maxRecDepth 1000000 in
theorem wit_start_up_and_resets_3 :
    ∃ (s : State) (b : BootInfo), (s.stageMay 6 = true) ∧ (b.ok = true) :=
  ⟨wStage 5 .xsm8, wFind true, by decide⟩

set_option maxRecDepth 1000000 in
theorem wit_start_up_and_resets_4 :
    ∃ (s : State) (b : BootInfo), (s.stageMay 7 = true) ∧ (b.ok = true) :=
  ⟨wStage 4 .xsm8, wFind true, by decide⟩

set_option maxRecDepth 1000000 in
theorem wit_start_up_and_resets_5 :
    ∃ (s : State) (b : BootInfo), (s.stageMay 10 = true) ∧ (b.ok = true) :=
  ⟨wStage 9 .xsm8, wFind true, by decide⟩

set_option maxRecDepth 1000000 in
theorem wit_start_up_and_resets_6 :
    ∃ (s : State), (s.ready = true) ∧ (s.pwrState ≤ 1) :=
  ⟨w1, by decide⟩

set_option maxRecDepth 1000000 in
theorem wit_start_up_and_resets_7 :
    ∃ (s : State), (s.ready = true) ∧ (s.pwrState ≤ 1) :=
  ⟨w1, by decide⟩

set_option maxRecDepth 1000000 in
theorem wit_start_up_and_resets_8 :
    ∃ (s : State), (s.member ≠ .xsc1) ∧ (s.latchClosed = true) :=
  ⟨(w1.fset 0 MODULE.SVC_STAT_latch 1), by decide⟩

set_option maxRecDepth 1000000 in
theorem wit_start_up_and_resets_9 :
    ∃ (s : State), (s.member ≠ .xsc1) :=
  ⟨w1, by decide⟩

set_option maxRecDepth 1000000 in
theorem wit_start_up_and_resets_10 :
    ∃ (s : State), (s.pwrState ≠ 4) :=
  ⟨w1, by decide⟩

set_option maxRecDepth 1000000 in
theorem wit_start_up_and_resets_11 :
    ∃ (s : State), (s.pwr.powered = false) :=
  ⟨{ w0 with pwr := { w0.pwr with powered := false } }, by decide⟩

set_option maxRecDepth 1000000 in
theorem wit_start_up_and_resets_12 :
    ∃ (s : State), (s.pwrState = 4) ∧ (s.pwr.powered = true) :=
  ⟨wPow 4 none, by decide⟩

set_option maxRecDepth 1000000 in
theorem wit_fatal_events_close_the_firebreak_2 :
    ∃ (s : State) (l : _), (Member.link s.member l = true) :=
  ⟨w1, 39, by decide⟩

set_option maxRecDepth 1000000 in
theorem wit_fatal_events_close_the_firebreak_3 :
    ∃ (s : State) (tile : _) (unit : _), (tile < Member.tiles s.member) ∧ (unit ≤ 12) :=
  ⟨w1, 7, 11, by decide⟩

set_option maxRecDepth 1000000 in
theorem wit_fatal_events_close_the_firebreak_5 :
    ∃ (s : State) (elem : _), (s.pwrState = 0) ∧ (elem < 256) :=
  ⟨w1, 255, by decide⟩

set_option maxRecDepth 1000000 in
theorem wit_fatal_events_close_the_firebreak_6 :
    ∃ (s : State) (d : _), (s.pwrState ≤ 2) ∧ (d = 1 → s.flag clkP CLK.PAGE_STAT_src = false) ∧ (d < 3 ∨ (d = 3 ∧
      s.member ≠ .xsc1) ∨ (16 ≤ d ∧ d < 16 + Member.stacks s.member) ∨ (24 ≤ d ∧
        Member.pe s.member (d - 24) = true)) :=
  ⟨w1, 28, by decide⟩

set_option maxRecDepth 1000000 in
theorem wit_fatal_events_close_the_firebreak_6a :
    ∃ (s : State) (d : _), (s.pwrState ≤ 2) ∧ (d = 1 → s.flag clkP CLK.PAGE_STAT_src = false) ∧ (d < 3 ∨ (d = 3 ∧
      s.member ≠ .xsc1) ∨ (16 ≤ d ∧ d < 16 + Member.stacks s.member) ∨ (24 ≤ d ∧
        Member.pe s.member (d - 24) = true)) :=
  ⟨w1, 3, by decide⟩

set_option maxRecDepth 1000000 in
theorem wit_fatal_events_close_the_firebreak_7 :
    ∃ (s : State) (port : _), (Open s port .module 0) :=
  ⟨w1, .ranger, by decide⟩

set_option maxRecDepth 1000000 in
theorem wit_firebreak_fences_the_module_0 :
    ∃ (s : State), (s.fget 0 MODULE.FIREBREAK_state = 1) ∧ (s.member ≠ .xsc1) :=
  ⟨w1.fset 0 MODULE.FIREBREAK_state 1, by decide⟩

set_option maxRecDepth 1000000 in
theorem wit_firebreak_fences_the_module_1 :
    ∃ (s : State), (s.fget 0 MODULE.FIREBREAK_state = 1) ∧ (s.member = .xsc1) :=
  ⟨{ w1.fset 0 MODULE.FIREBREAK_state 1 with fuses := { w1.fuses with member := .xsc1 } }, by decide⟩

set_option maxRecDepth 1000000 in
theorem wit_error_fifo_readers_0 :
    ∃ (s : State) (port : Port) (e : ErrEntry) (rest : List ErrEntry), (Readable s port .module 0) ∧
      (s.err.fifo = e :: rest) :=
  ⟨wFifo, .pcie, wErr, [], by decide⟩

set_option maxRecDepth 1000000 in
theorem wit_error_fifo_readers_1 :
    ∃ (s : State) (port : Port) (e : ErrEntry), (Open s port .module 0) ∧ (s.latchOf port = some e) :=
  ⟨wFifo, .pcie, wErr, by decide⟩

set_option maxRecDepth 1000000 in
theorem wit_error_fifo_readers_2 :
    ∃ (s : State) (port : Port), (Open s port .module 0) :=
  ⟨wFifo, .ranger, by decide⟩

set_option maxRecDepth 1000000 in
theorem wit_power_state_commands_0 :
    ∃ (s : State), (s.mayArrive = true) ∧ (s.pwrTarget ≤ 3) ∧ (s.flag pwrP PWR.PAGE_STAT_pend_valid = false) :=
  ⟨wPow 0 (some 3), by decide⟩

set_option maxRecDepth 1000000 in
theorem wit_power_state_commands_1 :
    ∃ (s : State), (s.mayArrive = true) ∧ (s.pwrTarget = 4) ∧ (s.flag pwrP PWR.PAGE_STAT_pend_valid = false) :=
  ⟨wPow 0 (some 4), by decide⟩

set_option maxRecDepth 1000000 in
theorem wit_power_state_commands_2 :
    ∃ (s : State), (s.pwrMoving = true) ∧ (2 ≤ s.pwrTarget) ∧ (s.mayRest = false) :=
  ⟨(wPow 1 (some 2)).fset snapP SNAP.HB_CFG_en 1, by decide⟩

set_option maxRecDepth 1000000 in
theorem wit_power_state_commands_3 :
    ∃ (s : State), (s.flag pwrP PWR.PWR_CFG_auto_idle = true) ∧ (s.pwrState = 0) ∧ (s.pwrMoving = false) ∧
      (∀ o ∈ s.seq.occs, needsTclk o = true → o.place = .checked) :=
  ⟨w1.fset pwrP PWR.PWR_CFG_auto_idle 1, by decide⟩

set_option maxRecDepth 1000000 in
theorem wit_power_state_commands_4 :
    ∃ (s : State), (s.pwrState = 2 ∨ s.pwrState = 3) ∧ (s.pwrMoving = false) :=
  ⟨wPow 3 none, by decide⟩

set_option maxRecDepth 1000000 in
theorem wit_power_state_commands_5 :
    ∃ (s : State), (s.pwrState = 2 ∨ s.pwrState = 3) ∧ (s.pwrMoving = false) ∧
      (s.flag pwrP PWR.WAKE_EN_alarm = true) :=
  ⟨(wPow 2 none).fset pwrP PWR.WAKE_EN_alarm 1, by decide⟩

set_option maxRecDepth 1000000 in
theorem wit_power_state_commands_6 :
    ∃ (s : State) (port : _) (v : _), (Open s port .pwr 0) ∧ (s.pwrState ≤ 1) ∧ (s.pwrMoving = false) ∧ (v ≤ 4) ∧
      (v ≠ s.pwrState) :=
  ⟨w1, .ranger, 4, by decide⟩

set_option maxRecDepth 1000000 in
theorem wit_power_state_commands_7 :
    ∃ (s : State), (s.waking = true) ∧ (s.svc.exit = 0) ∧ (s.pwr.attempts + 1 < 3) :=
  ⟨wPow 3 (some 0), by decide⟩

set_option maxRecDepth 1000000 in
theorem wit_power_state_commands_8 :
    ∃ (s : State), (s.waking = true) ∧ (s.svc.exit = 0) ∧ (3 ≤ s.pwr.attempts + 1) ∧
      (s.flag pwrP PWR.PAGE_STAT_pend_valid = false) :=
  ⟨{ wPow 2 (some 0) with pwr := { w1.pwr with attempts := 2 } }, by decide⟩

set_option maxRecDepth 1000000 in
theorem wit_power_state_commands_9 :
    ∃ (s : State), (s.pwrState ≠ 4) ∧ (s.flag clkP CLK.PAGE_STAT_bclk_fallback = false) :=
  ⟨wPow 3 none, by decide⟩

set_option maxRecDepth 1000000 in
theorem wit_cap_power_and_thermal_commands_0 :
    ∃ (s : State) (port : _) (v : _), (Open s port .pwr 0) ∧ (v < 2 ^ 13) :=
  ⟨w1, .ranger, 8191, by decide⟩

set_option maxRecDepth 1000000 in
theorem wit_cap_power_and_thermal_commands_1 :
    ∃ (s : State), (s.pwrState ≤ 2) :=
  ⟨w1, by decide⟩

set_option maxRecDepth 1000000 in
theorem wit_cap_power_and_thermal_commands_2 :
    ∃ (s : State), (s.pwr.fast = false) :=
  ⟨w1, by decide⟩

set_option maxRecDepth 1000000 in
theorem wit_cap_power_and_thermal_commands_4 :
    ∃ (s : State) (tile : _), (tile < Member.tiles s.member) ∧ (s.pwrState ≤ 2) :=
  ⟨w1, 7, by decide⟩

set_option maxRecDepth 1000000 in
theorem wit_cap_power_and_thermal_commands_5 :
    ∃ (s : State) (sensor : _), (s.sensorFitted sensor = true) ∧ (s.pwrState ≤ 2) :=
  ⟨w1, 0x1E, by decide⟩

set_option maxRecDepth 1000000 in
theorem wit_cap_power_and_thermal_commands_6 :
    ∃ (s : State), (s.member ≠ .xsc1) ∧ (s.pwrState ≤ 2) :=
  ⟨w1, by decide⟩

set_option maxRecDepth 1000000 in
theorem wit_clock_and_sensor_window_commands_0 :
    ∃ (s : State) (port : _) (v : _), (Open s port .clk 0) ∧ (v < 2 ^ 16) ∧ (∀ t,
      t < Member.tiles s.member → s.tclkOk (divOf v t) = true) :=
  ⟨w1, .ranger, 0xAAAA, by decide⟩

set_option maxRecDepth 1000000 in
theorem wit_clock_and_sensor_window_commands_1 :
    ∃ (s : State) (tile : _), (tile < Member.tiles s.member) ∧ (s.flag clkP (divPend tile) = true) ∧
      (∀ c ∈ s.pwr.changing, c.1 ≠ tile) ∧ (∀ e, e < 4 → s.teQuiesced (4 * tile + e) = true) ∧
        (s.veQuiesced tile = true) :=
  ⟨wTclk none, 7, by decide⟩

set_option maxRecDepth 1000000 in
theorem wit_clock_and_sensor_window_commands_2 :
    ∃ (s : State) (tile : _) (d : _), (tile < 8) ∧ (d < 4) ∧
      ((s.pwr.changing.find? fun c => decide (c.1 = tile)) = some (tile, d)) :=
  ⟨wTclk (some 2), 7, 2, by decide⟩

set_option maxRecDepth 1000000 in
theorem wit_clock_and_sensor_window_commands_3 :
    ∃ (s : State), (s.pwrState ≤ 2) ∧ (s.flag rangerP RANGER.SENS_FLAG_ready = false) :=
  ⟨w1, by decide⟩

set_option maxRecDepth 1000000 in
theorem wit_clock_and_sensor_window_commands_4 :
    ∃ (s : State) (port : _), (Open s port .ranger 0) :=
  ⟨w1, .ranger, by decide⟩

set_option maxRecDepth 1000000 in
theorem wit_management_commands_take_effect_0 :
    ∃ (s : State), (MgmtTakes s 0x01 []) :=
  ⟨w1, by decide⟩

set_option maxRecDepth 1000000 in
theorem wit_management_commands_take_effect_1 :
    ∃ (s : State) (rank : _) (feed : _), (MgmtTakes s 0x02 [rank, feed]) ∧ (rank < 2 ^ 16) ∧ (feed < 2 ^ 16) :=
  ⟨w1, 65535, 65535, by decide⟩

set_option maxRecDepth 1000000 in
theorem wit_management_commands_take_effect_2 :
    ∃ (s : State), (MgmtTakes s 0x03 []) :=
  ⟨w1, by decide⟩

set_option maxRecDepth 1000000 in
theorem wit_management_commands_take_effect_3 :
    ∃ (s : State), (MgmtTakes s 0x04 []) :=
  ⟨w1, by decide⟩

set_option maxRecDepth 1000000 in
theorem wit_management_commands_take_effect_4 :
    ∃ (s : State) (ty : _) (i : _) (off : _), (MgmtTakes s 0x05 [pageNum ty i, off]) ∧ (Readable s .mgmt ty i) ∧
      (off < 4096) ∧ (off % 4 = 0) ∧ (¬(ty = .module ∧ off = 0x090)) ∧ (ty.pairHigh off = false) ∧
        (ty.measured off = false) :=
  ⟨w1, .norm, 0, 0x040, by decide⟩

set_option maxRecDepth 1000000 in
theorem wit_management_commands_take_effect_5 :
    ∃ (s : State) (ty : _) (i : _) (off : _) (v : _) (r : _), (MgmtTakes s 0x06 [pageNum ty i, off, v]) ∧
      (Open s .mgmt ty i) ∧ (ty ∈ plainTypes) ∧ (0x020 < off) ∧ (off < 4096) ∧ (off % 4 = 0) ∧ (v < 2 ^ 32) ∧
        (ty.row off = some r) ∧ (r.outside v = false) ∧ ((ty.pairLow off && decide (ty.rwBits off ≠ 0)) = false) ∧
          ((ty.pairHigh off && decide (ty.rwBits (off - 4) ≠ 0)) = false) :=
  ⟨w1, .link, 39, 0x044, 20, wrow .link 0x044, by decide⟩

set_option maxRecDepth 1000000 in
theorem wit_management_commands_take_effect_6 :
    ∃ (s : State) (v : _), (MgmtTakes s 0x07 [v]) ∧ (s.pwrState ≤ 1) ∧ (s.pwrMoving = false) ∧ (v ≤ 4) ∧
      (v ≠ s.pwrState) :=
  ⟨w1, 4, by decide⟩

set_option maxRecDepth 1000000 in
theorem wit_management_commands_take_effect_7 :
    ∃ (s : State), (MgmtTakes s 0x08 []) :=
  ⟨w1, by decide⟩

set_option maxRecDepth 1000000 in
theorem wit_management_commands_take_effect_8 :
    ∃ (s : State) (k : _) (j : _) (o : Nat) (o' : _), (MgmtTakes s 0x09 []) ∧
      (s.flag 0 MODULE.PAGE_STAT_census_busy = false) ∧ (s.pwrState ≤ 1) ∧
        (region s.member (s.pair 0 MODULE.CENSUS_BASE_LO_addr) = .stack k o) ∧
          (region s.member (s.pair 0 MODULE.CENSUS_BASE_LO_addr + (2 ^ 20 - 1)) = .stack j o') ∧ (k = j) ∧
            (s.pair 0 MODULE.CENSUS_BASE_LO_addr % 2 ^ 20 = 0) :=
  ⟨wCen, 0, 0, 0, 2 ^ 20 - 1, by decide⟩

set_option maxRecDepth 1000000 in
theorem wit_management_commands_take_effect_9 :
    ∃ (s : State) (e : ErrEntry) (rest : List ErrEntry), (MgmtTakes s 0x0A []) ∧ (s.err.fifo = e :: rest) :=
  ⟨wFifo, wErr, [], by decide⟩

set_option maxRecDepth 1000000 in
theorem wit_management_commands_take_effect_10 :
    ∃ (s : State), (MgmtTakes s 0x0B []) :=
  ⟨w1, by decide⟩

set_option maxRecDepth 1000000 in
theorem wit_management_commands_take_effect_11 :
    ∃ (s : State) (key : _), (MgmtTakes s 0x0C [key]) :=
  ⟨w1, 0x5253, by decide⟩

set_option maxRecDepth 1000000 in
theorem wit_management_commands_take_effect_12 :
    ∃ (s : State) (addr : _) (len : _), (MgmtTakes s 0x0D [addr % 2 ^ 32, addr / 2 ^ 32, len]) ∧ (addr < 2 ^ 48) ∧
      (len < 2 ^ 32) :=
  ⟨w1, 0x10000000000, 64, by decide⟩

set_option maxRecDepth 1000000 in
theorem wit_management_commands_take_effect_13 :
    ∃ (s : State) (slot : _), (MgmtTakes s 0x0E [slot]) ∧ (slot < 2) :=
  ⟨(w1.fset rangerP RANGER.FW_SLOT_b_ok 1), 1, by decide⟩

set_option maxRecDepth 1000000 in
theorem wit_mailbox_commands_answer_0 :
    ∃ (c : Instr) (s : State) (code : Nat) (as : List Nat), (rangerCmd c = some (.mgmt, false, code, as)) ∧
      (s.mgmtUp = true) ∧ (s.err.fifo.length < 62) :=
  ⟨.getId .mgmt false, w1, 1, [], by decide⟩

set_option maxRecDepth 1000000 in
theorem wit_mailbox_commands_answer_1 :
    ∃ (c : Instr) (s : State) (code : Nat) (as : List Nat), (rangerCmd c = some (.mgmt, true, code, as)) ∧
      (s.mgmtUp = true) ∧ (s.cmdFault .mgmt code as ≠ 0) ∧ (s.err.fifo.length < 62) :=
  ⟨.mgmtPwrReq .mgmt true 5, w1, 7, [5], by decide⟩

set_option maxRecDepth 1000000 in
theorem wit_mailbox_commands_answer_2 :
    ∃ (c : Instr) (s : State) (code : Nat) (as : List Nat) (ok : Bool), (rangerCmd c = some (.pcie, ok, code, as)) ∧
      (Open s .pcie .ranger 0) ∧ (s.flag rangerP RANGER.MBX_STAT_busy = false) ∧ (s.cmdFault .pcie code as ≠ 0) :=
  ⟨.reset .pcie true 0, w1, 0x0C, [0], true, by decide⟩

set_option maxRecDepth 1000000 in
theorem wit_mailbox_commands_answer_3 :
    ∃ (c : Instr) (s : State) (code : Nat) (as : List Nat) (ok : Bool), (rangerCmd c = some (.pcie, ok, code, as)) ∧
      (code ∈ [0x01, 0x07, 0x08, 0x09, 0x0D, 0x0E]) ∧ (Open s .pcie .ranger 0) ∧
        (s.flag rangerP RANGER.MBX_STAT_busy = false) ∧ (s.cmdFault .pcie code as = 0) :=
  ⟨.getId .pcie true, w1, 1, [], true, by decide⟩

set_option maxRecDepth 1000000 in
theorem wit_mailbox_commands_answer_4 :
    ∃ (c : Instr) (s : State) (ok : Bool) (ty : _) (i : _) (off : _), (c = .readReg .pcie ok (pageNum ty i) off) ∧
      (Open s .pcie .ranger 0) ∧ (s.flag rangerP RANGER.MBX_STAT_busy = false) ∧
        (s.cmdFault .pcie 0x05 [pageNum ty i, off] = 0) ∧ (Readable s .mgmt ty i) ∧ (ty ∈ plainTypes) ∧
          (off < 4096) ∧ (off % 4 = 0) ∧ (0x020 < off) ∧ (ty.pairHigh off = false) ∧ (ty.measured off = false) :=
  ⟨.readReg .pcie true (pageNum .link 39) 0x044, w1, true, PageType.link, 39, 0x044, by decide⟩

set_option maxRecDepth 1000000 in
theorem wit_mailbox_commands_answer_5 :
    ∃ (c : Instr) (s : State) (ok : Bool) (key : _), (c = .reset .pcie ok key) ∧ (Open s .pcie .ranger 0) ∧
      (s.flag rangerP RANGER.MBX_STAT_busy = false) ∧ (s.cmdFault .pcie 0x0C [key] = 0) :=
  ⟨.reset .pcie true 0x5253, w1, true, 0x5253, by decide⟩

set_option maxRecDepth 1000000 in
theorem wit_stopped_domain_accesses_0 :
    ∃ (s : State) (id : _) (w : _) (ty : _) (i : _), (s.firstWait id = some w) ∧ (pageAt s.member w.page = some (ty,
      i)) ∧ (s.pageRuns w.page = false) ∧ (w.mem = none) ∧ (s.railsUp ty = true) ∧ (ty.nonWaking = false) ∧
        (s.waits = [w]) ∧ (s.pwrState ≤ 2) :=
  ⟨{ w1 with waits := [wacc (pageNum .te 0)], pwr := w1.pwr } |>.fset pwrP PWR.PAGE_STAT_state 1, 0, wacc (pageNum .te 0), PageType.te, 0, by decide⟩

set_option maxRecDepth 1000000 in
theorem wit_stopped_domain_accesses_1 :
    ∃ (s : State) (page : _) (ty : _) (i : _), (pageAt s.member page = some (ty, i)) :=
  ⟨{ w1 with woken := [.fclk, .cclk] }, pageNum .tseq 0, PageType.tseq, 0, by decide⟩

set_option maxRecDepth 1000000 in
theorem wit_stopped_domain_accesses_2 :
    ∃ (s : State) (id : _) (w : _) (ty : _) (i : _), (s.firstWait id = some w) ∧ (pageAt s.member w.page = some (ty,
      i)) ∧ (ty.nonWaking = true) ∧ (s.domainRuns ty i = false) ∧ (s.waits = [w]) ∧ (w.page < 2 ^ 12) ∧
        (w.off < 2 ^ 12) :=
  ⟨{ wPow 2 none with waits := [wacc (pageNum .stkphy 0)] }, 0, wacc (pageNum .stkphy 0), PageType.stkphy, 0, by decide⟩

set_option maxRecDepth 1000000 in
theorem wit_stopped_domain_accesses_3 :
    ∃ (s : State), (s.mgmtUp = true) ∧ (s.pwrState ≤ 2) ∧ (s.err.fifo = []) :=
  ⟨w1, by decide⟩

set_option maxRecDepth 1000000 in
theorem wit_stopped_domain_accesses_4 :
    ∃ (s : State), (s.mgmtUp = true) ∧ (s.err.alert = true) :=
  ⟨{ w1 with err := { w1.err with alert := true } }, by decide⟩

set_option maxRecDepth 1000000 in
theorem wit_flash_commands_0 :
    ∃ (s : State) (port : Port), (FlashMay s port 1) :=
  ⟨wFlash, .ranger, by decide⟩

set_option maxRecDepth 1000000 in
theorem wit_flash_commands_1 :
    ∃ (s : State) (port : Port), (FlashMay s port 2) :=
  ⟨wFlash, .ranger, by decide⟩

set_option maxRecDepth 1000000 in
theorem wit_flash_commands_2 :
    ∃ (s : State) (port : Port), (FlashMay s port 3) :=
  ⟨wFlash, .ranger, by decide⟩

set_option maxRecDepth 1000000 in
theorem wit_flash_commands_3 :
    ∃ (s : State) (port : Port), (FlashMay s port 4) :=
  ⟨w1, .ranger, by decide⟩

set_option maxRecDepth 1000000 in
theorem wit_flash_commands_4 :
    ∃ (s : State) (c : FlashCmd), (s.host.flashCmd = some c) ∧ (s.flashOpen c = true) ∧
      (s.domainOn .flash 0 = true) :=
  ⟨{ w1 with host := { w1.host with flashCmd := some ⟨4, 0, 0, 0⟩ } }, ⟨4, 0, 0, 0⟩, by decide⟩

set_option maxRecDepth 1000000 in
theorem wit_flash_commands_5 :
    ∃ (s : State) (c : FlashCmd), (s.host.flashCmd = some c) ∧ (s.flashOpen c = true) ∧
      (s.domainOn .flash 0 = true) ∧ (c.op = 1) ∧ (s.flash.dead = []) ∧ (s.flash.bad = []) ∧ (c.addr % 4096 = 0) ∧
        (∀ i, i < 4096 * c.count → isMem s.member (c.addr + i) = true) :=
  ⟨{ w1 with host := { w1.host with flashCmd := some ⟨1, 0, 0, 0⟩ } }, ⟨1, 0, 0, 0⟩, by decide⟩

set_option maxRecDepth 1000000 in
theorem wit_flash_commands_6 :
    ∃ (s : State) (c : FlashCmd), (s.host.flashCmd = some c) ∧ (s.flashOpen c = true) ∧
      (s.domainOn .flash 0 = true) ∧ (c.op = 2) ∧ (s.fget flashP FLASH.BOOT_REC_block = 0 ∨ (∀ i,
        i < 4096 * c.count → s.mem.ecc (wordOf (c.addr + i)) = .ok)) :=
  ⟨{ w1 with host := { w1.host with flashCmd := some ⟨2, 0, 0, 0⟩ } }, ⟨2, 0, 0, 0⟩, by decide⟩

set_option maxRecDepth 1000000 in
theorem wit_flash_commands_7 :
    ∃ (s : State) (c : FlashCmd), (s.host.flashCmd = some c) ∧ (s.flashOpen c = true) ∧
      (s.domainOn .flash 0 = true) ∧ (c.op = 3) :=
  ⟨{ w1 with host := { w1.host with flashCmd := some ⟨3, 0, 1, 0⟩ } }, ⟨3, 0, 1, 0⟩, by decide⟩

set_option maxRecDepth 1000000 in
theorem wit_flash_commands_8 :
    ∃ (s : State) (port : Port), (Open s port .module 0) ∧ (s.flag 0 MODULE.PAGE_STAT_census_busy = true) :=
  ⟨w1.fset 0 MODULE.PAGE_STAT_census_busy 1, .ranger, by decide⟩

set_option maxRecDepth 1000000 in
theorem wit_flash_commands_9 :
    ∃ (s : State) (port : Port) (k : _) (o : Nat) (o' : _), (Open s port .module 0) ∧
      (s.flag 0 MODULE.PAGE_STAT_census_busy = false) ∧ (s.pwrState ≤ 1) ∧
        (region s.member (s.pair 0 MODULE.CENSUS_BASE_LO_addr) = .stack k o) ∧
          (region s.member (s.pair 0 MODULE.CENSUS_BASE_LO_addr + (2 ^ 20 - 1)) = .stack k o') ∧
            (s.pair 0 MODULE.CENSUS_BASE_LO_addr % 2 ^ 20 = 0) :=
  ⟨wCen, .ranger, 0, 0, 2 ^ 20 - 1, by decide⟩

set_option maxRecDepth 1000000 in
theorem wit_flash_commands_10 :
    ∃ (s : State) (began : _), (s.host.census = some began) ∧
      (s.memOpen (s.pair 0 MODULE.CENSUS_BASE_LO_addr) = true) :=
  ⟨{ w1 with host := { w1.host with census := some 0 } }, 0, by decide⟩

set_option maxRecDepth 1000000 in
theorem wit_service_and_debug_commands_0 :
    ∃ (s : State), (s.member ≠ .xsc1) ∧ (s.flag 0 MODULE.SVC_CTRL_button_en = true) ∧ (s.mayPark = true) ∧
      (s.inJob = false) ∧ (s.nothingInFlight = false) :=
  ⟨{ wBut with coll := { w1.coll with ctxs := [wCtx] } }, by decide⟩

set_option maxRecDepth 1000000 in
theorem wit_service_and_debug_commands_1 :
    ∃ (s : State) (port : Port), (Open s port .module 0) ∧ (s.mayPark = true) ∧ (s.inJob = false) :=
  ⟨w1, .ranger, by decide⟩

set_option maxRecDepth 1000000 in
theorem wit_service_and_debug_commands_2 :
    ∃ (s : State) (port : Port), (Open s port .module 0) ∧ (s.parkState = 1) :=
  ⟨wPark 1, .ranger, by decide⟩

set_option maxRecDepth 1000000 in
theorem wit_service_and_debug_commands_3 :
    ∃ (s : State) (port : Port), (Open s port .module 0) ∧ (s.parkState = 3) ∧ (s.svc.plain = true) :=
  ⟨{ wPark 3 with svc := ⟨true, false, 0, []⟩ }, .ranger, by decide⟩

set_option maxRecDepth 1000000 in
theorem wit_service_and_debug_commands_4 :
    ∃ (s : State), (s.parkState = 2) ∧ (s.snap.parkDone = true) :=
  ⟨{ wPark 2 with snap := { w1.snap with parkDone := true } }, by decide⟩

set_option maxRecDepth 1000000 in
theorem wit_service_and_debug_commands_5 :
    ∃ (s : State), (s.parkState = 1) :=
  ⟨wPark 1, by decide⟩

set_option maxRecDepth 1000000 in
theorem wit_service_and_debug_commands_6 :
    ∃ (s : State) (k : _), (k < Member.stacks s.member) ∧ (s.pwrState ≤ 1) ∧ (s.domainOn .stkphy k = true) ∧
      (s.flag (phyP k) STKPHY.PAGE_STAT_trained = true) :=
  ⟨wPhy none, 7, by decide⟩

set_option maxRecDepth 1000000 in
theorem wit_service_and_debug_commands_7 :
    ∃ (s : State) (k : _), (k < Member.stacks s.member) ∧ (s.pwrState ≤ 1) ∧ (s.domainOn .stkphy k = true) ∧
      (s.flag (phyP k) STKPHY.PAGE_STAT_trained = true) :=
  ⟨wPhy none, 7, by decide⟩

set_option maxRecDepth 1000000 in
theorem wit_service_and_debug_commands_8 :
    ∃ (s : State) (k : _), (k < Member.stacks s.member) ∧ (s.phyTraining k = true) ∧ (s.domainOn .stkphy k = true) :=
  ⟨wPhy (some 0), 7, by decide⟩

set_option maxRecDepth 1000000 in
theorem wit_service_and_debug_commands_9 :
    ∃ (s : State) (k : _), (k < Member.stacks s.member) ∧ (s.phyTraining k = true) ∧ (s.domainOn .stkphy k = true) ∧
      (s.phyFailsOf k < 2) :=
  ⟨wPhy (some 1), 7, by decide⟩

set_option maxRecDepth 1000000 in
theorem wit_service_and_debug_commands_10 :
    ∃ (s : State) (k : _), (k < Member.stacks s.member) ∧ (s.phyTraining k = true) ∧ (s.domainOn .stkphy k = true) ∧
      (s.phyFailsOf k = 2) :=
  ⟨wPhy (some 2), 7, by decide⟩

set_option maxRecDepth 1000000 in
theorem wit_service_and_debug_commands_11 :
    ∃ (s : State) (port : Port) (scope : _), (1 ≤ scope) ∧ (scope ≤ 2) ∧ (scope = 2 → s.collQuiesced = true ∧
      s.flag snapP SNAP.HB_CFG_en = false) ∧ (Open s port .fuse 0) ∧ (s.fuses.dbgOff = false) :=
  ⟨wQuiet, .ranger, 2, by decide⟩

set_option maxRecDepth 1000000 in
theorem wit_service_and_debug_commands_12 :
    ∃ (s : State) (port : Port) (ws : _) (scope : _) (at' : _), (Open s port .fuse 0) ∧ (s.host.chal = some (ws,
      scope, at')) ∧ (scope < 4) ∧ (s.now ≤ at' + 60000000) :=
  ⟨wDbg, .ranger, [1, 2], 3, 0, by decide⟩

set_option maxRecDepth 1000000 in
theorem wit_fetch_and_hand_over_0 :
    ∃ (s : State) (t : Nat) (q : Nat), (s.mayFetch t q = true) ∧
      (s.mem.poisonedN (s.qBase t q + 64 * s.slotOfCount t q ((s.queueOf t q).pos + (s.queueOf t q).fetched.length)) 64 = false) :=
  ⟨wfetch, 0, 0, by decide⟩

set_option maxRecDepth 1000000 in
theorem wit_fetch_and_hand_over_1 :
    ∃ (s : State) (t : Nat) (q : Nat), (s.mayFetch t q = true) ∧
      (s.mem.poisonedN (s.qBase t q + 64 * s.slotOfCount t q ((s.queueOf t q).pos + (s.queueOf t q).fetched.length)) 64 = true) :=
  ⟨{ wfetch with mem := w1.mem.write (wbytes 0x1000 0 true 8) }, 0, 0, by decide⟩

set_option maxRecDepth 1000000 in
theorem wit_fetch_and_hand_over_2 :
    ∃ (s : State) (t : Nat) (q : Nat) (o : Occ), (s.headOcc t q = some o) ∧ (s.mayHand o = true) ∧
      (s.yields t q o = false) ∧ (s.pwrState = 1 → needsTclk o = false) :=
  ⟨whead (wmul .checked), 0, 0, wmul .checked, by decide⟩

set_option maxRecDepth 1000000 in
theorem wit_fetch_and_hand_over_3 :
    ∃ (s : State) (t : Nat) (q : Nat) (o : Occ), (s.headOcc t q = some o) ∧ (s.mayHand o = true) ∧
      (s.yields t q o = false) ∧ (s.pwrState = 1) ∧ (needsTclk o = true) ∧ (s.pwrMoving = false) ∧
        (s.flag pwrP PWR.PWR_CFG_auto_idle = true) :=
  ⟨((whead (wmul .checked)).fset pwrP PWR.PAGE_STAT_state 1).fset pwrP PWR.PWR_CFG_auto_idle 1, 0, 0, wmul .checked,
    by decide⟩

set_option maxRecDepth 1000000 in
theorem wit_fetch_and_hand_over_4 :
    ∃ (s : State) (t : Nat) (q : Nat) (f : Fetched) (rest : List Fetched), (q < 8) ∧
      ((s.queueOf t q).fetched = f :: rest) ∧ (dWaitEn f.desc = true) ∧ ((s.queueOf t q).head = none) ∧
        (s.headReady t q = false) ∧ (s.fget (tseqP t) (qfd TSEQ.Q_WAIT_LIMIT_ms q) ≠ 0) ∧ (s.pwrState ≤ 1) :=
  ⟨(wdisp (2 ^ 80 + 2 ^ 96)).fset (tseqP 0) (qfd TSEQ.Q_WAIT_LIMIT_ms 0) 1, 0, 0, ⟨0,
    BitVec.ofNat 512 (2 ^ 80 + 2 ^ 96)⟩, [], by decide⟩

set_option maxRecDepth 1000000 in
theorem wit_dispatch_checks_the_head_0 :
    ∃ (s : State) (t : Nat) (q : Nat) (f : Fetched) (rest : List Fetched), ((s.queueOf t q).fetched = f :: rest) ∧
      (layerOut (s.queueOf t q) f.desc = false) ∧ (dWaitEn f.desc = true) ∧
        (dbits f.desc 81 1 = 1 → s.sem t (dbits f.desc 64 12) ≠ dbits f.desc 96 32) ∧
          (dbits f.desc 81 1 = 0 → 2 ^ 31 ≤ (s.sem t (dbits f.desc 64 12) + 2 ^ 32 - dbits f.desc 96 32) % 2 ^ 32) :=
  ⟨wdisp (2 ^ 80 + 2 ^ 96), 0, 0, ⟨0, BitVec.ofNat 512 (2 ^ 80 + 2 ^ 96)⟩, [], by decide⟩

set_option maxRecDepth 1000000 in
theorem wit_dispatch_checks_the_head_1 :
    ∃ (s : State) (t : Nat) (q : Nat) (f : Fetched) (rest : List Fetched), ((s.queueOf t q).fetched = f :: rest) ∧
      (MayDispatch s t q) :=
  ⟨wdisp (0), 0, 0, ⟨0, BitVec.ofNat 512 (0)⟩, [], by decide⟩

set_option maxRecDepth 1000000 in
theorem wit_dispatch_checks_the_head_2 :
    ∃ (s : State) (t : Nat) (q : Nat) (f : Fetched) (rest : List Fetched), ((s.queueOf t q).fetched = f :: rest) ∧
      (MayDispatch s t q) ∧ (layerOut (s.queueOf t q) f.desc = false) ∧ (dWaitEn f.desc = true) ∧
        (dSigEn f.desc = false) :=
  ⟨{ wdisp (2 ^ 80 + 2 ^ 82 + 2 ^ 96) with seq := (((wdisp (2 ^ 80 + 2 ^ 82 + 2 ^ 96)).setSem 0 0 5)).seq }, 0, 0, ⟨0, BitVec.ofNat 512 (2 ^ 80 + 2 ^ 82 + 2 ^ 96)⟩, [], by decide⟩

set_option maxRecDepth 1000000 in
theorem wit_dispatch_checks_the_head_3 :
    ∃ (s : State) (t : Nat) (q : Nat) (f : Fetched) (rest : List Fetched), ((s.queueOf t q).fetched = f :: rest) ∧
      (MayDispatch s t q) ∧ ((s.queueOf t q).reps = []) ∧ (dWaitEn f.desc = false) ∧ (dSigEn f.desc = false) ∧
        (dbits f.desc 17 1 = 0) ∧ ((checkDesc (counted s t q) t q f.desc (itsOf [])).code = 0) :=
  ⟨wdisp (0), 0, 0, ⟨0, BitVec.ofNat 512 (0)⟩, [], by decide⟩

set_option maxRecDepth 1000000 in
theorem wit_dispatch_checks_the_head_4 :
    ∃ (s : State) (t : Nat) (q : Nat) (f : Fetched) (rest : List Fetched), ((s.queueOf t q).fetched = f :: rest) ∧
      (MayDispatch s t q) ∧ ((s.queueOf t q).reps = []) ∧ (dWaitEn f.desc = false) ∧ (dSigEn f.desc = false) ∧
        (dbits f.desc 17 1 = 0) ∧ ((checkDesc (counted s t q) t q f.desc (itsOf [])).code ≠ 0) ∧
          (dbits f.desc 0 8 ≠ 0x30) ∧ (dbits f.desc 0 8 ≠ 0x09) ∧ (s.qSBase t q % 8 = 0) :=
  ⟨wdisp (0xFF), 0, 0, ⟨0, BitVec.ofNat 512 (0xFF)⟩, [], by decide⟩

set_option maxRecDepth 1000000 in
theorem wit_dispatch_checks_the_head_5 :
    ∃ (s : State) (t : Nat) (q : Nat) (f : Fetched) (rest : List Fetched), ((s.queueOf t q).fetched = f :: rest) ∧
      (MayDispatch s t q) ∧ ((s.queueOf t q).reps = []) ∧ (dWaitEn f.desc = false) ∧ (dSigEn f.desc = true) ∧
        (Member.tiles s.member ≤ dSigTile f.desc) ∧ (dbits f.desc 0 8 ≠ 0x09) ∧ (s.qSBase t q % 8 = 0) :=
  ⟨{ wdisp (2 ^ 144 + 7 * 2 ^ 140) with fuses := { w1.fuses with member := .xsm4 } }, 0, 0, ⟨0, BitVec.ofNat 512 (2 ^ 144 + 7 * 2 ^ 140)⟩, [], by decide⟩

set_option maxRecDepth 1000000 in
theorem wit_dispatch_checks_the_head_6 :
    ∃ (s : State) (t : Nat) (q : Nat) (f : Fetched) (rest : List Fetched), ((s.queueOf t q).fetched = f :: rest) ∧
      (MayDispatch s t q) ∧ ((s.queueOf t q).reps = []) ∧ (dWaitEn f.desc = false) ∧
        (dSigEn f.desc = true → dSigTile f.desc < Member.tiles s.member) ∧ (Gated s t f.desc) ∧
          (s.mem.bit (gateByte s t f.desc).toNat (gateBit s t f.desc % 8).toNat = (dbits f.desc 18 1 == 1)) ∧
            (dbits f.desc 0 8 ≠ 0x30) ∧ (dbits f.desc 0 8 ≠ 0x09) ∧ (s.qSBase t q % 8 = 0) :=
  ⟨wgate (2 ^ 17), 0, 0, ⟨0, BitVec.ofNat 512 (2 ^ 17)⟩, [], by decide⟩

set_option maxRecDepth 1000000 in
theorem wit_dispatch_checks_the_head_7 :
    ∃ (s : State) (t : Nat) (q : Nat) (f : Fetched) (rest : List Fetched), ((s.queueOf t q).fetched = f :: rest) ∧
      (MayDispatch s t q) ∧ ((s.queueOf t q).reps = []) ∧ (dWaitEn f.desc = false) ∧ (dSigEn f.desc = false) ∧
        (Gated s t f.desc) ∧ (s.mem.bit (gateByte s t f.desc).toNat (gateBit s t f.desc % 8).toNat ≠ (dbits f.desc 18 1 == 1)) ∧ ((checkDesc (((counted s t q).touchEntry t (dbits f.desc 32 16)).tileTouch t (gateByte s t f.desc).toNat 1) t q f.desc (itsOf [])).code = 0) :=
  ⟨wgate (2 ^ 17 + 2 ^ 18), 0, 0, ⟨0, BitVec.ofNat 512 (2 ^ 17 + 2 ^ 18)⟩, [], by decide⟩

set_option maxRecDepth 1000000 in
theorem wit_sequencer_commands_complete_0 :
    ∃ (s : State) (t : Nat) (q : Nat) (o : Occ), (t < 8) ∧ (q < 8) ∧ (o.tile = t) ∧ (o.queue = q) ∧
      (s.headOcc t q = some o) ∧ (o.opcode = 0x00) ∧ (s.mayEnd o = true) :=
  ⟨whead (wocc 1 0 .tseq .checked), 0, 0, wocc 1 0 .tseq .checked, by decide⟩

set_option maxRecDepth 1000000 in
theorem wit_sequencer_commands_complete_1 :
    ∃ (s : State) (t : Nat) (q : Nat) (o : Occ), (t < 8) ∧ (q < 8) ∧ (o.tile = t) ∧ (o.queue = q) ∧
      (s.headOcc t q = some o) ∧ (o.opcode = 0x28) ∧ (s.mayEnd o = true) :=
  ⟨whead (wocc 1 0x28 .tseq .checked), 0, 0, wocc 1 0x28 .tseq .checked, by decide⟩

set_option maxRecDepth 1000000 in
theorem wit_sequencer_commands_complete_2 :
    ∃ (s : State) (t : Nat) (q : Nat) (o : Occ), (t < 8) ∧ (q < 8) ∧ (o.tile = t) ∧ (o.queue = q) ∧
      (s.headOcc t q = some o) ∧ (o.opcode = 0x2A) ∧ (o.place = .checked) ∧ (s.fenceDone o = true) ∧
        (s.mayEnd o = true) :=
  ⟨whead (wocc 1 0x2A .tseq .checked), 0, 0, wocc 1 0x2A .tseq .checked, by decide⟩

set_option maxRecDepth 1000000 in
theorem wit_sequencer_commands_complete_3 :
    ∃ (s : State) (t : Nat) (q : Nat) (o : Occ), (t < 8) ∧ (q < 8) ∧ (o.tile = t) ∧ (o.queue = q) ∧
      (s.headOcc t q = some o) ∧ (o.opcode = 0x2A) ∧ (o.place = .checked) ∧ (s.fenceDone o = false) ∧
        (s.mayEnd o = true) :=
  ⟨whead { wocc 1 0x2A .tseq .checked with aux := [1] }, 0, 0, { wocc 1 0x2A .tseq .checked with aux := [1] }, by decide⟩

set_option maxRecDepth 1000000 in
theorem wit_sequencer_commands_complete_4 :
    ∃ (s : State) (t : Nat) (q : Nat) (o : Occ), (t < 8) ∧ (q < 8) ∧ (o.tile = t) ∧ (o.queue = q) ∧
      (s.headOcc t q = some o) ∧ (o.opcode = 0x2A) ∧ (o.place = .waiting) ∧ (s.fenceDone o = true) ∧
        (s.mayEnd o = true) :=
  ⟨whead (wocc 1 0x2A .tseq .waiting), 0, 0, wocc 1 0x2A .tseq .waiting, by decide⟩

set_option maxRecDepth 1000000 in
theorem wit_sequencer_commands_complete_5 :
    ∃ (s : State) (t : Nat) (q : Nat) (o : Occ), (t < 8) ∧ (q < 8) ∧ (o.tile = t) ∧ (o.queue = q) ∧
      (s.headOcc t q = some o) ∧ (o.opcode = 0x30) ∧ (o.place = .checked) ∧ (s.pwrState ≤ 1) :=
  ⟨whead (wocc 1 0x30 .tseq .checked), 0, 0, wocc 1 0x30 .tseq .checked, by decide⟩

set_option maxRecDepth 1000000 in
theorem wit_sequencer_commands_complete_6 :
    ∃ (s : State) (t : Nat) (q : Nat) (o : Occ), (t < 8) ∧ (q < 8) ∧ (o.tile = t) ∧ (o.queue = q) ∧
      (s.seq.occs.find? (fun o => decide (o.tile = t) && decide (o.queue = q) && decide (o.place = .tail) && !(s.seq.occs.any fun x => inLast o x)) = some o) ∧ (s.mayEnd o = true) :=
  ⟨wsv [wocc 1 0x30 .tseq .tail], 0, 0, wocc 1 0x30 .tseq .tail, by decide⟩

set_option maxRecDepth 1000000 in
theorem wit_sequencer_commands_complete_7 :
    ∃ (s : State) (t : Nat) (q : Nat) (o : Occ) (n : Nat), (t < 8) ∧ (q < 8) ∧ (o.tile = t) ∧ (o.queue = q) ∧
      ((s.completable t)[n]? = some o) ∧ (s.ctxOf o.id = none) ∧ (s.endOpen o = true) :=
  ⟨wsv [wocc 1 0xF1A .rng .done], 0, 0, wocc 1 0xF1A .rng .done, 0, by decide⟩

set_option maxRecDepth 1000000 in
theorem wit_matmul_issues_groups_0 :
    ∃ (s : State) (t : Nat) (e : Nat), (s.domainOn .te (4 * t + e) = true) :=
  ⟨w1, 0, 0, by decide⟩

set_option maxRecDepth 1000000 in
theorem wit_matmul_issues_groups_1 :
    ∃ (s : State) (t : Nat) (e : Nat) (o : Occ) (j : MulJob), (s.domainOn .te (4 * t + e) = true) ∧
      (s.mulFront t e = some o) ∧ (mulJob o = some j) ∧ (o.place = .input) ∧ (1 < j.groups) :=
  ⟨wsv [wmul .input], 0, 0, wmul .input, ⟨wmulA, wmulA, wmulT, 128⟩, by decide⟩

set_option maxRecDepth 1000000 in
theorem wit_matmul_issues_groups_2 :
    ∃ (s : State) (t : Nat) (e : Nat) (o : Occ) (j : MulJob) (x : TeSt), (s.domainOn .te (4 * t + e) = true) ∧
      (s.mulFront t e = some o) ∧ (mulJob o = some j) ∧ (o.place = .running) ∧ (s.teOf (4 * t + e) = x) ∧
        (x.kpos + 1 ≠ x.runStart + mulRunLen o) ∧ (x.kpos + 1 < j.groups) :=
  ⟨wmulOf (wmul .running) 0 [], 0, 0, wmul .running, ⟨wmulA, wmulA, wmulT, 128⟩, (⟨some 1, false, 0, 0, 0, 0, true,
    []⟩ : TeSt), by decide⟩

set_option maxRecDepth 1000000 in
theorem wit_matmul_issues_groups_3 :
    ∃ (s : State) (t : Nat) (e : Nat) (o : Occ) (j : MulJob) (x : TeSt), (s.domainOn .te (4 * t + e) = true) ∧
      (s.mulFront t e = some o) ∧ (mulJob o = some j) ∧ (o.place = .running) ∧ (s.teOf (4 * t + e) = x) ∧
        (x.drains = []) ∧ (x.kpos + 1 = x.runStart + mulRunLen o) ∧ (x.kpos + 1 < j.groups) :=
  ⟨wmulOf (wmul8) 3 [], 0, 0, wmul8, ⟨wmulB, wmulB, wmulT, 128⟩, (⟨some 1, false, 0, 0, 3, 0, true, []⟩ : TeSt),
    by decide⟩

set_option maxRecDepth 1000000 in
theorem wit_matmul_issues_groups_4 :
    ∃ (s : State) (t : Nat) (e : Nat) (o : Occ) (j : MulJob) (x : TeSt), (s.domainOn .te (4 * t + e) = true) ∧
      (s.mulFront t e = some o) ∧ (mulJob o = some j) ∧ (o.place = .running) ∧ (s.teOf (4 * t + e) = x) ∧
        (x.drains = []) ∧ (mulDrained o = true) ∧ (x.kpos + 1 = j.groups) :=
  ⟨wmulOf (wmulD) 1 [], 0, 0, wmulD, ⟨wmulA, wmulA, wmulT, 128⟩, (⟨some 1, false, 0, 0, 1, 0, true, []⟩ : TeSt),
    by decide⟩

set_option maxRecDepth 1000000 in
theorem wit_matmul_issues_groups_5 :
    ∃ (s : State) (t : Nat) (e : Nat) (o : Occ) (j : MulJob) (x : TeSt), (s.domainOn .te (4 * t + e) = true) ∧
      (s.mulFront t e = some o) ∧ (mulJob o = some j) ∧ (o.place = .running) ∧ (s.teOf (4 * t + e) = x) ∧
        (x.drains = []) ∧ (mulDrained o = false) ∧ (x.kpos + 1 = j.groups) ∧ (x.row + 1 = j.blockRows) ∧
          (x.col + 1 = j.blockCols) :=
  ⟨wmulOf (wmul .running) 1 [], 0, 0, wmul .running, ⟨wmulA, wmulA, wmulT, 128⟩, (⟨some 1, false, 0, 0, 1, 0, true,
    []⟩ : TeSt), by decide⟩

set_option maxRecDepth 1000000 in
theorem wit_matmul_issues_groups_6 :
    ∃ (s : State) (t : Nat) (e : Nat) (o : Occ) (j : MulJob) (x : TeSt), (s.domainOn .te (4 * t + e) = true) ∧
      (s.mulFront t e = some o) ∧ (mulJob o = some j) ∧ (o.place = .running) ∧ (s.teOf (4 * t + e) = x) ∧
        (x.drains ≠ []) ∧ (x.kpos + 1 = x.runStart + mulRunLen o ∨ x.kpos + 1 = j.groups) :=
  ⟨wmulOf (wmul .running) 1 [wblk], 0, 0, wmul .running, ⟨wmulA, wmulA, wmulT, 128⟩, (⟨some 1, false, 0, 0, 1, 0,
    true, [wblk]⟩ : TeSt), by decide⟩

set_option maxRecDepth 1000000 in
theorem wit_drain_path_commands_0 :
    ∃ (s : State) (t : Nat) (e : Nat) (o : Occ) (tot : _), (s.domainOn .te (4 * t + e) = true) ∧
      (s.drainFront t e = some o) ∧ (o.ten 0 = some tot) ∧ (s.sampled t e tot = none) ∧
        (∀ b ∈ (s.teOf (s.drainKey t e)).drains, b.ahead.contains o.id = true) :=
  ⟨wsv [wdrain], 0, 0, wdrain, wmulT, by decide⟩

set_option maxRecDepth 1000000 in
theorem wit_drain_path_commands_1 :
    ∃ (s : State) (t : Nat) (e : Nat) (o : Occ) (tot : _) (mo : _) (j : MulJob) (x : TeSt),
      (s.domainOn .te (4 * t + e) = true) ∧ (s.drainFront t e = some o) ∧ (o.ten 0 = some tot) ∧
        (s.sampled t e tot = some (mo, j)) ∧ (s.teOf (s.drainKey t e) = x) ∧ (∀ b ∈ x.drains,
          b.ahead.contains o.id = true) :=
  ⟨{ wmulOf (wmul .running) 1 [] with seq := { w1.seq with occs := [wmul .running, { wdrain with id := 2 }], nextId := 100 } }, 0, 0, { wdrain with id := 2 }, wmulT, wmul .running, ⟨wmulA, wmulA, wmulT, 128⟩, (⟨some 1, false, 0, 0, 1, 0, true, []⟩ : TeSt), by decide⟩

set_option maxRecDepth 1000000 in
theorem wit_drain_path_commands_2 :
    ∃ (s : State) (t : Nat) (e : Nat) (b : DrainBlk) (rest : List DrainBlk) (o : Occ) (j : MulJob),
      (s.domainOn .te (4 * t + e) = true) ∧ ((s.teOf (4 * t + e)).drains = b :: rest) ∧ (s.occ b.occ = some o) ∧
        (mulJob o = some j) ∧ (∀ k ∈ s.drainEngines t e, ∀ d,
          s.drainFront t (k % 4) = some d → b.ahead.contains d.id = false) :=
  ⟨wblkS, 0, 0, wblk, [], wmul .waiting, ⟨wmulA, wmulA, wmulT, 128⟩, by decide⟩

set_option maxRecDepth 1000000 in
theorem wit_copies_write_their_destination_0 :
    ∃ (c : Instr) (op t : Nat) (ups : List (Nat × Nat)) (s : State) (o : Occ) (src dst : Tensor),
      copyCmd c = some (op, t, ups) ∧ s.dmaFront t = some o ∧ o.ten 0 = some src ∧ o.ten 1 = some dst ∧
        o.opcode = op ∧
        s.pwrState ≤ 1 :=
  ⟨.move 0 [], 0x08, 0, [], wsv [wmove], wmove, wten 0 2 1 4, wten 0x1000 2 1 4, by decide⟩

set_option maxRecDepth 1000000 in
theorem wit_vector_commands_write_their_lanes_0 :
    ∃ (c : Instr) (t : Nat) (op : Nat) (s : State) (o : Occ), (vecCmd c = some (t, op)) ∧ (s.veFront t = some o) ∧
      (o.opcode = 0x03) ∧ (vecOp o.desc = op) ∧ (s.domainOn .ve t = true) :=
  ⟨.vecMul 0, 0, 3, wsv [wvec], wvec, by decide⟩

set_option maxRecDepth 1000000 in
theorem wit_random_fills_complete_0 :
    ∃ (c : Instr) (t : Nat) (kind : Nat) (s : State) (o : Occ) (x : _), (rngCmd c = some (t, kind)) ∧
      (s.unitFront t .rng = some o) ∧ (o.place = .input) ∧ (rngKind o = kind) ∧ (s.domainOn .rng t = true) ∧
        (kind ∈ [1, 2, 3]) ∧ (o.ten 0 = some x) ∧ (kind = 1 → x.size = 4) :=
  ⟨.rngBits 0, 0, 1, wsv [woct 1 0x11A .rng .input [some (wten 0 2 1 4)]],
    woct 1 0x11A .rng .input [some (wten 0 2 1 4)], wten 0 2 1 4, by decide⟩

set_option maxRecDepth 1000000 in
theorem wit_random_fills_complete_1 :
    ∃ (c : Instr) (t : Nat) (kind : Nat) (s : State) (o : Occ) (x : _), (rngCmd c = some (t, kind)) ∧
      (s.unitFront t .rng = some o) ∧ (o.place = .input) ∧ (rngKind o = kind) ∧ (s.domainOn .rng t = true) ∧
        (kind = 4) ∧ (o.ten 0 = some x) :=
  ⟨.rngBernoulli 0, 0, 4, wsv [woct 1 0x41A .rng .input [some (wten 0 0 1 1)]],
    woct 1 0x41A .rng .input [some (wten 0 0 1 1)], wten 0 0 1 1, by decide⟩

set_option maxRecDepth 1000000 in
theorem wit_random_fills_complete_2 :
    ∃ (c : Instr) (t : Nat) (kind : Nat) (s : State) (o : Occ), (rngCmd c = some (t, kind)) ∧
      (s.unitFront t .rng = some o) ∧ (o.place = .input) ∧ (rngKind o = kind) ∧ (s.domainOn .rng t = true) ∧
        (kind = 0xF) ∧ (o.ten 0 = none) :=
  ⟨.rngSetStep 0, 0, 15, wsv [woct 1 0xF1A .rng .input [none]], woct 1 0xF1A .rng .input [none], by decide⟩

set_option maxRecDepth 1000000 in
theorem wit_scale_commands_complete_0 :
    ∃ (t : Nat) (s : State) (o : Occ) (x : Tensor), (s.scaleFront t = some o) ∧ (s.domainOn .scale t = true) ∧
      (o.ten 0 = some x) ∧ (o.tile < Member.tiles s.member) ∧ (o.subop = 1) :=
  ⟨0, (wsv [woct 1 (0x11C + 2 ^ 208) .scale .input [some (wten 0 2 1 4)]]),
    woct 1 (0x11C + 2 ^ 208) .scale .input [some (wten 0 2 1 4)], wten 0 2 1 4, by decide⟩

set_option maxRecDepth 1000000 in
theorem wit_scale_commands_complete_1 :
    ∃ (t : Nat) (s : State) (o : Occ) (x : Tensor) (n : _) (a : Int) (v : _), (s.scaleFront t = some o) ∧
      (s.domainOn .scale t = true) ∧ (o.ten 0 = some x) ∧ (o.tile < Member.tiles s.member) ∧ (o.subop = 2) ∧
        (scaleSlots o = [(0, n)]) ∧ (n < 4096) ∧ (x.addrs = [a]) ∧ (s.mem.poisonedN a.toNat 4 = false) ∧
          (pushable (s.mem.code 2 a.toNat) = some v) :=
  ⟨0, (wsv [woct 1 (0x21C + 2 ^ 208) .scale .input [some (wten 0 2 1 4)]]),
    woct 1 (0x21C + 2 ^ 208) .scale .input [some (wten 0 2 1 4)], wten 0 2 1 4, 0, 0, 0, by decide⟩

set_option maxRecDepth 1000000 in
theorem wit_scale_commands_complete_2 :
    ∃ (t : Nat) (s : State) (o : Occ) (x : Tensor) (n : _) (a : Int), (s.scaleFront t = some o) ∧
      (s.domainOn .scale t = true) ∧ (o.ten 0 = some x) ∧ (o.tile < Member.tiles s.member) ∧ (o.subop = 3) ∧
        (scaleSlots o = [(0, n)]) ∧ (n < 4096) ∧ (x.addrs = [a]) ∧ (s.mem.poisonedN a.toNat 4 = false) ∧
          (s.mem.code 2 a.toNat ≠ 0) ∧ (s.mem.code 2 a.toNat < 0x7F800000) :=
  ⟨0, { (wsv [woct 1 (0x31C + 2 ^ 208) .scale .input [some (wten 0 2 1 4)]]) with mem := w1.mem.write (wbytes 0 0x3F800000 false 4) }, woct 1 (0x31C + 2 ^ 208) .scale .input [some (wten 0 2 1 4)], wten 0 2 1 4, 0, 0, by decide⟩

set_option maxRecDepth 1000000 in
theorem wit_scale_commands_complete_3 :
    ∃ (t : Nat) (s : State) (o : Occ) (x : Tensor), (s.scaleFront t = some o) ∧ (s.domainOn .scale t = true) ∧
      (o.ten 0 = some x) ∧ (o.tile < Member.tiles s.member) ∧ (o.subop = 4) :=
  ⟨0, (wsv [woct 1 (0x41C + 2 ^ 208) .scale .input [some (wten 0 0 1 1)]]),
    woct 1 (0x41C + 2 ^ 208) .scale .input [some (wten 0 0 1 1)], wten 0 0 1 1, by decide⟩

set_option maxRecDepth 1000000 in
theorem wit_scale_commands_complete_4 :
    ∃ (t : Nat) (s : State) (o : Occ) (x : Tensor) (n : _), (s.scaleFront t = some o) ∧
      (s.domainOn .scale t = true) ∧ (o.ten 0 = some x) ∧ (o.tile < Member.tiles s.member) ∧ (o.subop = 5) ∧
        (scaleSlots o = [(0, n)]) ∧ (n < 4096) ∧ (s.mem.poisonedN x.base 80 = false) :=
  ⟨0, (wsv [woct 1 (0x51C + 2 ^ 208) .scale .input [some (wten 0 0 1 1)]]),
    woct 1 (0x51C + 2 ^ 208) .scale .input [some (wten 0 0 1 1)], wten 0 0 1 1, 0, by decide⟩

set_option maxRecDepth 1000000 in
theorem wit_scale_commands_complete_5 :
    ∃ (t : Nat) (s : State) (o : Occ) (x : Tensor), (s.scaleFront t = some o) ∧ (s.domainOn .scale t = true) ∧
      (o.ten 0 = some x) ∧ (o.tile < Member.tiles s.member) ∧ (o.subop = 6) :=
  ⟨0, (wsv [woct 1 (0x61C + 2 ^ 208) .scale .input [some (wten 0 0 1 1)]]),
    woct 1 (0x61C + 2 ^ 208) .scale .input [some (wten 0 0 1 1)], wten 0 0 1 1, by decide⟩

set_option maxRecDepth 1000000 in
theorem wit_norm_commands_complete_0 :
    ∃ (t : Nat) (s : State) (o : Occ) (acc : Tensor), (s.unitFront t .ve = some o) ∧ (o.place = .input) ∧
      (o.opcode = 0x18) ∧ (s.domainOn .ve t = true) ∧ (o.ten 1 = some acc) ∧ (o.subop = 1) :=
  ⟨0, (wsv [woct 1 0x118 .ve .input [none, some (wten 0 0 1 1)]]), woct 1 0x118 .ve .input [none,
    some (wten 0 0 1 1)], wten 0 0 1 1, by decide⟩

set_option maxRecDepth 1000000 in
theorem wit_norm_commands_complete_1 :
    ∃ (t : Nat) (s : State) (o : Occ) (acc : Tensor) (src : _), (s.unitFront t .ve = some o) ∧ (o.place = .input) ∧
      (o.opcode = 0x18) ∧ (s.domainOn .ve t = true) ∧ (o.ten 1 = some acc) ∧ (o.subop = 2) ∧ (o.ten 0 = some src) :=
  ⟨0, (wsv [woct 1 0x218 .ve .input [some (wten 128 2 1 4), some (wten 0 0 1 1)]]),
    woct 1 0x218 .ve .input [some (wten 128 2 1 4), some (wten 0 0 1 1)], wten 0 0 1 1, wten 128 2 1 4, by decide⟩

set_option maxRecDepth 1000000 in
theorem wit_norm_commands_complete_2 :
    ∃ (t : Nat) (s : State) (o : Occ) (acc : Tensor) (out : _), (s.unitFront t .ve = some o) ∧ (o.place = .input) ∧
      (o.opcode = 0x18) ∧ (s.domainOn .ve t = true) ∧ (o.ten 1 = some acc) ∧ (o.subop = 4) ∧ (o.ten 2 = some out) :=
  ⟨0, (wsv [woct 1 0x418 .ve .input [none, some (wten 0 0 1 1), some (wten 128 4 1 8)]]),
    woct 1 0x418 .ve .input [none, some (wten 0 0 1 1), some (wten 128 4 1 8)], wten 0 0 1 1, wten 128 4 1 8,
      by decide⟩

set_option maxRecDepth 1000000 in
theorem wit_own_data_commands_take_the_next_piece_0 :
    ∃ (s : State) (sub : Nat) (vc : Nat) (seq : Nat) (bucket : Nat) (c : Ctx) (o : Occ) (cmd : Instr) (src : Tensor), (ownCmd sub vc seq bucket = some cmd) ∧ (Running s sub vc seq bucket c o) ∧ (o.ten 0 = some src) ∧ (c.own < ownBytes s c o) :=
  ⟨wWith w1 (wCol 3 0) wColO, 3, 2, 0, 0, wCol 3 0, wColO, .collAllgather 2 0 0, wten 0 2 1 4, by decide⟩

set_option maxRecDepth 1000000 in
theorem wit_own_data_commands_take_the_next_piece_1 :
    ∃ (s : State) (sub : Nat) (vc : Nat) (seq : Nat) (bucket : Nat) (c : Ctx) (o : Occ) (cmd : Instr),
      (ownCmd sub vc seq bucket = some cmd) ∧ (Running s sub vc seq bucket c o) ∧
        (o.ten 0 = none ∨ ownBytes s c o ≤ c.own) :=
  ⟨wWith w1 (wCol 7 0) wRecO, 7, 2, 0, 0, wCol 7 0, wRecO, .collRecv 2 0 0, by decide⟩

set_option maxRecDepth 1000000 in
theorem wit_own_data_commands_take_the_next_piece_2 :
    ∃ (s : State) (vc : Nat) (seq : Nat) (bucket : Nat) (c : Ctx) (o : Occ), (Running s 5 vc seq bucket c o) ∧
      (o.ten 3 = none ∨ c.ins = [] ∨ (c.ins.all fun i => i.arrived && !i.accepted) = false) :=
  ⟨wWith w1 (wCol 5 0) wColO, 2, 0, 0, wCol 5 0, wColO, by decide⟩

set_option maxRecDepth 1000000 in
theorem wit_own_data_commands_take_the_next_piece_3 :
    ∃ (s : State) (seq : Nat) (c : Ctx) (o : Occ) (t : _) (src : Tensor), (s.ctxAt 3 seq (gaBucket t) = some c) ∧
      (s.ctxOf c.occ = some c) ∧ (s.occ c.occ = some o) ∧ (c.sub = 0x10) ∧ (o.place = .running ∨ o.place = .input ∧
        s.dmaFront t = some o) ∧ (s.tensOpen o = true) ∧ (c.inbox = []) ∧ (s.domainOn .dma t = true) ∧
          (o.ten 0 = some src) ∧ (c.own < ownBytes s c o) :=
  ⟨wWith w1 { wCol 0x10 0 with vc := 3, bucket := 0xFF07 } wColO, 0, { wCol 0x10 0 with vc := 3, bucket := 0xFF07 }, wColO, 7, wten 0 2 1 4, by decide⟩

set_option maxRecDepth 1000000 in
theorem wit_reducing_chains_start_at_position_zero_0 :
    ∃ (s : State) (vc : Nat) (seq : Nat) (bucket : Nat) (c : Ctx) (o : Occ) (cmd : Instr) (sub : _), ((sub = 1 ∧
      cmd = Instr.collAllreduce vc seq bucket) ∨ (sub = 2 ∧ cmd = Instr.collReduceScatter vc seq bucket)) ∧
        (Running s sub vc seq bucket c o) ∧ (c.pos = 0) ∧ (c.own < chainBytes c o) :=
  ⟨wWith w1 (wCol 1 0) wColO, 2, 0, 0, wCol 1 0, wColO, .collAllreduce 2 0 0, 1, by decide⟩

set_option maxRecDepth 1000000 in
theorem wit_reducing_chains_start_at_position_zero_1 :
    ∃ (s : State) (vc : Nat) (seq : Nat) (bucket : Nat) (c : Ctx) (o : Occ) (cmd : Instr) (sub : _), ((sub = 1 ∧
      cmd = Instr.collAllreduce vc seq bucket) ∨ (sub = 2 ∧ cmd = Instr.collReduceScatter vc seq bucket)) ∧
        (Running s sub vc seq bucket c o) ∧ (c.pos ≠ 0 ∨ chainBytes c o ≤ c.own) :=
  ⟨wWith w1 (wCol 2 1) wColO, 2, 0, 0, wCol 2 1, wColO, .collReduceScatter 2 0 0, 2, by decide⟩

set_option maxRecDepth 1000000 in
theorem wit_reducing_chains_start_at_position_zero_2 :
    ∃ (s : State) (c : Ctx) (o : Occ) (t : _), (s.unitFront t .ve = some o) ∧ (s.ctxOf o.id = some c) ∧
      (o.place = .input) ∧ (c.sub = 0x11) ∧ (s.domainOn .ve t = true) :=
  ⟨wWith w1 (wCol 0x11 0) (woct 1 0x318 .ve .input [none, some (wten 0 0 1 1)]), wCol 0x11 0,
    woct 1 0x318 .ve .input [none, some (wten 0 0 1 1)], 0, by decide⟩

set_option maxRecDepth 1000000 in
theorem wit_grant_and_opens_0 :
    ∃ (s : State) (vc : Nat) (o : Occ), (firstHead (s.ctxHeads vc) = some o) ∧ (vc ≤ 7) ∧
      (s.ctxCount vc < ctxLimit vc) ∧ (s.flag State.collP COLL.PAGE_CTRL_quiesce = false) ∧ (s.fireClosed = false) ∧
        (s.pwrState = 0) ∧ (s.yields o.tile o.queue o = false) ∧ (s.ctxAt vc (seqOf o) (bucketOf o) = none) ∧
          (s.ctxOf o.id = none) :=
  ⟨whead wWant, 2, wWant, by decide⟩

set_option maxRecDepth 1000000 in
theorem wit_grant_and_opens_1 :
    ∃ (s : State) (vc : Nat) (o : Occ), (firstHead (s.ctxHeads vc) = some o) ∧ (vc ≤ 7) ∧
      (s.ctxCount vc < ctxLimit vc) ∧ (s.flag State.collP COLL.PAGE_CTRL_quiesce = false) ∧ (s.fireClosed = false) ∧
        (s.pwrState = 0) ∧ (s.yields o.tile o.queue o = false) ∧
          ((s.ctxAt vc (seqOf o) (bucketOf o)).isSome = true) :=
  ⟨{ whead wWant with coll := { w1.coll with ctxs := [{ wCtx with occ := 9, seq := 5, bucket := 6 }] } }, 2, wWant, by decide⟩

set_option maxRecDepth 1000000 in
theorem wit_grant_and_opens_2 :
    ∃ (s : State) (vc : Nat) (o : Occ), (firstHead (s.ctxHeads vc) = some o) ∧ (vc ≤ 7) ∧
      (s.ctxCount vc < ctxLimit vc) ∧ (s.flag State.collP COLL.PAGE_CTRL_quiesce = false) ∧ (s.fireClosed = false) ∧
        (s.pwrState = 1) ∧ (s.yields o.tile o.queue o = false) ∧ (needsTclk o = true) ∧ (s.pwrMoving = false) ∧
          (s.flag pwrP PWR.PWR_CFG_auto_idle = true) :=
  ⟨((whead wNx).fset pwrP PWR.PAGE_STAT_state 1).fset pwrP PWR.PWR_CFG_auto_idle 1, 2, wNx, by decide⟩

set_option maxRecDepth 1000000 in
theorem wit_grant_and_opens_3 :
    ∃ (s : State) (vc : Nat), (s.ctxHeads vc = [] ∨ ctxLimit vc ≤ s.ctxCount vc ∨ s.flag State.collP COLL.PAGE_CTRL_quiesce = true ∨ s.fireClosed = true) :=
  ⟨w1, 2, by decide⟩

set_option maxRecDepth 1000000 in
theorem wit_grant_and_opens_4 :
    ∃ (s : State) (vc : Nat) (seq : _) (bucket : _) (pos : _) (c : Ctx) (o : Occ) (st : Stream),
      (s.ctxAt vc seq bucket = some c) ∧ (s.ctxOf c.occ = some c) ∧ (s.occ c.occ = some o) ∧ (o.place ≠ .done) ∧
        (o.place ≠ .ended) ∧ (s.domainOn .coll 0 = true) ∧
          (c.outs.find? (fun x => decide (x.pos = pos) && x.retry && !x.accepted) = some st) :=
  ⟨wWith w1 (wCol 3 0) wColO, 2, 0, 0, 1, wCol 3 0, wColO, ⟨1, 1, false, false, true, 0, [], false⟩, by decide⟩

set_option maxRecDepth 1000000 in
theorem wit_grant_and_opens_5 :
    ∃ (s : State) (vc : Nat) (o : Occ), (o ∈ s.heads) ∧ (o.opcode ≠ 0x29) ∧ (o.unit ≠ .tseq) ∧
      (needsContext o.desc = true) ∧ (vcOf o = vc) ∧ (vc < 8) ∧
        (ctxLimit vc ≤ s.ctxCount vc ∨ 16 ≤ s.inFlight o.tile ∨ s.flag State.collP COLL.PAGE_CTRL_quiesce = true) ∧
          (s.domainOn .coll 0 = true) ∧ (s.fget State.collP COLL.WAIT_LIMIT_ms ≠ 0) :=
  ⟨((whead wWant).fset collP COLL.WAIT_LIMIT_ms 1).fset collP COLL.PAGE_CTRL_quiesce 1, 2, wWant, by decide⟩

set_option maxRecDepth 1000000 in
theorem wit_grant_and_opens_6 :
    ∃ (s : State) (c : Ctx) (st : Stream), (c ∈ s.coll.ctxs) ∧ (s.running c = true) ∧ (st ∈ c.outs) ∧
      (st.accepted = false) ∧ (s.domainOn .coll 0 = true) ∧ (s.fget State.collP COLL.WAIT_LIMIT_ms ≠ 0) :=
  ⟨(wWith w1 (wCol 3 0) wColO).fset collP COLL.WAIT_LIMIT_ms 1, wCol 3 0, ⟨1, 1, false, false, true, 0, [], false⟩,
    by decide⟩

set_option maxRecDepth 1000000 in
theorem wit_signals_and_groups_0 :
    ∃ (s : State) (t : Nat) (q : Nat) (o : Occ), (t < 8) ∧ (q < 8) ∧ (o.tile = t) ∧ (o.queue = q) ∧
      (s.headOcc t q = some o) ∧ (o.opcode = 0x29) ∧ (o.place = .checked) ∧ (s.mayEnd o = true) ∧ (o.f 223 1 = 0) :=
  ⟨whead (wSig 0), 0, 0, wSig 0, by decide⟩

set_option maxRecDepth 1000000 in
theorem wit_signals_and_groups_1 :
    ∃ (s : State) (t : Nat) (q : Nat) (o : Occ), (t < 8) ∧ (q < 8) ∧ (o.tile = t) ∧ (o.queue = q) ∧
      (s.headOcc t q = some o) ∧ (o.opcode = 0x29) ∧ (o.place = .checked) ∧ (s.mayEnd o = true) ∧ (o.f 223 1 = 1) ∧
        (o.f 192 16 = s.rank) ∧ (o.f 220 3 < Member.tiles s.member) :=
  ⟨whead (wSigN 0), 0, 0, wSigN 0, by decide⟩

set_option maxRecDepth 1000000 in
theorem wit_signals_and_groups_2 :
    ∃ (s : State) (t : Nat) (q : Nat) (o : Occ), (t < 8) ∧ (q < 8) ∧ (o.tile = t) ∧ (o.queue = q) ∧
      (s.headOcc t q = some o) ∧ (o.opcode = 0x29) ∧ (o.place = .checked) ∧ (s.mayEnd o = true) ∧ (o.f 223 1 = 1) ∧
        (o.f 192 16 = s.rank) ∧ (Member.tiles s.member ≤ o.f 220 3) :=
  ⟨{ whead (wSig (2 ^ 223 + 7 * 2 ^ 220)) with fuses := { w1.fuses with member := .xsm4 } }, 0, 0, wSig (2 ^ 223 + 7 * 2 ^ 220), by decide⟩

set_option maxRecDepth 1000000 in
theorem wit_signals_and_groups_3 :
    ∃ (s : State) (t : Nat) (q : Nat) (o : Occ), (t < 8) ∧ (q < 8) ∧ (o.tile = t) ∧ (o.queue = q) ∧
      (s.headOcc t q = some o) ∧ (o.opcode = 0x29) ∧ (o.place = .checked) ∧ (s.mayEnd o = true) ∧ (o.f 223 1 = 1) ∧
        (o.f 192 16 ≠ s.rank) ∧ (s.member = .xsc1) :=
  ⟨{ whead (wSigN 1) with fuses := { w1.fuses with member := .xsc1 } }, 0, 0, wSigN 1, by decide⟩

set_option maxRecDepth 1000000 in
theorem wit_signals_and_groups_4 :
    ∃ (s : State) (t : Nat) (q : Nat) (o : Occ), (t < 8) ∧ (q < 8) ∧ (o.tile = t) ∧ (o.queue = q) ∧
      (s.headOcc t q = some o) ∧ (o.opcode = 0x29) ∧ (o.place = .checked) ∧ (s.mayEnd o = true) ∧ (o.f 223 1 = 1) ∧
        (o.f 192 16 ≠ s.rank) ∧ (s.member ≠ .xsc1) ∧
          (s.snap.lost.contains (o.f 192 16) = true ∨ s.coordValid = false ∨ s.routeOf (o.f 192 16) 1 = none) :=
  ⟨whead (wSigN 1), 0, 0, wSigN 1, by decide⟩

set_option maxRecDepth 1000000 in
theorem wit_signals_and_groups_5 :
    ∃ (s : State) (t : Nat) (q : Nat) (o : Occ) (p : _), (t < 8) ∧ (q < 8) ∧ (o.tile = t) ∧ (o.queue = q) ∧
      (s.headOcc t q = some o) ∧ (o.opcode = 0x29) ∧ (o.place = .checked) ∧ (s.mayEnd o = true) ∧ (o.f 223 1 = 1) ∧
        (o.f 192 16 ≠ s.rank) ∧ (s.member ≠ .xsc1) ∧ (s.snap.lost.contains (o.f 192 16) = false) ∧
          (s.coordValid = true) ∧ (s.routeOf (o.f 192 16) 1 = some p) ∧ (s.sigWaiting.length < 64) :=
  ⟨wq ⟨[], 1, [], some 1, false⟩ { wUp with seq := { w1.seq with occs := [wSigN 1] } }, 0, 0, wSigN 1, 0, by decide⟩

set_option maxRecDepth 1000000 in
theorem wit_signals_and_groups_6 :
    ∃ (s : State) (i : _), (s.coll.loading = some i) ∧ (s.domainOn .coll 0 = true) ∧ (s.groupOpen i = true) :=
  ⟨{ w1 with coll := { w1.coll with loading := some 4095 } }, 4095, by decide⟩

set_option maxRecDepth 1000000 in
theorem wit_opens_and_answers_received_0 :
    ∃ (s : State) (r : State) (rx : Rx) (p : Nat), (Delivered s rx r p) ∧ (linkControl rx.frame.typ = false) :=
  ⟨wUp, wGot (wUp) (wIn 2 1 (.openRec ⟨6, 2, 1, 2, 1, 1, digest (wWith wUp (wCol 7 0) wRecO) wRecO⟩)),
    wRx (wIn 2 1 (.openRec ⟨6, 2, 1, 2, 1, 1, digest (wWith wUp (wCol 7 0) wRecO) wRecO⟩)), 0, by decide⟩

set_option maxRecDepth 1000000 in
theorem wit_opens_and_answers_received_1 :
    ∃ (s : State) (r : State) (rx : Rx) (p : Nat) (x : OpenRec), (Delivered s rx r p) ∧ (rx.frame.typ = 1) ∧
      (rx.frame.pay = .openRec x) ∧ (r.ctxAt rx.frame.vc rx.frame.coll rx.frame.bucket = none) ∧
        (r.coll.ended.contains (rx.frame.vc, rx.frame.coll, rx.frame.bucket) = false) ∧
          (r.snap.lost.contains rx.frame.src = false) ∧
            ((r.coll.pend.any fun y => decide (y.vc = rx.frame.vc) && decide (y.seq = rx.frame.coll) && decide (y.bucket = rx.frame.bucket) && decide (y.src = rx.frame.src)) = false) ∧ ((r.coll.pend.filter fun y => decide (y.vc = rx.frame.vc)).length < 256) :=
  ⟨wUp, wGot (wUp) (wIn 2 1 (.openRec ⟨6, 2, 1, 2, 1, 1, digest (wWith wUp (wCol 7 0) wRecO) wRecO⟩)),
    wRx (wIn 2 1 (.openRec ⟨6, 2, 1, 2, 1, 1, digest (wWith wUp (wCol 7 0) wRecO) wRecO⟩)), 0,
      ⟨6, 2, 1, 2, 1, 1, digest (wWith wUp (wCol 7 0) wRecO) wRecO⟩, by decide⟩

set_option maxRecDepth 1000000 in
theorem wit_opens_and_answers_received_2 :
    ∃ (s : State) (r : State) (rx : Rx) (p : Nat) (x : OpenRec), (Delivered s rx r p) ∧ (rx.frame.typ = 1) ∧
      (rx.frame.pay = .openRec x) ∧ (r.ctxAt rx.frame.vc rx.frame.coll rx.frame.bucket = none) ∧
        (r.coll.ended.contains (rx.frame.vc, rx.frame.coll, rx.frame.bucket) = false) ∧
          (r.snap.lost.contains rx.frame.src = false) ∧
            ((r.coll.pend.any fun y => decide (y.vc = rx.frame.vc) && decide (y.seq = rx.frame.coll) && decide (y.bucket = rx.frame.bucket) && decide (y.src = rx.frame.src)) = false) ∧ (256 ≤ (r.coll.pend.filter fun y => decide (y.vc = rx.frame.vc)).length) :=
  ⟨wFull, wGot (wFull) (wIn 2 1 (.openRec ⟨6, 2, 1, 2, 1, 1, digest (wWith wUp (wCol 7 0) wRecO) wRecO⟩)),
    wRx (wIn 2 1 (.openRec ⟨6, 2, 1, 2, 1, 1, digest (wWith wUp (wCol 7 0) wRecO) wRecO⟩)), 0,
      ⟨6, 2, 1, 2, 1, 1, digest (wWith wUp (wCol 7 0) wRecO) wRecO⟩, by decide⟩

set_option maxRecDepth 1000000 in
theorem wit_opens_and_answers_received_3 :
    ∃ (s : State) (r : State) (rx : Rx) (p : Nat) (x : OpenRec) (c : Ctx) (o : Occ), (Delivered s rx r p) ∧
      (rx.frame.typ = 1) ∧ (rx.frame.pay = .openRec x) ∧ (OpenAt r rx.frame c o) ∧
        ((c.ins.any fun i => decide (i.rank = rx.frame.src) && i.arrived) = false) ∧ (r.nakOf c o x = 0) ∧
          (c.sub ≠ 5 ∨ o.ten 3 = none) :=
  ⟨wWith wUp (wCol 7 0) wRecO, wGot (wWith wUp (wCol 7 0) wRecO) (wIn 2 1 (.openRec ⟨6, 2, 1, 2, 1, 1,
    digest (wWith wUp (wCol 7 0) wRecO) wRecO⟩)), wRx (wIn 2 1 (.openRec ⟨6, 2, 1, 2, 1, 1,
      digest (wWith wUp (wCol 7 0) wRecO) wRecO⟩)), 0, ⟨6, 2, 1, 2, 1, 1,
        digest (wWith wUp (wCol 7 0) wRecO) wRecO⟩, wCol 7 0, wRecO, by decide⟩

set_option maxRecDepth 1000000 in
theorem wit_opens_and_answers_received_4 :
    ∃ (s : State) (r : State) (rx : Rx) (p : Nat) (x : OpenRec) (c : Ctx) (o : Occ), (Delivered s rx r p) ∧
      (rx.frame.typ = 1) ∧ (rx.frame.pay = .openRec x) ∧ (OpenAt r rx.frame c o) ∧
        ((c.ins.any fun i => decide (i.rank = rx.frame.src) && i.arrived) = false) ∧ (r.nakOf c o x ≠ 0) :=
  ⟨wWith wUp (wCol 7 0) wRecO, wGot (wWith wUp (wCol 7 0) wRecO) (wIn 2 1 (.openRec ⟨1, 2, 1, 2, 1, 1, 0⟩)),
    wRx (wIn 2 1 (.openRec ⟨1, 2, 1, 2, 1, 1, 0⟩)), 0, ⟨1, 2, 1, 2, 1, 1, 0⟩, wCol 7 0, wRecO, by decide⟩

set_option maxRecDepth 1000000 in
theorem wit_opens_and_answers_received_5 :
    ∃ (s : State) (r : State) (rx : Rx) (p : Nat) (c : Ctx) (o : Occ), (Delivered s rx r p) ∧
      (OpenAt r rx.frame c o) ∧ (rx.frame.typ = 2) :=
  ⟨wWith wUp (wCol 7 0) wRecO, wGot (wWith wUp (wCol 7 0) wRecO) (wIn 2 2 .none), wRx (wIn 2 2 .none), 0, wCol 7 0,
    wRecO, by decide⟩

set_option maxRecDepth 1000000 in
theorem wit_opens_and_answers_received_6 :
    ∃ (s : State) (r : State) (rx : Rx) (p : Nat) (c : Ctx) (o : Occ), (Delivered s rx r p) ∧
      (OpenAt r rx.frame c o) ∧ (rx.frame.typ = 4) :=
  ⟨wWith wUp (wCol 7 0) wRecO, wGot (wWith wUp (wCol 7 0) wRecO) (wIn 2 4 .none), wRx (wIn 2 4 .none), 0, wCol 7 0,
    wRecO, by decide⟩

set_option maxRecDepth 1000000 in
theorem wit_opens_and_answers_received_7 :
    ∃ (s : State) (r : State) (rx : Rx) (p : Nat) (c : Ctx) (o : Occ) (code : _), (Delivered s rx r p) ∧
      (OpenAt r rx.frame c o) ∧ (rx.frame.typ = 3) ∧ (rx.frame.pay = .nak code) ∧ (snapFrameId rx.frame = false) :=
  ⟨wWith wUp (wCol 7 0) wRecO, wGot (wWith wUp (wCol 7 0) wRecO) (wIn 2 3 (.nak 4)), wRx (wIn 2 3 (.nak 4)), 0,
    wCol 7 0, wRecO, 4, by decide⟩

set_option maxRecDepth 1000000 in
theorem wit_opens_and_answers_received_8 :
    ∃ (s : State) (r : State) (rx : Rx) (p : Nat) (code : _), (Delivered s rx r p) ∧ (rx.frame.typ = 3) ∧
      (rx.frame.pay = .nak code) ∧ (snapFrameId rx.frame = false) ∧
        (r.ctxAt rx.frame.vc rx.frame.coll rx.frame.bucket = none) ∧ (r.err.fifo.length < 63) :=
  ⟨wUp, wGot (wUp) (wIn 2 3 (.nak 4)), wRx (wIn 2 3 (.nak 4)), 0, 4, by decide⟩

set_option maxRecDepth 1000000 in
theorem wit_opens_and_answers_received_9 :
    ∃ (s : State) (r : State) (rx : Rx) (p : Nat) (code : _), (Delivered s rx r p) ∧ (rx.frame.typ = 3) ∧
      (rx.frame.pay = .nak code) ∧ (snapFrameId rx.frame = false) :=
  ⟨wUp, wGot (wUp) (wIn 2 3 (.nak 4)), wRx (wIn 2 3 (.nak 4)), 0, 4, by decide⟩

set_option maxRecDepth 1000000 in
theorem wit_data_close_and_abort_received_0 :
    ∃ (s : State) (r : State) (rx : Rx) (p : Nat) (c : Ctx) (o : Occ) (bytes : List Nat) (pz : List Bool),
      (Delivered s rx r p) ∧ (OpenAt r rx.frame c o) ∧ (rx.frame.typ = 0) ∧ (rx.frame.pay = .data bytes pz) ∧
        (c.seen.contains (rx.frame.src, rx.frame.typ, rx.frame.offset) = true) :=
  ⟨wWith wUp wSeen wRecO, wGot (wWith wUp wSeen wRecO) (wIn 2 0 (.data [1, 2, 3, 4] [false])),
    wRx (wIn 2 0 (.data [1, 2, 3, 4] [false])), 0, wSeen, wRecO, [1, 2, 3, 4], [false], by decide⟩

set_option maxRecDepth 1000000 in
theorem wit_data_close_and_abort_received_1 :
    ∃ (s : State) (r : State) (rx : Rx) (p : Nat) (c : Ctx) (o : Occ) (bytes : List Nat) (pz : List Bool) (dst : Tensor), (Delivered s rx r p) ∧ (OpenAt r rx.frame c o) ∧ (rx.frame.typ = 0) ∧ (rx.frame.pay = .data bytes pz) ∧ (c.seen.contains (rx.frame.src, rx.frame.typ, rx.frame.offset) = false) ∧ (c.sub = 7) ∧ ((c.ins.all fun i => decide (i.rank = rx.frame.hopSrc → i.accepted = true)) = true) ∧ (c.ranks.contains rx.frame.src = true) ∧ (r.dataFits c o rx.frame bytes.length = true) ∧ (o.ten 1 = some dst) ∧ (r.tensOpen o = true) :=
  ⟨wWith wUp wTake wRecO, wGot (wWith wUp wTake wRecO) (wIn 2 0 (.data [1, 2, 3, 4] [false])),
    wRx (wIn 2 0 (.data [1, 2, 3, 4] [false])), 0, wTake, wRecO, [1, 2, 3, 4], [false], wten 0x1000 2 1 4, by decide⟩

set_option maxRecDepth 1000000 in
theorem wit_data_close_and_abort_received_2 :
    ∃ (s : State) (r : State) (rx : Rx) (p : Nat) (c : Ctx) (o : Occ) (bytes : List Nat) (pz : List Bool),
      (Delivered s rx r p) ∧ (OpenAt r rx.frame c o) ∧ (rx.frame.typ = 0) ∧ (rx.frame.pay = .data bytes pz) ∧
        (c.seen.contains (rx.frame.src, rx.frame.typ, rx.frame.offset) = false) ∧
          ((c.ins.all fun i => decide (i.rank = rx.frame.hopSrc → i.accepted = true)) = true) ∧
            (c.ranks.contains rx.frame.src = true) ∧ (r.dataFits c o rx.frame bytes.length = true) ∧
              (r.tensOpen o = false) :=
  ⟨wFarS, wGot (wFarS) (wIn 2 0 (.data [1, 2, 3, 4] [false])), wRx (wIn 2 0 (.data [1, 2, 3, 4] [false])), 0, wTake,
    wFarO, [1, 2, 3, 4], [false], by decide⟩

set_option maxRecDepth 1000000 in
theorem wit_data_close_and_abort_received_3 :
    ∃ (s : State) (r : State) (rx : Rx) (p : Nat) (c : Ctx) (o : Occ) (sats : List Nat) (nans : List (Nat × Nat)),
      (Delivered s rx r p) ∧ (OpenAt r rx.frame c o) ∧ (rx.frame.typ = 6) ∧ (c.seen.contains (rx.frame.src,
        rx.frame.typ, rx.frame.offset) = false) ∧ (rx.frame.pay = .closeFwd sats nans) :=
  ⟨wWith wUp (wCol 7 0) wRecO, wGot (wWith wUp (wCol 7 0) wRecO) (wIn 2 6 (.closeFwd [1] [])),
    wRx (wIn 2 6 (.closeFwd [1] [])), 0, wCol 7 0, wRecO, [1], [], by decide⟩

set_option maxRecDepth 1000000 in
theorem wit_data_close_and_abort_received_4 :
    ∃ (s : State) (r : State) (rx : Rx) (p : Nat) (c : Ctx) (o : Occ) (x : Report), (Delivered s rx r p) ∧
      (OpenAt r rx.frame c o) ∧ (rx.frame.typ = 6) ∧ (c.seen.contains (rx.frame.src, rx.frame.typ,
        rx.frame.offset) = false) ∧ (rx.frame.pay = .closeBack x) :=
  ⟨wWith wUp (wCol 7 0) wRecO, wGot (wWith wUp (wCol 7 0) wRecO) (wIn 2 6 (.closeBack ⟨0, 0, 0, 0, 0, 0⟩)),
    wRx (wIn 2 6 (.closeBack ⟨0, 0, 0, 0, 0, 0⟩)), 0, wCol 7 0, wRecO, ⟨0, 0, 0, 0, 0, 0⟩, by decide⟩

set_option maxRecDepth 1000000 in
theorem wit_data_close_and_abort_received_5 :
    ∃ (s : State) (r : State) (rx : Rx) (p : Nat) (c : Ctx) (o : Occ), (Delivered s rx r p) ∧
      (OpenAt r rx.frame c o) ∧ (rx.frame.typ = 5) :=
  ⟨wWith wUp (wCol 7 0) wRecO, wGot (wWith wUp (wCol 7 0) wRecO) (wIn 2 5 .none), wRx (wIn 2 5 .none), 0, wCol 7 0,
    wRecO, by decide⟩

set_option maxRecDepth 1000000 in
theorem wit_data_close_and_abort_received_6 :
    ∃ (s : State) (r : State) (rx : Rx) (p : Nat), (Delivered s rx r p) ∧ (rx.frame.typ = 5) ∧
      (r.ctxAt rx.frame.vc rx.frame.coll rx.frame.bucket = none) :=
  ⟨wUp, wGot (wUp) (wIn 2 5 .none), wRx (wIn 2 5 .none), 0, by decide⟩

set_option maxRecDepth 1000000 in
theorem wit_signal_and_link_control_received_0 :
    ∃ (s : State) (r : State) (rx : Rx) (p : Nat) (id : Nat) (tile : Nat) (sem : Nat) (set : Bool) (value : Nat),
      (Delivered s rx r p) ∧ (rx.frame.typ = 7) ∧ (rx.frame.pay = .signal id tile sem set value) ∧
        (r.coll.signals.contains (rx.frame.src, id) = false) ∧ (tile < Member.tiles r.member) :=
  ⟨wUp, wGot (wUp) (wIn 1 7 (.signal 3 7 4095 true 5)), wRx (wIn 1 7 (.signal 3 7 4095 true 5)), 0, 3, 7, 4095,
    true, 5, by decide⟩

set_option maxRecDepth 1000000 in
theorem wit_signal_and_link_control_received_1 :
    ∃ (s : State) (r : State) (rx : Rx) (p : Nat) (id : Nat) (tile : Nat) (sem : Nat) (set : Bool) (value : Nat),
      (Delivered s rx r p) ∧ (rx.frame.typ = 7) ∧ (rx.frame.pay = .signal id tile sem set value) ∧
        (r.coll.signals.contains (rx.frame.src, id) = false) ∧ (Member.tiles r.member ≤ tile) :=
  ⟨wUp, wGot (wUp) (wIn 1 7 (.signal 3 8 4095 true 5)), wRx (wIn 1 7 (.signal 3 8 4095 true 5)), 0, 3, 8, 4095,
    true, 5, by decide⟩

set_option maxRecDepth 1000000 in
theorem wit_signal_and_link_control_received_2 :
    ∃ (s : State) (r : State) (rx : Rx) (p : Nat) (id : Nat) (tile : Nat) (sem : Nat) (set : Bool) (value : Nat),
      (Delivered s rx r p) ∧ (rx.frame.typ = 7) ∧ (rx.frame.pay = .signal id tile sem set value) ∧
        (r.coll.signals.contains (rx.frame.src, id) = true) :=
  ⟨{ wUp with coll := { w1.coll with signals := [(1, 3)] } }, wGot ({ wUp with coll := { w1.coll with signals := [(1, 3)] } }) (wIn 1 7 (.signal 3 7 4095 true 5)), wRx (wIn 1 7 (.signal 3 7 4095 true 5)), 0, 3, 7, 4095, true, 5, by decide⟩

set_option maxRecDepth 1000000 in
theorem wit_signal_and_link_control_received_3 :
    ∃ (s : State) (r : State) (rx : Rx) (p : Nat) (id : _) (ok : Bool) (o : Occ), (Delivered s rx r p) ∧
      (rx.frame.typ = 8) ∧ (rx.frame.pay = .signalAck id ok) ∧ (r.occ id = some o) ∧ (o.opcode = 0x29) ∧
        (o.place = .waiting) ∧ (o.f 192 16 = rx.frame.src) ∧ (o.tile < 8) ∧ (o.queue < 8) ∧ (r.mayEnd o = true) :=
  ⟨{ wUp with seq := { w1.seq with occs := [wocc 7 (0x29 + 2 ^ 192 + 2 ^ 223) .tseq .waiting] } }, wGot ({ wUp with seq := { w1.seq with occs := [wocc 7 (0x29 + 2 ^ 192 + 2 ^ 223) .tseq .waiting] } }) (wIn 1 8 (.signalAck 7 true)), wRx (wIn 1 8 (.signalAck 7 true)), 0, 7, true, wocc 7 (0x29 + 2 ^ 192 + 2 ^ 223) .tseq .waiting, by decide⟩

set_option maxRecDepth 1000000 in
theorem wit_signal_and_link_control_received_4 :
    ∃ (s : State) (r : State) (rx : Rx) (p : Nat) (id : _) (ok : Bool) (o : Occ), (Delivered s rx r p) ∧
      (rx.frame.typ = 8) ∧ (rx.frame.pay = .signalAck id ok) ∧ (r.occ id = some o) ∧ (o.opcode = 0x29) ∧
        (o.place = .waiting) ∧ (o.f 192 16 = rx.frame.src) ∧ (o.tile < 8) ∧ (o.queue < 8) ∧ (r.mayEnd o = false) :=
  ⟨(({ wUp with seq := { w1.seq with occs := [wocc 7 (0x29 + 2 ^ 192 + 2 ^ 223) .tseq .waiting] } }).setQReg 0 0 0x0C 0x100).fset (stkP 0) STK.PAGE_CTRL_quiesce 1, wGot ((({ wUp with seq := { w1.seq with occs := [wocc 7 (0x29 + 2 ^ 192 + 2 ^ 223) .tseq .waiting] } }).setQReg 0 0 0x0C 0x100).fset (stkP 0) STK.PAGE_CTRL_quiesce 1) (wIn 1 8 (.signalAck 7 true)), wRx (wIn 1 8 (.signalAck 7 true)), 0, 7, true, wocc 7 (0x29 + 2 ^ 192 + 2 ^ 223) .tseq .waiting, by decide⟩

set_option maxRecDepth 1000000 in
theorem wit_signal_and_link_control_received_5 :
    ∃ (s : State) (r : State) (rx : Rx) (p : Nat) (bytes : List Nat), (Delivered s rx r p) ∧ (rx.frame.typ = 10) ∧
      (rx.frame.pay = .mgmt bytes) :=
  ⟨wUp, wGot (wUp) (wIn 0 10 (.mgmt [1])), wRx (wIn 0 10 (.mgmt [1])), 0, [1], by decide⟩

set_option maxRecDepth 1000000 in
theorem wit_signal_and_link_control_received_6 :
    ∃ (s : State) (r : State) (rx : Rx) (p : Nat), (Delivered s rx r p) ∧ (rx.frame.typ = 18) :=
  ⟨wUp, wGot (wUp) ({ wIn 0 18 .none with offset := 3 }), wRx ({ wIn 0 18 .none with offset := 3 }), 0, by decide⟩

set_option maxRecDepth 1000000 in
theorem wit_signal_and_link_control_received_7 :
    ∃ (s : State) (r : State) (rx : Rx) (p : Nat), (Delivered s rx r p) ∧ (rx.frame.typ = 16) ∧
      (rx.frame.ackValid = true) :=
  ⟨wUp, wGot (wUp) ({ wIn 0 16 .none with ackValid := true }), wRx ({ wIn 0 16 .none with ackValid := true }), 0, by decide⟩

set_option maxRecDepth 1000000 in
theorem wit_signal_and_link_control_received_8 :
    ∃ (s : State) (r : State) (rx : Rx) (p : Nat), (Delivered s rx r p) ∧ (rx.frame.typ = 17) :=
  ⟨wUp, wGot (wUp) (wIn 0 17 .none), wRx (wIn 0 17 .none), 0, by decide⟩

set_option maxRecDepth 1000000 in
theorem wit_ports_transmit_and_recover_0 :
    ∃ (s : State) (port : Nat) (f : Frame) (rest : List Frame), (s.startChans port ≠ []) ∧
      ((s.portOf port).down = false) ∧ ((s.portEntry port).isSome = true) ∧ (s.net.stage ≠ 4) ∧
        (s.domainOn .link 0 = true) ∧ ((s.portOf port).ctrl = f :: rest) :=
  ⟨wPortS { wPort with ctrl := [wHb] }, 0, wHb, [], by decide⟩

set_option maxRecDepth 1000000 in
theorem wit_ports_transmit_and_recover_1 :
    ∃ (s : State) (port : Nat) (x : Sent), (s.startChans port ≠ []) ∧ ((s.portOf port).down = false) ∧
      ((s.portEntry port).isSome = true) ∧ (s.net.stage ≠ 4) ∧ (s.domainOn .link 0 = true) ∧
        ((s.portOf port).ctrl = []) ∧
          ((s.portOf port).replay.find? (fun x => x.again && (s.vcFlows x.frame.vc || decide (s.net.stage = 2))) = some x) ∧ ((s.fanChan x.frame).all (fun c => s.mayStart c.1) = true) :=
  ⟨wPortS { wPort with replay := [⟨wHb, true⟩] }, 0, ⟨wHb, true⟩, by decide⟩

set_option maxRecDepth 1000000 in
theorem wit_ports_transmit_and_recover_2 :
    ∃ (s : State) (port : Nat) (f : Frame) (vc : _) (turn : Nat) (left : Nat), (s.startChans port ≠ []) ∧
      ((s.portOf port).down = false) ∧ ((s.portEntry port).isSome = true) ∧ (s.net.stage ≠ 4) ∧
        (s.domainOn .link 0 = true) ∧ ((s.portOf port).ctrl = []) ∧
          ((s.portOf port).replay.all (fun x => !x.again) = true) ∧ (s.nextVc port = some (vc, turn, left)) ∧
            ((s.portOf port).waiting.find? (fun f => decide (f.vc = vc)) = some f) ∧ (s.fanChan f = none) :=
  ⟨wPortS { wPort with waiting := [wHb] }, 0, wHb, 0, 2, 0, by decide⟩

set_option maxRecDepth 1000000 in
theorem wit_ports_transmit_and_recover_3 :
    ∃ (s : State) (port : Nat) (f : Frame) (vc : _) (turn : Nat) (left : Nat), (s.startChans port ≠ []) ∧
      ((s.portOf port).down = false) ∧ ((s.portEntry port).isSome = true) ∧ (s.net.stage ≠ 4) ∧
        (s.domainOn .link 0 = true) ∧ ((s.portOf port).ctrl = []) ∧
          ((s.portOf port).replay.all (fun x => !x.again) = true) ∧ (s.nextVc port = some (vc, turn, left)) ∧
            ((s.portOf port).waiting.find? (fun f => decide (f.vc = vc)) = some f) ∧ ((s.fanChan f).isSome = true) :=
  ⟨wFan, 0, wFanF, 2, 2, 0, by decide⟩

set_option maxRecDepth 1000000 in
theorem wit_ports_transmit_and_recover_4 :
    ∃ (s : State) (link : _), (link < 40) ∧ (Member.link s.member link = true) ∧ (s.fenced = false) ∧
      (s.domainOn .link link = true) ∧
        (s.fget (State.linkP link) LINK.INCOMPLETE_CNT_count + 1 < 2 ^ LINK.INCOMPLETE_CNT_count.w) :=
  ⟨w1, 39, by decide⟩

set_option maxRecDepth 1000000 in
theorem wit_ports_transmit_and_recover_5 :
    ∃ (s : State) (port : Nat), ((s.portOf port).ackDue = true) ∧ (s.domainOn .link 0 = true) :=
  ⟨wPortS { wPort with ackDue := true }, 0, by decide⟩

set_option maxRecDepth 1000000 in
theorem wit_ports_transmit_and_recover_6 :
    ∃ (s : State) (port : Nat) (x : Sent) (rest : List Sent), ((s.portOf port).replay = x :: rest) ∧
      (s.domainOn .link 0 = true) :=
  ⟨wPortS { wPort with replay := [⟨wHb, false⟩] }, 0, ⟨wHb, false⟩, [], by decide⟩

set_option maxRecDepth 1000000 in
theorem wit_ports_transmit_and_recover_7 :
    ∃ (s : State) (port : Nat), ((s.portOf port).down = true) ∧ (s.domainOn .link 0 = true) :=
  ⟨wPortS { wPort with down := true }, 0, by decide⟩

set_option maxRecDepth 1000000 in
theorem wit_ports_transmit_and_recover_8 :
    ∃ (s : State) (port : Nat) (dest : _) (vc : _) (q : _), (vc < 8) ∧ (s.routeOf dest vc = some port) ∧
      (s.portCanCarry port = false) ∧ (∃ w, s.nextWhich dest vc = some w ∧ (s.routeList dest vc)[w]? = some q) ∧
        (s.domainOn .route 0 = true) ∧ (1 < (s.routePorts dest vc).length) ∧
          (((s.routePorts dest vc).any fun p => s.portCanCarry p) = true) :=
  ⟨wPortS { wPort with down := true }, 0, 2, 7, 1, by decide⟩

set_option maxRecDepth 1000000 in
theorem wit_ports_transmit_and_recover_9 :
    ∃ (s : State) (port : Nat) (dest : _) (vc : _), (vc < 8) ∧ ((s.routePorts dest vc).head? = some port) ∧
      (s.routeWhich dest vc ≠ (s.routeList dest vc).findIdx (fun p => decide (p ≠ 0xFF))) ∧
        (s.domainOn .route 0 = true) ∧ (s.portCanCarry port = true) :=
  ⟨wNet.setWhich 2 7 1, 0, 2, 7, by decide⟩

set_option maxRecDepth 1000000 in
theorem wit_training_commands_0 :
    ∃ (s : State) (link : Nat) (chan : Nat), (s.linkOn link = true) ∧ (s.net.plan.isSome = true) ∧
      (s.txEn link chan = true) ∧ (s.txLocked link chan = true) ∧
        (s.txCarry link chan = false ∨ (s.rxEn link chan = true ∧ s.rxCarry link chan = false)) :=
  ⟨wNet.setCh 0 0 ⟨true, none, 0, false, false⟩, 0, 0, by decide⟩

set_option maxRecDepth 1000000 in
theorem wit_training_commands_1 :
    ∃ (s : State) (link : Nat) (chan : Nat) (x : TrainRec), (link < 40) ∧ (chan < 16) ∧ (s.fenced = false) ∧
      (s.rxOpen link chan = true) ∧ (link < 24) ∧ (¬(x.rank / 64 = s.rank / 64 ∧
        x.rank % 64 = (s.rank + 64 - s.chGet link chan PECH.CH_CTRL_rx_line) % 64)) :=
  ⟨wNet, 0, 0, ⟨1, 0, 7, 0, 0, 1, 0⟩, by decide⟩

set_option maxRecDepth 1000000 in
theorem wit_training_commands_2 :
    ∃ (s : State) (link : Nat) (chan : Nat) (x : TrainRec), (link < 40) ∧ (chan < 16) ∧ (s.fenced = false) ∧
      (s.rxOpen link chan = true) ∧ (link < 24) ∧ (x.rank / 64 = s.rank / 64) ∧
        (x.rank % 64 = (s.rank + 64 - s.chGet link chan PECH.CH_CTRL_rx_line) % 64) ∧ (x.epoch ≠ s.epoch) :=
  ⟨wNet, 0, 0, ⟨63, 0, 8, 0, 0, 1, 0⟩, by decide⟩

set_option maxRecDepth 1000000 in
theorem wit_training_commands_3 :
    ∃ (s : State) (link : Nat) (chan : Nat) (x : TrainRec), (link < 40) ∧ (chan < 16) ∧ (s.fenced = false) ∧
      (s.rxOpen link chan = true) ∧ (link < 24) ∧ (x.rank / 64 = s.rank / 64) ∧
        (x.rank % 64 = (s.rank + 64 - s.chGet link chan PECH.CH_CTRL_rx_line) % 64) ∧ (x.epoch = s.epoch) :=
  ⟨wNet, 0, 0, ⟨63, 0, 7, 0, 0, 1, 0⟩, by decide⟩

set_option maxRecDepth 1000000 in
theorem wit_training_commands_4 :
    ∃ (s : State) (link : Nat) (chan : Nat) (x : TrainRec), (link < 40) ∧ (chan < 16) ∧ (s.fenced = false) ∧
      (s.rxOpen link chan = true) ∧ (24 ≤ link) ∧ (x.rank / 64 = s.rank / 64) :=
  ⟨wGl, 39, 15, ⟨63, 0, 7, 0, 0, 1, 0⟩, by decide⟩

set_option maxRecDepth 1000000 in
theorem wit_training_commands_5 :
    ∃ (s : State) (link : Nat) (chan : Nat) (x : TrainRec), (link < 40) ∧ (chan < 16) ∧ (s.fenced = false) ∧
      (s.rxOpen link chan = true) ∧ (24 ≤ link) ∧ (x.rank / 64 ≠ s.rank / 64) :=
  ⟨wGl, 39, 15, ⟨64, 0, 7, 0, 0, 1, 0⟩, by decide⟩

set_option maxRecDepth 1000000 in
theorem wit_training_commands_6 :
    ∃ (s : State) (link : Nat) (chan : Nat), (Member.link s.member link = true) ∧ (chan < 16) ∧
      (s.domainOn .link link = true) :=
  ⟨w1, 39, 15, by decide⟩

set_option maxRecDepth 1000000 in
theorem wit_rings_move_between_their_states_0 :
    ∃ (s : State) (l : Nat) (k : Nat) (r : Ring), (Member.link s.member l = true) ∧ (k < 16) ∧
      (s.ring l k r = locked) :=
  ⟨wRg .drop locked, 39, 15, .drop, by decide⟩

set_option maxRecDepth 1000000 in
theorem wit_rings_move_between_their_states_0a :
    ∃ (s : State) (l : Nat) (k : Nat) (r : Ring), (Member.link s.member l = true) ∧ (k < 16) ∧
      (s.ring l k r = locked) :=
  ⟨wRg .mod locked, 39, 15, .mod, by decide⟩

set_option maxRecDepth 1000000 in
theorem wit_rings_move_between_their_states_1 :
    ∃ (s : State) (l : Nat) (k : Nat) (r : Ring), (Member.link s.member l = true) ∧ (k < 16) ∧
      (s.ring l k r = acquire) ∧ (s.awaitsLight l k r = true) :=
  ⟨((wRg .drop acquire).chSet 39 15 PECH.CH_STAT_rx_nolight 1), 39, 15, .drop, by decide⟩

set_option maxRecDepth 1000000 in
theorem wit_rings_move_between_their_states_2 :
    ∃ (s : State) (l : Nat) (k : Nat) (r : Ring), (Member.link s.member l = true) ∧ (k < 16) ∧
      (s.ring l k r = acquire) ∧ (s.awaitsLight l k r = true) :=
  ⟨((wRg .drop acquire).chSet 39 15 PECH.CH_STAT_rx_nolight 1), 39, 15, .drop, by decide⟩

set_option maxRecDepth 1000000 in
theorem wit_rings_move_between_their_states_3 :
    ∃ (s : State) (l : Nat) (k : Nat) (r : Ring), (Member.link s.member l = true) ∧ (k < 16) ∧
      (s.ring l k r = acquire) ∧ (s.awaitsLight l k r = false) ∧ (r ≠ .mod) :=
  ⟨wRg .sel acquire, 39, 15, .sel, by decide⟩

set_option maxRecDepth 1000000 in
theorem wit_rings_move_between_their_states_4 :
    ∃ (s : State) (l : Nat) (k : Nat) (r : Ring), (Member.link s.member l = true) ∧ (k < 16) ∧
      (s.ring l k r = acquire) ∧ (s.awaitsLight l k r = false) ∧ (r = .mod) ∧ (s.ring l k .sel = locked) :=
  ⟨(wRg .mod acquire).setRing 39 15 .sel locked, 39, 15, .mod, by decide⟩

set_option maxRecDepth 1000000 in
theorem wit_rings_move_between_their_states_5 :
    ∃ (s : State) (l : Nat) (k : Nat) (r : Ring), (Member.link s.member l = true) ∧ (k < 16) ∧
      (s.ring l k r = acquire) ∧ (s.awaitsLight l k r = false) ∧
        (sparseGet (fun _ => 0) s.optics.fails (64 * l + 4 * k + ringNum r) = 0) :=
  ⟨wRg .mod acquire, 39, 15, .mod, by decide⟩

set_option maxRecDepth 1000000 in
theorem wit_rings_move_between_their_states_6 :
    ∃ (s : State) (l : Nat) (k : Nat) (r : Ring), (Member.link s.member l = true) ∧ (k < 16) ∧
      (s.ring l k r = acquire) ∧ (s.awaitsLight l k r = false) ∧
        (sparseGet (fun _ => 0) s.optics.fails (64 * l + 4 * k + ringNum r) ≠ 0) :=
  ⟨{ wRg .mod acquire with optics := { w1.optics with fails := [(64 * 39 + 4 * 15 + ringNum .mod, 1)] } }, 39, 15, .mod, by decide⟩

set_option maxRecDepth 1000000 in
theorem wit_rings_move_between_their_states_7 :
    ∃ (s : State) (l : Nat) (k : Nat) (r : Ring), (Member.link s.member l = true) ∧ (k < 16) ∧
      (s.ring l k r = scanning) ∧ (r = .mod → s.ring l k .sel = locked) :=
  ⟨wRg .sel scanning, 39, 15, .sel, by decide⟩

set_option maxRecDepth 1000000 in
theorem wit_rings_move_between_their_states_8 :
    ∃ (s : State) (l : Nat) (k : Nat), (Member.link s.member l = true) ∧ (k < 16) ∧ (s.ring l k .mod = scanning) ∧
      (s.ring l k .sel ≠ locked) :=
  ⟨wRg .mod scanning, 39, 15, by decide⟩

set_option maxRecDepth 1000000 in
theorem wit_rings_move_between_their_states_9 :
    ∃ (s : State) (l : Nat) (k : Nat) (r : Ring) (line : _), (Member.link s.member l = true) ∧ (k < 16) ∧
      (line < 64) ∧ (s.ring l k r = verify) ∧ (line = s.sideLine l k (ringRx r)) :=
  ⟨wRg .sel verify, 39, 15, .sel, 0, by decide⟩

set_option maxRecDepth 1000000 in
theorem wit_rings_move_between_their_states_10 :
    ∃ (s : State) (l : Nat) (k : Nat) (r : Ring) (line : _), (Member.link s.member l = true) ∧ (k < 16) ∧
      (line < 64) ∧ (s.ring l k r = verify) ∧ (line ≠ s.sideLine l k (ringRx r)) :=
  ⟨wRg .sel verify, 39, 15, .sel, 63, by decide⟩

set_option maxRecDepth 1000000 in
theorem wit_rings_move_between_their_states_11 :
    ∃ (s : State) (l : Nat) (k : Nat) (r : Ring) (line : _), (Member.link s.member l = true) ∧ (k < 16) ∧
      (line < 64) ∧ (r ≠ .mod) ∧ (s.ring l k r = locked) ∧ (line ≠ s.sideLine l k (ringRx r)) :=
  ⟨wRg .drop locked, 39, 15, .drop, 63, by decide⟩

set_option maxRecDepth 1000000 in
theorem wit_rings_move_between_their_states_12 :
    ∃ (s : State) (l : Nat) (k : Nat) (r : Ring) (line : _), (Member.link s.member l = true) ∧ (k < 16) ∧
      (line < 64) ∧ (r ≠ .mod) ∧ (line = s.sideLine l k (ringRx r)) :=
  ⟨wRg .drop locked, 39, 15, .drop, 0, by decide⟩

set_option maxRecDepth 1000000 in
theorem wit_rings_move_between_their_states_13 :
    ∃ (s : State) (l : Nat) (k : Nat) (r : Ring), (Member.link s.member l = true) ∧ (k < 16) ∧
      (s.ring l k r ≠ dark) ∧ (r = .drop) :=
  ⟨wRg .drop locked, 39, 15, .drop, by decide⟩

set_option maxRecDepth 1000000 in
theorem wit_rings_move_between_their_states_14 :
    ∃ (s : State) (l : Nat) (k : Nat) (r : Ring), (Member.link s.member l = true) ∧ (k < 16) ∧
      (s.ring l k r ≠ dark) ∧ (r ≠ .drop) :=
  ⟨wRg .mod locked, 39, 15, .mod, by decide⟩

set_option maxRecDepth 1000000 in
theorem wit_rings_move_between_their_states_15 :
    ∃ (s : State) (l : Nat) (k : Nat) (r : Ring), (Member.link s.member l = true) ∧ (k < 16) ∧
      (s.ring l k r = hold) ∧ (s.lightBack l = true) ∧ (r = .mod → s.ring l k .sel = locked) :=
  ⟨((wRg .drop hold).fset (peP 4) PE.PAGE_STAT_lit 1), 39, 15, .drop, by decide⟩

set_option maxRecDepth 1000000 in
theorem wit_rings_move_between_their_states_15a :
    ∃ (s : State) (l : Nat) (k : Nat) (r : Ring), (Member.link s.member l = true) ∧ (k < 16) ∧
      (s.ring l k r = hold) ∧ (s.lightBack l = true) ∧ (r = .mod → s.ring l k .sel = locked) :=
  ⟨(((wRg .mod hold).setRing 39 15 .sel locked).fset (peP 4) PE.PAGE_STAT_lit 1), 39, 15, .mod, by decide⟩

set_option maxRecDepth 1000000 in
theorem wit_rings_move_between_their_states_16 :
    ∃ (s : State) (l : Nat) (k : Nat) (r : Ring), (Member.link s.member l = true) ∧ (k < 16) ∧
      (s.ring l k r ≠ hold ∨ s.lightBack l = false) :=
  ⟨wRg .drop locked, 39, 15, .drop, by decide⟩

set_option maxRecDepth 1000000 in
theorem wit_combs_lines_and_retiring_0 :
    ∃ (s : State) (p : Nat), (Member.pe s.member p = true) ∧ (s.flag (State.peP p) PE.PAGE_STAT_lit = true) ∧
      (s.combOk p (1 - s.combSel p) = true) ∧ (s.flag (State.peP p) PE.COMB_CTRL_auto = true) :=
  ⟨wLit 1 1, 4, by decide⟩

set_option maxRecDepth 1000000 in
theorem wit_combs_lines_and_retiring_1 :
    ∃ (s : State) (p : Nat), (Member.pe s.member p = true) ∧ (s.flag (State.peP p) PE.PAGE_STAT_lit = true) ∧
      (s.combOk p (1 - s.combSel p) = true) ∧ (s.flag (State.peP p) PE.COMB_CTRL_auto = false) :=
  ⟨wLit 1 0, 4, by decide⟩

set_option maxRecDepth 1000000 in
theorem wit_combs_lines_and_retiring_2 :
    ∃ (s : State) (p : Nat), (Member.pe s.member p = true) ∧ (s.flag (State.peP p) PE.PAGE_STAT_lit = true) ∧
      (s.combOk p (1 - s.combSel p) = false) :=
  ⟨wLit 0 0, 4, by decide⟩

set_option maxRecDepth 1000000 in
theorem wit_combs_lines_and_retiring_3 :
    ∃ (s : State) (p : Nat) (line : _), (Member.pe s.member p = true) ∧ (line < 64) ∧
      (s.flag (State.peP p) (lineFd line) = false) :=
  ⟨w1, 4, 63, by decide⟩

set_option maxRecDepth 1000000 in
theorem wit_combs_lines_and_retiring_4 :
    ∃ (s : State) (p : Nat) (l : _) (k : _) (rx : _), (Member.pe s.member p = true) ∧ (l / 8 = p) ∧
      (Member.link s.member l = true) ∧ (k < 16) ∧ (s.sideServes l k rx = true) ∧ (s.sideRetired l k rx = false) ∧
        (rx = true → s.rxLocked l k = false ∧ s.ring l k .drop ≠ hold ∧ s.chGet l k PECH.CH_STAT_rx_nolight = 0) ∧
          (rx = false → s.txLocked l k = false ∧ s.ring l k .sel ≠ hold ∧
            (s.ring l k .mod = hold → s.ring l k .sel ≠ locked)) ∧ (s.shut l = false) :=
  ⟨wServe, 4, 39, 15, true, by decide⟩

set_option maxRecDepth 1000000 in
theorem wit_combs_lines_and_retiring_4a :
    ∃ (s : State) (p : Nat) (l : _) (k : _) (rx : _), (Member.pe s.member p = true) ∧ (l / 8 = p) ∧
      (Member.link s.member l = true) ∧ (k < 16) ∧ (s.sideServes l k rx = true) ∧ (s.sideRetired l k rx = false) ∧
        (rx = true → s.rxLocked l k = false ∧ s.ring l k .drop ≠ hold ∧ s.chGet l k PECH.CH_STAT_rx_nolight = 0) ∧
          (rx = false → s.txLocked l k = false ∧ s.ring l k .sel ≠ hold ∧
            (s.ring l k .mod = hold → s.ring l k .sel ≠ locked)) ∧ (s.shut l = false) :=
  ⟨wServe, 4, 39, 15, false, by decide⟩

set_option maxRecDepth 1000000 in
theorem wit_combs_lines_and_retiring_5 :
    ∃ (s : State) (p : Nat), (Member.pe s.member p = true) ∧ (s.failingOver p = false) :=
  ⟨w1, 4, by decide⟩

set_option maxRecDepth 1000000 in
theorem wit_combs_lines_and_retiring_6 :
    ∃ (s : State) (p : Nat), (Member.pe s.member p = true) ∧ (s.failingOver p = true) :=
  ⟨{ wRg .sel acquire with optics := { w1.optics with failing := [ringKey 39 15 .sel] } }, 4, by decide⟩

set_option maxRecDepth 1000000 in
theorem wit_mesh_commands_0 :
    ∃ (s : State) (port : Port) (p : Nat), (Member.pe s.member p = true) ∧ (Open s port .pe p) ∧
      (s.flag (State.peP p) PE.MESH_CTRL_busy = false) ∧
        ((s.commitLinks p (s.reg (State.peP p) PE.MESH_MAP_src.off).toNat (s.flag (State.peP p) PE.MESH_CTRL_raw)).all (fun l => !s.flag (State.pechP l) PECH.PAGE_CTRL_enable) = true) ∧ (s.flag (State.peP p) PE.MESH_CTRL_raw = true ∨ mapOk (s.reg (State.peP p) PE.MESH_MAP_src.off).toNat = true) :=
  ⟨(w1.setReg (peP 4) PE.MESH_MAP_src.off (BitVec.ofNat 32 identityMap)), .ranger, 4, by decide⟩

set_option maxRecDepth 1000000 in
theorem wit_mesh_commands_1 :
    ∃ (s : State) (port : Port) (p : Nat), (Member.pe s.member p = true) ∧ (Open s port .pe p) ∧
      (s.flag (State.peP p) PE.MESH_CTRL_busy = false) ∧
        ((s.commitLinks p (s.reg (State.peP p) PE.MESH_MAP_src.off).toNat (s.flag (State.peP p) PE.MESH_CTRL_raw)).any (fun l => s.flag (State.pechP l) PECH.PAGE_CTRL_enable) = true) :=
  ⟨((w1.fset (pechP 39) PECH.PAGE_CTRL_enable 1).fset (peP 4) PE.MESH_CTRL_raw 1), .ranger, 4, by decide⟩

set_option maxRecDepth 1000000 in
theorem wit_mesh_commands_2 :
    ∃ (s : State) (port : Port) (p : Nat), (Member.pe s.member p = true) ∧ (Open s port .pe p) ∧
      (s.flag (State.peP p) PE.MESH_CTRL_busy = false) ∧ (s.flag (State.peP p) PE.MESH_CTRL_raw = false) ∧
        (mapOk (s.reg (State.peP p) PE.MESH_MAP_src.off).toNat = false) :=
  ⟨(w1.setReg (peP 4) PE.MESH_MAP_src.off 0), .ranger, 4, by decide⟩

set_option maxRecDepth 1000000 in
theorem wit_mesh_commands_3 :
    ∃ (s : State) (port : Port) (p : Nat), (Member.pe s.member p = true) ∧ (Open s port .pe p) ∧
      (s.flag (State.peP p) PE.MESH_CTRL_busy = false) ∧
        ((State.linksOf p).all (fun l => !s.flag (State.pechP l) PECH.PAGE_CTRL_enable && !s.flag (State.pechP l) PECH.LINK_OPT_CTRL_test) = true) :=
  ⟨w1, .ranger, 4, by decide⟩

set_option maxRecDepth 1000000 in
theorem wit_mesh_commands_4 :
    ∃ (s : State) (p : Nat) (m : _), (Member.pe s.member p = true) ∧
      ((s.optics.newMaps.filter fun x => decide (x.1 = p)) = [(p, m)]) :=
  ⟨{ w1 with optics := { w1.optics with newMaps := [(4, none)] } }, 4, none, by decide⟩

set_option maxRecDepth 1000000 in
theorem wit_mesh_commands_5 :
    ∃ (s : State) (p : Nat), (Member.pe s.member p = true) ∧ (s.flag (State.peP p) PE.PAGE_STAT_cal_busy = true) :=
  ⟨w1.fset (peP 4) PE.PAGE_STAT_cal_busy 1, 4, by decide⟩

set_option maxRecDepth 1000000 in
theorem wit_mesh_commands_6 :
    ∃ (s : State) (p : Nat) (cell : _) (θ : _), (Member.pe s.member p = true) ∧ (cell < 28) ∧
      (0x4000 ≤ s.meshCode p cell % 65536) ∧ (s.meshCode p cell % 65536 < 0xC000) ∧ (0x4000 ≤ θ) ∧ (θ < 0xC000) :=
  ⟨{ w1 with optics := { w1.optics with codes := [(64 * 4 + 27, 0x4000)] } }, 4, 27, 0xBFFF, by decide⟩

set_option maxRecDepth 1000000 in
theorem wit_monitors_plugs_and_probes_0 :
    ∃ (s : State) (l : Nat) (k : _) (stage : _), (Member.link s.member l = true) ∧ (k < 16) ∧
      (stage ≤ 8 ∨ stage = 15) ∧ (s.monitored l k = true) :=
  ⟨(w1.fset (pechP 39) PECH.LINK_OPT_CTRL_test 1), 39, 15, 15, by decide⟩

set_option maxRecDepth 1000000 in
theorem wit_monitors_plugs_and_probes_0a :
    ∃ (s : State) (l : Nat) (k : _) (stage : _), (Member.link s.member l = true) ∧ (k < 16) ∧
      (stage ≤ 8 ∨ stage = 15) ∧ (s.monitored l k = true) :=
  ⟨(w1.fset (pechP 39) PECH.LINK_OPT_CTRL_test 1), 39, 15, 8, by decide⟩

set_option maxRecDepth 1000000 in
theorem wit_monitors_plugs_and_probes_1 :
    ∃ (s : State) (l : Nat), (Member.link s.member l = true) :=
  ⟨w1, 39, by decide⟩

set_option maxRecDepth 1000000 in
theorem wit_monitors_plugs_and_probes_2 :
    ∃ (s : State) (l : Nat), (Member.link s.member l = true) :=
  ⟨w1, 39, by decide⟩

set_option maxRecDepth 1000000 in
theorem wit_monitors_plugs_and_probes_3 :
    ∃ (s : State) (l : Nat), (Member.link s.member l = true) ∧
      (s.flag (State.pechP l) PECH.PAGE_STAT_probing = true) ∧ (s.mayProbe l = true) :=
  ⟨wProbe 39, 39, by decide⟩

set_option maxRecDepth 1000000 in
theorem wit_monitors_plugs_and_probes_4 :
    ∃ (s : State) (l : Nat) (own : _), (Member.link s.member l = true) ∧
      (s.flag (State.pechP l) PECH.PAGE_STAT_probing = true) ∧ (own = true → l < 24 ∧ s.mayProbe l = true) ∧
        (s.flag (State.peP (l / 8)) PE.SHUTTER_plug = false) :=
  ⟨w1.fset (pechP 39) PECH.PAGE_STAT_probing 1, 39, false, by decide⟩

set_option maxRecDepth 1000000 in
theorem wit_monitors_plugs_and_probes_5 :
    ∃ (s : State) (l : Nat) (own : _), (Member.link s.member l = true) ∧
      (s.flag (State.pechP l) PECH.PAGE_STAT_probing = true) ∧ (own = true → l < 24 ∧ s.mayProbe l = true) ∧
        (s.flag (State.peP (l / 8)) PE.SHUTTER_plug = true) :=
  ⟨wProbe 39, 39, false, by decide⟩

set_option maxRecDepth 1000000 in
theorem wit_monitors_plugs_and_probes_5a :
    ∃ (s : State) (l : Nat) (own : _), (Member.link s.member l = true) ∧
      (s.flag (State.pechP l) PECH.PAGE_STAT_probing = true) ∧ (own = true → l < 24 ∧ s.mayProbe l = true) ∧
        (s.flag (State.peP (l / 8)) PE.SHUTTER_plug = true) :=
  ⟨wProbe 23, 23, true, by decide⟩

set_option maxRecDepth 1000000 in
theorem wit_monitors_plugs_and_probes_6 :
    ∃ (s : State) (l : Nat), (Member.link s.member l = true) :=
  ⟨w1, 39, by decide⟩

set_option maxRecDepth 1000000 in
theorem wit_plan_load_commands_1 :
    ∃ (s : State) (port : Port), (Open s port .plan 0) ∧ (s.collQuiesced = true) ∧ (s.snapTransfer = false) ∧
      (s.flag State.planP PLAN.PAGE_STAT_loading = false) ∧ (s.fget 0 MODULE.FIREBREAK_state = 0) ∧
        ((s.planCheck (s.pair State.planP PLAN.PLAN_BASE_LO_addr)).1 ≠ 0) :=
  ⟨wQuiet, .ranger, by decide⟩

set_option maxRecDepth 1000000 in
theorem wit_plan_load_commands_2 :
    ∃ (s : State) (port : Port), (Open s port .plan 0) ∧ (s.collQuiesced = false) :=
  ⟨w1, .ranger, by decide⟩

set_option maxRecDepth 1000000 in
theorem wit_plan_load_commands_3 :
    ∃ (s : State) (epoch : _) (tab : PlanTab), (s.net.stage = 2) ∧ (s.net.next = some (epoch, tab)) ∧
      ((s.net.ports.all fun p => p.2.replay.isEmpty) = true) :=
  ⟨wStg 2 w1, 8, wPlan, by decide⟩

set_option maxRecDepth 1000000 in
theorem wit_plan_load_commands_4 :
    ∃ (s : State), (s.net.stage = 2) ∧ ((s.net.ports.any fun p => !p.2.replay.isEmpty) = true) :=
  ⟨wStg 2 wReplay, by decide⟩

set_option maxRecDepth 1000000 in
theorem wit_plan_load_commands_5 :
    ∃ (s : State), (s.net.stage = 4) :=
  ⟨wStg 4 w1, by decide⟩

set_option maxRecDepth 1000000 in
theorem wit_plan_load_commands_6 :
    ∃ (s : State), (s.net.stage = 0) :=
  ⟨w1, by decide⟩

set_option maxRecDepth 1000000 in
theorem wit_clearing_phases_0 :
    ∃ (s : State) (o : Occ), (s.clrNext = some o) ∧ (s.spaceOk (o.aux.getD 1 0) = false) :=
  ⟨wsv [wClrO .input], wClrO .input, by decide⟩

set_option maxRecDepth 1000000 in
theorem wit_clearing_phases_1 :
    ∃ (s : State) (o : Occ), (s.clrNext = some o) ∧ (s.spaceOk (o.aux.getD 1 0) = true) ∧
      (((s.groupRanks (o.aux.getD 2 0)).any fun r => s.snap.lost.contains r) = true) :=
  ⟨{ wRoom with snap := { w1.snap with lost := [0] } }, wClrO .input, by decide⟩

set_option maxRecDepth 1000000 in
theorem wit_clearing_phases_2 :
    ∃ (s : State) (o : Occ), (s.clrNext = some o) ∧ (s.spaceOk (o.aux.getD 1 0) = true) ∧
      (((s.groupRanks (o.aux.getD 2 0)).any fun r => s.snap.lost.contains r) = false) :=
  ⟨wRoom, wClrO .input, by decide⟩

set_option maxRecDepth 1000000 in
theorem wit_clearing_phases_3 :
    ∃ (s : State) (c : Clearing) (o : Occ), (s.domainOn .snap 0 = true) ∧ (s.snap.clr = some c) ∧
      (s.occ c.occ = some o) ∧ (c.ended = false) ∧ (c.phase = 1) ∧ (s.drained c = true) ∧ (c.sent = false) ∧
        (c.ranks.length = 1) ∧ (c.pos = 0) :=
  ⟨wCl (wClr) w1, wClr, wClrO .running, by decide⟩

set_option maxRecDepth 1000000 in
theorem wit_clearing_phases_4 :
    ∃ (s : State) (c : Clearing) (o : Occ), (s.domainOn .snap 0 = true) ∧ (s.snap.clr = some c) ∧
      (s.occ c.occ = some o) ∧ (c.ended = false) ∧ (c.phase = 1) ∧ (s.drained c = true) ∧ (c.sent = false) ∧
        (0 < c.pos) ∧ (c.ranks.length ≤ 16 * c.pos + 1) :=
  ⟨wCl (wLeaf 1 false) w1, wLeaf 1 false, wClrO .running, by decide⟩

set_option maxRecDepth 1000000 in
theorem wit_clearing_phases_5 :
    ∃ (s : State) (c : Clearing) (o : Occ), (s.domainOn .snap 0 = true) ∧ (s.snap.clr = some c) ∧
      (s.occ c.occ = some o) ∧ (c.ended = false) ∧ (c.phase = 1) ∧ (s.drained c = false) :=
  ⟨wBusy, wClr, wClrO .running, by decide⟩

set_option maxRecDepth 1000000 in
theorem wit_clearing_phases_6 :
    ∃ (s : State) (c : Clearing) (o : Occ), (s.domainOn .snap 0 = true) ∧ (s.snap.clr = some c) ∧
      (s.occ c.occ = some o) ∧ (c.ended = false) ∧ (c.phase = 3) ∧ (s.capOpen c = true) ∧ (0 < c.pos) ∧
        (c.ranks.length ≤ 16 * c.pos + 1) :=
  ⟨wCl (wLeaf 3 false) w1, wLeaf 3 false, wClrO .running, by decide⟩

set_option maxRecDepth 1000000 in
theorem wit_clearing_phases_7 :
    ∃ (s : State) (c : Clearing) (o : Occ), (s.domainOn .snap 0 = true) ∧ (s.snap.clr = some c) ∧
      (s.occ c.occ = some o) ∧ (c.ended = false) ∧ (c.phase = 3) ∧ (s.capOpen c = true) ∧ (c.pos = 0) ∧
        (c.ranks.length = 1) ∧ (c.mine.secure = true ∨ s.member = .xsc1) :=
  ⟨wCl ({ wClr with phase := 3, mine := ⟨5, 0, 0, 0, true⟩ }) w1, { wClr with phase := 3, mine := ⟨5, 0, 0, 0, true⟩ }, wClrO .running, by decide⟩

set_option maxRecDepth 1000000 in
theorem wit_clearing_phases_8 :
    ∃ (s : State) (r : State) (rx : Rx) (p : Nat) (c : Clearing) (o : Occ) (phase : _) (bad : Bool) (x : BarrierRec), (Delivered s rx r p) ∧ (r.snap.clr = some c) ∧ (r.occ c.occ = some o) ∧ (c.ended = false) ∧ (rx.frame.pay = .barrier phase bad x) ∧ (c.phase = phase) ∧ (phase = 2 ∨ phase = 5) ∧ (c.sent = false) ∧ (c.pos = 0) ∧ (c.ranks.length = 2) ∧ (c.ranks.getD 1 0 = rx.frame.src) ∧ ((bad || BarrierDiffers x c.mine) = true) :=
  ⟨wCl (wRoot 2) wUp, wGot (wCl (wRoot 2) wUp) (wIn 7 0 (.barrier 2 false ⟨5, 0, 0, 1, false⟩)),
    wRx (wIn 7 0 (.barrier 2 false ⟨5, 0, 0, 1, false⟩)), 0, wRoot 2, wClrO .running, 2, false, ⟨5, 0, 0, 1, false⟩,
      by decide⟩

set_option maxRecDepth 1000000 in
theorem wit_clearing_phases_8a :
    ∃ (s : State) (r : State) (rx : Rx) (p : Nat) (c : Clearing) (o : Occ) (phase : _) (bad : Bool) (x : BarrierRec), (Delivered s rx r p) ∧ (r.snap.clr = some c) ∧ (r.occ c.occ = some o) ∧ (c.ended = false) ∧ (rx.frame.pay = .barrier phase bad x) ∧ (c.phase = phase) ∧ (phase = 2 ∨ phase = 5) ∧ (c.sent = false) ∧ (c.pos = 0) ∧ (c.ranks.length = 2) ∧ (c.ranks.getD 1 0 = rx.frame.src) ∧ ((bad || BarrierDiffers x c.mine) = true) :=
  ⟨wCl (wRoot 5) wUp, wGot (wCl (wRoot 5) wUp) (wIn 7 0 (.barrier 5 true ⟨5, 0, 0, 0, false⟩)),
    wRx (wIn 7 0 (.barrier 5 true ⟨5, 0, 0, 0, false⟩)), 0, wRoot 5, wClrO .running, 5, true, ⟨5, 0, 0, 0, false⟩,
      by decide⟩

set_option maxRecDepth 1000000 in
theorem wit_clearing_phases_9 :
    ∃ (s : State) (r : State) (rx : Rx) (p : Nat) (c : Clearing) (o : Occ) (phase : _) (n : _) (code : _),
      (Delivered s rx r p) ∧ (r.snap.clr = some c) ∧ (r.occ c.occ = some o) ∧ (c.ended = false) ∧
        (rx.frame.pay = .verdict phase n code) ∧ (c.phase = phase) ∧ (c.sent = true) ∧ (0 < c.pos) ∧
          (c.ranks.getD (barrierParent c.pos) 0x10000 = rx.frame.src) ∧ (code ≠ 0) :=
  ⟨wCl ({ wRoot 2 with pos := 1, ranks := [1, 0], sent := true }) wUp, wGot (wCl ({ wRoot 2 with pos := 1, ranks := [1, 0], sent := true }) wUp) (wIn 7 0 (.verdict 2 5 0x42)), wRx (wIn 7 0 (.verdict 2 5 0x42)), 0, { wRoot 2 with pos := 1, ranks := [1, 0], sent := true }, wClrO .running, 2, 5, 0x42, by decide⟩

set_option maxRecDepth 1000000 in
theorem wit_clearing_phases_10 :
    ∃ (s : State) (r : State) (rx : Rx) (p : Nat) (c : Clearing) (o : Occ) (phase : _) (n : _) (code : _),
      (Delivered s rx r p) ∧ (r.snap.clr = some c) ∧ (r.occ c.occ = some o) ∧ (c.ended = false) ∧
        (rx.frame.pay = .verdict phase n code) ∧ (c.phase = phase) ∧ (c.sent = true) ∧ (0 < c.pos) ∧
          (c.ranks.getD (barrierParent c.pos) 0x10000 = rx.frame.src) ∧ (code = 0) ∧ (phase = 2) :=
  ⟨wCl ({ wRoot 2 with pos := 1, ranks := [1, 0], sent := true }) wUp, wGot (wCl ({ wRoot 2 with pos := 1, ranks := [1, 0], sent := true }) wUp) (wIn 7 0 (.verdict 2 5 0)), wRx (wIn 7 0 (.verdict 2 5 0)), 0, { wRoot 2 with pos := 1, ranks := [1, 0], sent := true }, wClrO .running, 2, 5, 0, by decide⟩

set_option maxRecDepth 1000000 in
theorem wit_clearing_phases_11 :
    ∃ (s : State) (r : State) (rx : Rx) (p : Nat) (c : Clearing) (o : Occ) (phase : _) (n : _) (code : _),
      (Delivered s rx r p) ∧ (r.snap.clr = some c) ∧ (r.occ c.occ = some o) ∧ (c.ended = false) ∧
        (rx.frame.pay = .verdict phase n code) ∧ (c.phase = phase) ∧ (c.sent = true) ∧ (0 < c.pos) ∧
          (c.ranks.getD (barrierParent c.pos) 0x10000 = rx.frame.src) ∧ (code = 0) ∧ (phase = 5) :=
  ⟨wCl ({ wRoot 5 with pos := 1, ranks := [1, 0], sent := true }) wUp, wGot (wCl ({ wRoot 5 with pos := 1, ranks := [1, 0], sent := true }) wUp) (wIn 7 0 (.verdict 5 5 0)), wRx (wIn 7 0 (.verdict 5 5 0)), 0, { wRoot 5 with pos := 1, ranks := [1, 0], sent := true }, wClrO .running, 5, 5, 0, by decide⟩

set_option maxRecDepth 1000000 in
theorem wit_clearing_phases_12 :
    ∃ (s : State) (r : State) (rx : Rx) (p : Nat) (number : Nat) (c : Clearing) (o : Occ), (Delivered s rx r p) ∧
      (r.fromPartner rx.frame = true) ∧ (rx.frame.pay = .slotAck number) ∧
        (r.copying (fun c => decide (c.l1 = 1) && decide (c.number = number)) = some c) ∧ (r.occ c.occ = some o) ∧
          (c.poison = 0) ∧ (c.secure = false) ∧ (r.flag State.snapP SNAP.PAGE_STAT_same_feed = false) :=
  ⟨wSnapS { wClr with l1 := 1 }, wGot (wSnapS { wClr with l1 := 1 }) (wIn 7 0 (.slotAck 5)), wRx (wIn 7 0 (.slotAck 5)), 0, 5, { wClr with l1 := 1 }, wClrO .running, by decide⟩

set_option maxRecDepth 1000000 in
theorem wit_clearing_phases_13 :
    ∃ (s : State) (c : Clearing) (o : Occ), (s.copying (fun c => decide (c.l2 = 1)) = some c) ∧
      (s.occ c.occ = some o) ∧ (s.domainOn .snap 0 = true) ∧ (s.stripeOpen (s.l0Base c.number) c.bytes = true) ∧
        (c.poison = 0) ∧ (c.secure = false) ∧ (s.l2Place.isSome = true) :=
  ⟨wCl ({ wClr with l2 := 1 }) w1, { wClr with l2 := 1 }, wClrO .running, by decide⟩

set_option maxRecDepth 1000000 in
theorem wit_clearing_phases_14 :
    ∃ (s : State) (c : Clearing) (o : Occ), (s.copying (fun c => decide (c.l2 = 1)) = some c) ∧
      (s.occ c.occ = some o) ∧ (s.domainOn .snap 0 = true) ∧ (s.stripeOpen (s.l0Base c.number) c.bytes = true) ∧
        (c.ended = false) ∧ (c.l1 ≠ 1) :=
  ⟨wCl ({ wClr with l2 := 1 }) w1, { wClr with l2 := 1 }, wClrO .running, by decide⟩

set_option maxRecDepth 1000000 in
theorem wit_clearing_phases_15 :
    ∃ (s : State) (c : Clearing) (o : Occ), (s.copying (fun c => decide (c.l2 = 1)) = some c) ∧
      (s.occ c.occ = some o) ∧ (s.domainOn .snap 0 = true) ∧ (s.stripeOpen (s.l0Base c.number) c.bytes = true) ∧
        (c.ended = false) ∧ (c.l1 ≠ 1) ∧ (s.l2Place = none) :=
  ⟨wCl ({ wClr with l2 := 1 }) wKept, { wClr with l2 := 1 }, wClrO .running, by decide⟩

set_option maxRecDepth 1000000 in
theorem wit_partner_copies_and_the_trail_0 :
    ∃ (s : State) (r : State) (rx : Rx) (p : Nat) (number : _) (off : _) (b : List Nat) (pz : List Bool),
      (Delivered s rx r p) ∧ (r.fromPartner rx.frame = true) ∧ (r.snap.inbox = []) ∧ (r.snapOpen rx.frame = true) ∧
        (rx.frame.pay = .slotPart number off b pz) ∧ (rx.frame.last = false) ∧
          (off + b.length ≤ Member.stacks r.member * r.partSize) :=
  ⟨wPaired wUp, wGot (wPaired wUp) (wIn 7 0 (.slotPart 5 0 [1] [])), wRx (wIn 7 0 (.slotPart 5 0 [1] [])), 0, 5, 0,
    [1], [], by decide⟩

set_option maxRecDepth 1000000 in
theorem wit_partner_copies_and_the_trail_1 :
    ∃ (s : State) (r : State) (rx : Rx) (p : Nat) (number : _) (off : _) (b : List Nat) (pz : List Bool),
      (Delivered s rx r p) ∧ (r.fromPartner rx.frame = true) ∧ (rx.frame.pay = .slotPart number off b pz) ∧
        (r.snap.inbox = []) ∧ (r.snapOpen rx.frame = false) :=
  ⟨(wPaired wUp).fset (stkP 0) STK.PAGE_CTRL_quiesce 1,
    wGot ((wPaired wUp).fset (stkP 0) STK.PAGE_CTRL_quiesce 1) (wIn 7 0 (.slotPart 5 0 [1] [])),
      wRx (wIn 7 0 (.slotPart 5 0 [1] [])), 0, 5, 0, [1], [], by decide⟩

set_option maxRecDepth 1000000 in
theorem wit_partner_copies_and_the_trail_2 :
    ∃ (s : State) (r : State) (rx : Rx) (p : Nat) (pos : _) (b : List Nat), (Delivered s rx r p) ∧
      (r.fromPartner rx.frame = true) ∧ (rx.frame.pay = .trailRec pos b) ∧ (r.snap.inbox = []) ∧
        (r.snapOpen rx.frame = true) ∧ (r.hasMirror = true) :=
  ⟨wPaired wUp, wGot (wPaired wUp) (wIn 7 0 (.trailRec 4 [1])), wRx (wIn 7 0 (.trailRec 4 [1])), 0, 4, [1], by decide⟩

set_option maxRecDepth 1000000 in
theorem wit_partner_copies_and_the_trail_3 :
    ∃ (s : State) (r : State) (rx : Rx) (p : Nat) (pos : _) (b : List Nat), (Delivered s rx r p) ∧
      (r.fromPartner rx.frame = true) ∧ (rx.frame.pay = .trailRec pos b) ∧ (r.snap.inbox = []) ∧
        (r.snapOpen rx.frame = true) ∧ (r.hasMirror = false) :=
  ⟨(wPaired wUp).fset snapP SNAP.PART_CFG_size 0,
    wGot ((wPaired wUp).fset snapP SNAP.PART_CFG_size 0) (wIn 7 0 (.trailRec 4 [1])),
      wRx (wIn 7 0 (.trailRec 4 [1])), 0, 4, [1], by decide⟩

set_option maxRecDepth 1000000 in
theorem wit_partner_copies_and_the_trail_4 :
    ∃ (s : State) (r : State) (rx : Rx) (p : Nat) (number : _) (c : Clearing), (Delivered s rx r p) ∧
      (r.fromPartner rx.frame = true) ∧ (rx.frame.pay = .slotAck number) ∧
        (r.copying (fun c => decide (c.l1 = 1) && decide (c.number = number)) = some c) ∧ (c.poison = 0) ∧
          (c.secure = false) ∧ (r.flag State.snapP SNAP.PAGE_STAT_same_feed = false) :=
  ⟨wSnapS { wClr with l1 := 1 }, wGot (wSnapS { wClr with l1 := 1 }) (wIn 7 0 (.slotAck 5)), wRx (wIn 7 0 (.slotAck 5)), 0, 5, { wClr with l1 := 1 }, by decide⟩

set_option maxRecDepth 1000000 in
theorem wit_partner_copies_and_the_trail_5 :
    ∃ (s : State) (r : State) (rx : Rx) (p : Nat) (pos : _) (o : Occ), (Delivered s rx r p) ∧
      (r.fromPartner rx.frame = true) ∧ (rx.frame.pay = .trailAck pos) ∧ (r.markRunning = some o) ∧
        (o.aux.getD 0 0 ≤ max r.snap.acked pos) :=
  ⟨{ wPaired wUp with seq := { w1.seq with occs := [wMark .running] } }, wGot ({ wPaired wUp with seq := { w1.seq with occs := [wMark .running] } }) (wIn 7 0 (.trailAck 10)), wRx (wIn 7 0 (.trailAck 10)), 0, 10, wMark .running, by decide⟩

set_option maxRecDepth 1000000 in
theorem wit_partner_copies_and_the_trail_6 :
    ∃ (s : State) (o : Occ), (s.markNext = some o) ∧ (s.trailSize = 0) :=
  ⟨wsv [wMark .input], wMark .input, by decide⟩

set_option maxRecDepth 1000000 in
theorem wit_partner_copies_and_the_trail_7 :
    ∃ (s : State) (o : Occ), (s.markNext = some o) ∧ (s.trailSize ≠ 0) ∧
      (s.flag State.trailP TRAIL.PAGE_STAT_verify = false) ∧
        (s.trailKeep + s.trailSize < s.trailHead + (recordBytes (s.markRecord o)).length) :=
  ⟨wTrail.setPair trailP TRAIL.HEAD_LO_bytes (2 ^ 20 - 1), wMark .input, by decide⟩

set_option maxRecDepth 1000000 in
theorem wit_partner_copies_and_the_trail_8 :
    ∃ (s : State) (o : Occ), (s.markNext = some o) ∧ (s.trailSize ≠ 0) ∧
      (s.flag State.trailP TRAIL.PAGE_STAT_verify = false) ∧
        (s.trailHead + (recordBytes (s.markRecord o)).length ≤ s.trailKeep + s.trailSize) :=
  ⟨wTrail, wMark .input, by decide⟩

set_option maxRecDepth 1000000 in
theorem wit_partner_copies_and_the_trail_9 :
    ∃ (s : State) (o : Occ), (s.markNext = some o) ∧ (s.trailSize ≠ 0) ∧
      (s.flag State.trailP TRAIL.PAGE_STAT_verify = true) ∧
        (unindexed (s.readVia (fun i => s.ringAddr (s.pair State.trailP TRAIL.REPLAY_POS_LO_bytes + i)) (recordBytes (s.markRecord o)).length).bytes = unindexed (recordBytes (s.markRecord o))) :=
  ⟨wVer, wMark .input, by decide⟩

set_option maxRecDepth 1000000 in
theorem wit_partner_copies_and_the_trail_10 :
    ∃ (s : State) (o : Occ), (s.markNext = some o) ∧ (s.trailSize ≠ 0) ∧
      (s.flag State.trailP TRAIL.PAGE_STAT_verify = true) ∧
        (unindexed (s.readVia (fun i => s.ringAddr (s.pair State.trailP TRAIL.REPLAY_POS_LO_bytes + i)) (recordBytes (s.markRecord o)).length).bytes ≠ unindexed (recordBytes (s.markRecord o))) :=
  ⟨wTrail.fset trailP TRAIL.PAGE_STAT_verify 1, wMark .input, by decide⟩

set_option maxRecDepth 1000000 in
theorem wit_partner_copies_and_the_trail_11 :
    ∃ (s : State) (o : Occ), (s.markRunning = some o) ∧ (s.domainOn .trail 0 = true) :=
  ⟨wsv [wMark .running], wMark .running, by decide⟩

set_option maxRecDepth 1000000 in
theorem wit_partner_copies_and_the_trail_12 :
    ∃ (s : State) (e : Nat), (s.fget 0 MODULE.FIREBREAK_state = 0) ∧ (s.memOpen (s.ringAddr 0) = true) ∧
      (s.domainOn .trail 0 = true) ∧ (s.snap.flushTo = some e) :=
  ⟨{ w1 with snap := { w1.snap with flushTo := some 7 } }, 7, by decide⟩

set_option maxRecDepth 1000000 in
theorem wit_partner_copies_and_the_trail_13 :
    ∃ (s : State) (port : Port), (Open s port .trail 0) ∧ (s.trailSize ≠ 0) ∧
      (s.pair State.trailP TRAIL.REPLAY_POS_LO_bytes < s.trailHead) :=
  ⟨wTrail.setPair trailP TRAIL.HEAD_LO_bytes 1, .ranger, by decide⟩

set_option maxRecDepth 1000000 in
theorem wit_partner_copies_and_the_trail_14 :
    ∃ (s : State) (port : Port), (Open s port .trail 0) :=
  ⟨w1, .ranger, by decide⟩

set_option maxRecDepth 1000000 in
theorem wit_partner_copies_and_the_trail_15 :
    ∃ (s : State) (port : Port), (Open s port .snap 0) :=
  ⟨w1, .ranger, by decide⟩

set_option maxRecDepth 1000000 in
theorem wit_pairing_heartbeats_and_lost_ranks_0 :
    ∃ (s : State) (port : Port) (rank : _), (Open s port .snap 0) ∧ (rank < 2 ^ 16) ∧ (s.snap.pairRec = []) ∧
      (rank = s.rank) :=
  ⟨w1, .ranger, 0, by decide⟩

set_option maxRecDepth 1000000 in
theorem wit_pairing_heartbeats_and_lost_ranks_1 :
    ∃ (s : State) (port : Port) (rank : _), (Open s port .snap 0) ∧ (rank < 2 ^ 16) ∧ (s.snap.pairRec = []) ∧
      (rank ≠ s.rank) ∧ (s.snap.lost.contains rank = true) :=
  ⟨wLost, .ranger, 1, by decide⟩

set_option maxRecDepth 1000000 in
theorem wit_pairing_heartbeats_and_lost_ranks_2 :
    ∃ (s : State) (port : Port) (rank : _), (Open s port .snap 0) ∧ (rank < 2 ^ 16) ∧ (s.snap.pairRec = []) ∧
      (rank ≠ s.rank) ∧ (s.snap.lost.contains rank = false) ∧ (s.coordValid = false ∨ s.routeOf rank 7 = none) :=
  ⟨w1, .ranger, 65535, by decide⟩

set_option maxRecDepth 1000000 in
theorem wit_pairing_heartbeats_and_lost_ranks_3 :
    ∃ (s : State) (port : Port) (rank : _) (p : _), (Open s port .snap 0) ∧ (rank < 2 ^ 16) ∧ (s.snap.pairRec = []) ∧
      (rank ≠ s.rank) ∧ (s.snap.lost.contains rank = false) ∧ (s.coordValid = true) ∧ (s.routeOf rank 7 = some p) :=
  ⟨wUp, .ranger, 1, 0, by decide⟩

set_option maxRecDepth 1000000 in
theorem wit_pairing_heartbeats_and_lost_ranks_4 :
    ∃ (s : State) (port : Port) (rank : _) (x : PairRec) (p : _) (q : _), (Open s port .snap 0) ∧ (rank < 2 ^ 16) ∧
      (s.snap.pairRec = [x]) ∧ (x.rank ≠ rank) ∧ (rank ≠ s.rank) ∧ (s.snap.lost.contains rank = false) ∧
        (s.coordValid = true) ∧ (s.routeOf rank 7 = some p) ∧ (s.routeOf x.rank 7 = some q) :=
  ⟨wThird, .ranger, 1, ⟨2, 0, 0, 0, 0⟩, 0, 0, by decide⟩

set_option maxRecDepth 1000000 in
theorem wit_pairing_heartbeats_and_lost_ranks_5 :
    ∃ (s : State) (port : Port), (Open s port .snap 0) ∧ (s.collQuiesced = true) :=
  ⟨wQuiet, .ranger, by decide⟩

set_option maxRecDepth 1000000 in
theorem wit_pairing_heartbeats_and_lost_ranks_6 :
    ∃ (s : State) (port : Port), (Open s port .snap 0) ∧ (s.collQuiesced = false) :=
  ⟨w1, .ranger, by decide⟩

set_option maxRecDepth 1000000 in
theorem wit_pairing_heartbeats_and_lost_ranks_7 :
    ∃ (s : State) (r : State) (rx : Rx) (p : Nat) (rank : _) (feed : _) (ap : _) (cap : _) (names : _),
      (Delivered s rx r p) ∧ (rx.frame.pay = .pair rank feed ap cap names) ∧
        (r.fget State.snapP SNAP.PAIR_STAT_state = 1) ∧ (rank = r.snap.pairTo) ∧ (names ≠ r.rank) :=
  ⟨wAsk, wGot (wAsk) (wIn 7 0 (.pair 1 0 0 0 2)), wRx (wIn 7 0 (.pair 1 0 0 0 2)), 0, 1, 0, 0, 0, 2, by decide⟩

set_option maxRecDepth 1000000 in
theorem wit_pairing_heartbeats_and_lost_ranks_8 :
    ∃ (s : State) (r : State) (rx : Rx) (p : Nat) (rank : _) (feed : _) (ap : _) (cap : _) (names : _),
      (Delivered s rx r p) ∧ (rx.frame.pay = .pair rank feed ap cap names) ∧
        (r.fget State.snapP SNAP.PAIR_STAT_state = 1) ∧ (rank = r.snap.pairTo) ∧ (names = r.rank) ∧
          (r.aP < cap ∨ ap < r.capacity) :=
  ⟨wAsk, wGot (wAsk) (wIn 7 0 (.pair 1 0 0 1 0)), wRx (wIn 7 0 (.pair 1 0 0 1 0)), 0, 1, 0, 0, 1, 0, by decide⟩

set_option maxRecDepth 1000000 in
theorem wit_pairing_heartbeats_and_lost_ranks_9 :
    ∃ (s : State) (r : State) (rx : Rx) (p : Nat) (rank : _) (feed : _) (ap : _) (cap : _) (names : _),
      (Delivered s rx r p) ∧ (rx.frame.pay = .pair rank feed ap cap names) ∧
        (r.fget State.snapP SNAP.PAIR_STAT_state = 1) ∧ (rank = r.snap.pairTo) ∧ (names = r.rank) ∧ (cap ≤ r.aP) ∧
          (r.capacity ≤ ap) :=
  ⟨wAsk, wGot (wAsk) (wIn 7 0 (.pair 1 0 0 0 0)), wRx (wIn 7 0 (.pair 1 0 0 0 0)), 0, 1, 0, 0, 0, 0, by decide⟩

set_option maxRecDepth 1000000 in
theorem wit_pairing_heartbeats_and_lost_ranks_10 :
    ∃ (s : State) (r : State) (rx : Rx) (p : Nat) (rank : _) (feed : _) (ap : _) (cap : _), (Delivered s rx r p) ∧
      (rx.frame.pay = .pair rank feed ap cap r.rank) ∧ (r.pairNames = true) ∧ (rank ≠ r.snap.pairTo) :=
  ⟨wAsk, wGot (wAsk) (wIn 7 0 (.pair 2 0 0 0 0)), wRx (wIn 7 0 (.pair 2 0 0 0 0)), 0, 2, 0, 0, 0, by decide⟩

set_option maxRecDepth 1000000 in
theorem wit_pairing_heartbeats_and_lost_ranks_11 :
    ∃ (s : State) (r : State) (rx : Rx) (p : Nat) (rank : _) (feed : _) (ap : _) (cap : _), (Delivered s rx r p) ∧
      (rx.frame.pay = .pair rank feed ap cap r.rank) ∧ (r.pairNames = false) :=
  ⟨wUp, wGot (wUp) (wIn 7 0 (.pair 1 0 0 0 0)), wRx (wIn 7 0 (.pair 1 0 0 0 0)), 0, 1, 0, 0, 0, by decide⟩

set_option maxRecDepth 1000000 in
theorem wit_pairing_heartbeats_and_lost_ranks_12 :
    ∃ (s : State) (r : State) (rx : Rx) (p : Nat), (Delivered s rx r p) ∧ (rx.frame.typ = 9) ∧
      (rx.frame.pay = .heartbeat) :=
  ⟨wUp, wGot (wUp) (wIn 0 9 .heartbeat), wRx (wIn 0 9 .heartbeat), 0, by decide⟩

set_option maxRecDepth 1000000 in
theorem wit_pairing_heartbeats_and_lost_ranks_13 :
    ∃ (s : State) (r : State) (rx : Rx) (p : Nat) (rank : _) (code : _), (Delivered s rx r p) ∧
      (rx.frame.pay = .lost rank code) ∧ (rank ≠ r.rank) :=
  ⟨wUp, wGot (wUp) (wIn 0 9 (.lost 1 1)), wRx (wIn 0 9 (.lost 1 1)), 0, 1, 1, by decide⟩

set_option maxRecDepth 1000000 in
theorem wit_pairing_heartbeats_and_lost_ranks_14 :
    ∃ (s : State) (r : State) (rx : Rx) (p : Nat) (rank : _) (code : _), (Delivered s rx r p) ∧
      (rx.frame.pay = .lost rank code) ∧ (rank = r.rank) ∧ (r.flag State.snapP SNAP.PAGE_STAT_self_lost = false) :=
  ⟨wUp, wGot (wUp) (wIn 0 9 (.lost 0 1)), wRx (wIn 0 9 (.lost 0 1)), 0, 0, 1, by decide⟩

set_option maxRecDepth 1000000 in
theorem wit_pairing_heartbeats_and_lost_ranks_15 :
    ∃ (s : State) (rank : _) (p : _), (s.hbOn = true) ∧ (s.fget 0 MODULE.FIREBREAK_state = 0) ∧ (s.pwrState ≤ 1) ∧
      (s.flag State.snapP SNAP.PAGE_STAT_self_lost = false) ∧ (s.watched = [rank]) ∧ (s.routeOf rank 0 = some p) :=
  ⟨wHbS, 1, 0, by decide⟩

set_option maxRecDepth 1000000 in
theorem wit_pairing_heartbeats_and_lost_ranks_16 :
    ∃ (s : State) (rank : _), (s.hbOn = true) ∧ (s.fget 0 MODULE.FIREBREAK_state = 0) ∧ (s.pwrState ≤ 1) ∧
      (s.watched.contains rank = true) ∧ (s.snap.lost.contains rank = false) ∧ (s.net.grace = false) ∧
        (sparseGet (fun _ => 0) s.snap.misses rank + 1 < s.fget State.snapP SNAP.HB_CFG_miss) :=
  ⟨wMiss 1, 1, by decide⟩

set_option maxRecDepth 1000000 in
theorem wit_pairing_heartbeats_and_lost_ranks_17 :
    ∃ (s : State) (rank : _), (s.hbOn = true) ∧ (s.fget 0 MODULE.FIREBREAK_state = 0) ∧ (s.pwrState ≤ 1) ∧
      (s.watched.contains rank = true) ∧ (s.snap.lost.contains rank = false) ∧ (s.net.grace = false) ∧
        (s.fget State.snapP SNAP.HB_CFG_miss ≤ sparseGet (fun _ => 0) s.snap.misses rank + 1) :=
  ⟨wMiss 2, 1, by decide⟩

set_option maxRecDepth 1000000 in
theorem wit_restore_commands_0 :
    ∃ (s : State) (port : Port) (src : _), (Open s port .snap 0) ∧ (src < 3) ∧
      (s.fget 0 MODULE.FIREBREAK_state = 0) ∧ (s.snap.restore = none) :=
  ⟨w1, .ranger, 2, by decide⟩

set_option maxRecDepth 1000000 in
theorem wit_restore_commands_1 :
    ∃ (s : State) (port : Port), (Open s port .snap 0) :=
  ⟨w1, .ranger, by decide⟩

set_option maxRecDepth 1000000 in
theorem wit_restore_commands_2 :
    ∃ (s : State) (port : Port), (Open s port .snap 0) ∧ (s.fget State.snapP SNAP.RESTORE_CTRL_src < 3) ∧
      (s.snap.restore = none) ∧ (s.fget State.snapP SNAP.RESTORE_STAT_code = 0x50) :=
  ⟨wCode 0x50, .ranger, by decide⟩

set_option maxRecDepth 1000000 in
theorem wit_restore_commands_3 :
    ∃ (s : State) (port : Port), (Open s port .snap 0) ∧ (s.fget State.snapP SNAP.RESTORE_CTRL_src < 3) ∧
      (s.snap.restore = none) ∧ (s.fget State.snapP SNAP.RESTORE_STAT_code ≠ 0x50) :=
  ⟨wCode 0, .ranger, by decide⟩

set_option maxRecDepth 1000000 in
theorem wit_restore_commands_4 :
    ∃ (s : State) (port : Port), (Open s port .snap 0) ∧ (s.fget State.snapP SNAP.RESTORE_CTRL_src < 3) ∧
      (s.snap.restore = none) ∧ (s.fget State.snapP SNAP.RESTORE_STAT_code = 0x51) :=
  ⟨wCode 0x51, .ranger, by decide⟩

set_option maxRecDepth 1000000 in
theorem wit_restore_commands_5 :
    ∃ (s : State) (x : Restore) (b : Nat → Nat) (bad : Nat → Bool), (s.snap.restore = some x) ∧ (x.arrived = true) ∧
      (s.fireClosed = false) ∧ (s.snap.inbox = []) ∧ (s.domainOn .snap 0 = true) ∧
        ((List.range (Member.stacks s.member)).all (fun k => s.memOpen (stackBase k)) = true) ∧
          (s.restoreSource x = some (b, bad)) ∧ (headerOk b = true) ∧ (hdrNumber b = x.number) ∧
            (RestorePasses s (copiedBack s x b bad) x b bad) :=
  ⟨wX, wBack, wHdrB, fun i => ([] : List Nat).contains (i / 8), rfl, rfl, by decide, rfl, by decide, by decide, rfl,
    wHdr_ok, by decide, passes⟩

set_option maxRecDepth 1000000 in
theorem wit_restore_commands_6 :
    ∃ (s : State) (x : Restore), (s.snap.restore = some x) ∧ (x.arrived = true) ∧ (s.fireClosed = false) ∧
      (s.snap.inbox = []) ∧ (s.domainOn .snap 0 = true) ∧
        ((List.range (Member.stacks s.member)).all (fun k => s.memOpen (stackBase k)) = true) :=
  ⟨wRes (wr true), wr true, by decide⟩

set_option maxRecDepth 1000000 in
theorem wit_restore_commands_7 :
    ∃ (s : State) (x : Restore), (s.snap.restore = some x) ∧ (x.arrived = true) ∧ (s.fireClosed = false) ∧
      (s.snap.inbox = []) ∧ (s.domainOn .snap 0 = true) ∧
        ((List.range (Member.stacks s.member)).all (fun k => s.memOpen (stackBase k)) = true) ∧
          (s.restoreSource x = none) :=
  ⟨wRes ⟨0, 5, 0, [], [], true⟩, ⟨0, 5, 0, [], [], true⟩, by decide⟩

set_option maxRecDepth 1000000 in
theorem wit_restore_commands_8 :
    ∃ (s : State) (r : State) (rx : Rx) (p : Nat) (rank : _) (number : _), (Delivered s rx r p) ∧
      (rx.frame.pay = .restoreReq rank number) :=
  ⟨wPaired wUp, wGot (wPaired wUp) (wIn 7 0 (.restoreReq 1 5)), wRx (wIn 7 0 (.restoreReq 1 5)), 0, 1, 5, by decide⟩

set_option maxRecDepth 1000000 in
theorem wit_restore_commands_9 :
    ∃ (s : State) (r : State) (rx : Rx) (p : Nat) (x : Restore) (off : _) (b : List Nat) (pz : List Bool),
      (Delivered s rx r p) ∧ (r.snap.inbox = []) ∧ (r.snapOpen rx.frame = true) ∧ (r.restoring rx.frame = some x) ∧
        (rx.frame.pay = .restoreSlot off b pz) :=
  ⟨wRes (wr false), wGot (wRes (wr false)) ({ wIn 7 0 (.restoreSlot 0 [1] []) with last := true }), wRx ({ wIn 7 0 (.restoreSlot 0 [1] []) with last := true }), 0, wr false, 0, [1], [], by decide⟩

set_option maxRecDepth 1000000 in
theorem wit_restore_commands_10 :
    ∃ (s : State) (r : State) (rx : Rx) (p : Nat) (x : Restore) (pos : _) (b : List Nat), (Delivered s rx r p) ∧
      (r.snap.inbox = []) ∧ (r.snapOpen rx.frame = true) ∧ (r.restoring rx.frame = some x) ∧
        (rx.frame.pay = .restoreTrail pos b) ∧ (r.trailSize ≠ 0) :=
  ⟨(wRes (wr false)).fset trailP TRAIL.TRAIL_SIZE_mib 1,
    wGot ((wRes (wr false)).fset trailP TRAIL.TRAIL_SIZE_mib 1) (wIn 7 0 (.restoreTrail 0 [1])),
      wRx (wIn 7 0 (.restoreTrail 0 [1])), 0, wr false, 0, [1], by decide⟩

set_option maxRecDepth 1000000 in
theorem wit_absent_pages_read_zero_0 :
    ∃ (s : State) (port : Port) (page : Nat) (off : Nat) (n : Nat), (s.reachOf port page = .zero) ∧
      (s.portWaits port = false) ∧ (manyWords off n = false ∨ off + n ≤ 4096) :=
  ⟨w1, .ranger, 0xFFF, 4092, 4, by decide⟩

set_option maxRecDepth 1000000 in
theorem wit_absent_pages_read_zero_1 :
    ∃ (s : State) (port : Port) (page : Nat) (off : Nat) (n : Nat), (s.reachOf port page = .zero) ∧
      (s.portWaits port = false) ∧ (manyWords off n = false ∨ off + n ≤ 4096) :=
  ⟨w1, .ranger, 0xFFF, 4092, 4, by decide⟩

set_option maxRecDepth 1000000 in
theorem wit_absent_pages_read_zero_2 :
    ∃ (s : State) (port : Port) (page : Nat), (pageAt s.member page = none) ∧ (s.reachOf port page ≠ .none) ∧
      (s.reachOf port page ≠ .early) :=
  ⟨w1, .ranger, 0xFFF, by decide⟩

set_option maxRecDepth 1000000 in
theorem wit_absent_pages_read_zero_3 :
    ∃ (s : State) (c : Instr) (port : Port) (ty : PageType) (i : Nat) (f : Fd) (v : Nat), (ctrlField c = some (port,
      ty, i, f, v)) ∧ (pagePresent s.member ty i = false) :=
  ⟨{ w1 with fuses := { w1.fuses with member := .xsc1 } }, .dmaEnable .ranger 7 true, .ranger, PageType.dma, 7, DMA.PAGE_CTRL_enable, 1, by decide⟩

set_option maxRecDepth 1000000 in
theorem wit_nan_and_infinity_convert_0 :
    ∃ (src : Nat) (dst : Nat), (1 ≤ src) ∧ (src ≤ 6) ∧ (1 ≤ dst) ∧ (dst ≤ 6) :=
  ⟨1, 6, by decide⟩

set_option maxRecDepth 1000000 in
theorem wit_nan_and_infinity_convert_0a :
    ∃ (src : Nat) (dst : Nat), (1 ≤ src) ∧ (src ≤ 6) ∧ (1 ≤ dst) ∧ (dst ≤ 6) :=
  ⟨6, 1, by decide⟩

set_option maxRecDepth 1000000 in
theorem wit_one_or_two_flipped_bits_are_corrected_0 :
    ∃ (m : MemSt) (wa : Nat) (i : _), (wa % 8 = 0) ∧ (m.diff wa = 0) ∧ (i < 80) :=
  ⟨w1.mem, 8, 79, by decide⟩

set_option maxRecDepth 1000000 in
theorem wit_one_or_two_flipped_bits_are_corrected_1 :
    ∃ (m : MemSt) (wa : Nat) (i : _) (j : _), (wa % 8 = 0) ∧ (m.diff wa = 0) ∧ (i < j) ∧ (j < 80) :=
  ⟨w1.mem, 8, 78, 79, by decide⟩

set_option maxRecDepth 1000000 in
theorem wit_norm_sums_ignore_order_and_split_0 :
    ∃ (xs : List Val) (ys : List Val), (xs.Perm ys) :=
  ⟨[.zero false, .inf true], [.inf true, .zero false], by decide⟩

set_option maxRecDepth 1000000 in
theorem wit_norm_sums_ignore_order_and_split_1 :
    ∃ (r : NormRec), (r.ovf = false) ∧ (r.la < 2 ^ 576) :=
  ⟨⟨2 ^ 576 - 1, 0, 0, false, 0⟩, by decide⟩

set_option maxRecDepth 1000000 in
theorem wit_frames_of_the_commands_0 :
    ∃ (c : Instr) (s : State) (t : State), (exec c s = .next t) :=
  ⟨.fastLimitRelease, w1, _, rfl⟩

/-! ### Witness of a plan that loads -/

/-- Memory whose first 4928 bytes spell a number. -/
@[irreducible] def wSpell (v : Nat) : MemSt := MemSt.reset.putBytes 0 v 4928

theorem wSpell_byte (v a : Nat) (h : a < 4928) : ((wSpell v).byte a).toNat = v / 256 ^ a % 256 := by
  have := MemSt.byte_putBytes_in MemSt.reset 0 v 4928 a h
  rw [Nat.zero_add] at this
  unfold wSpell
  rw [this, BitVec.toNat_ofNat]
  exact Nat.mod_eq_of_lt (Nat.mod_lt _ (by decide))

theorem wSpell_raw (v a n : Nat) (h : a + n ≤ 4928) : (wSpell v).rawBytes a n = v / 256 ^ a % 256 ^ n := by
  induction n generalizing a with
  | zero => simp [MemSt.rawBytes, Nat.mod_one]
  | succ n ih =>
    rw [MemSt.rawBytes, ih _ (by omega), wSpell_byte _ _ (by omega), Nat.pow_succ 256 a, ← Nat.div_div_eq_div_mul,
      Nat.pow_succ', Nat.mod_mul]

theorem wSpell_readByte (v a : Nat) (h : a < 4928) : (wSpell v).readByte a = v / 256 ^ a % 256 := by
  have hd : (wSpell v).diff (wordOf a) = 0 := by
    unfold wSpell MemSt.diff
    rw [MemSt.chk_putBytes]; rfl
  have he : (wSpell v).ecc (wordOf a) = .ok := by rw [MemSt.ecc, hd]; decide
  have hw : (wSpell v).wordData (wordOf a) = v / 256 ^ wordOf a % 256 ^ 8 := by
    rw [MemSt.wordData, he]
    exact wSpell_raw v _ 8 (by unfold wordOf; omega)
  rw [MemSt.readByte, hw, natBits]
  have h2 : (2 : Nat) ^ (8 * (a % 8)) = 256 ^ (a % 8) := by rw [Nat.pow_mul]
  have ha : a = wordOf a + a % 8 := by unfold wordOf; omega
  rw [h2]
  conv => rhs; rw [ha, Nat.pow_add, ← Nat.div_div_eq_div_mul]
  have h8 : (256 : Nat) ^ 8 = 256 ^ (a % 8) * 256 ^ (8 - a % 8) := by
    rw [← Nat.pow_add, show a % 8 + (8 - a % 8) = 8 by omega]
  rw [h8, Nat.mod_mul_right_div_self]
  have h9 : (256 : Nat) ^ (8 - a % 8) = 256 * 256 ^ (7 - a % 8) := by
    rw [← Nat.pow_succ', show (7 - a % 8).succ = 8 - a % 8 by omega]
  rw [h9]
  exact Nat.mod_mul_right_mod _ _ _

theorem wSpell_readN (v a n : Nat) (h : a + n ≤ 4928) : (wSpell v).readN a n = v / 256 ^ a % 256 ^ n := by
  induction n generalizing a with
  | zero => simp [MemSt.readN, Nat.mod_one]
  | succ n ih =>
    rw [MemSt.readN, ih _ (by omega), wSpell_readByte _ _ (by omega), Nat.pow_succ 256 a, ← Nat.div_div_eq_div_mul,
      Nat.pow_succ', Nat.mod_mul]

/-- An image in which no channel takes part, and its tables. -/
def wImg : Nat :=
  0x504C4E31 + 2 ^ 32 + 0x11111111 * 2 ^ 128 + 1483524349 * 2 ^ 480 +
    (2 ^ 20480 - 1) / (2 ^ 32 - 1) * 0xFFFF0000 * 2 ^ 512
def wImage : PlanImage :=
  ⟨0, 0x504C4E31, 1, 0, 0, 1483524349,
    ⟨List.replicate 640 0xFFFF0000, List.replicate 256 0, List.replicate 48 0, [], 0x11111111⟩⟩
def wLoad : State :=
  { ((State.reset.fset 0 MODULE.BOOT_STAT_stage 10).fset 0 MODULE.PAGE_STAT_ready 1 |>.fset collP COLL.PAGE_CTRL_quiesce 1).fset
      planP PLAN.PLAN_LEN_bytes 4928 with mem := wSpell wImg }
theorem map_range_congr {α : Type} (n : Nat) (f g : Nat → α) (h : ∀ i, i < n → f i = g i) :
    (List.range n).map f = (List.range n).map g := List.map_congr_left fun i hi => h i (List.mem_range.mp hi)

theorem wLoad_readN (a n : Nat) (h : a + n ≤ 4928) : wLoad.mem.readN a n = wImg / 256 ^ a % 256 ^ n :=
  wSpell_readN wImg a n h

set_option maxRecDepth 1000000 in
theorem wLoad_readPlan : wLoad.readPlan 0 = wImage := by
  have h8 : wLoad.mem.readN (0 + 8) 4 = 0 := by rw [wLoad_readN _ _ (by omega)]; decide
  unfold State.readPlan
  dsimp only
  rw [h8, show natBits 0 16 13 = 0 by decide +kernel, show natBits 0 0 16 = 0 by decide, wLoad_readN _ _ (by omega),
    wLoad_readN _ _ (by omega), wLoad_readN _ _ (by omega), wLoad_readN _ _ (by omega),
    map_range_congr 640 _ (fun i => wImg / 256 ^ (0 + (0x40 + 4 * i)) % 256 ^ 4) (fun i hi => wLoad_readN _ _ (by omega)),
    map_range_congr 256 _ (fun i => wImg / 256 ^ (0 + (0xA40 + 8 * i)) % 256 ^ 8) (fun i hi => wLoad_readN _ _ (by omega)),
    map_range_congr 48 _ (fun i => wImg / 256 ^ (0 + (0x1240 + 4 * i)) % 256 ^ 4) (fun i hi => wLoad_readN _ _ (by omega))]
  decide +kernel

/-- A fold that takes each step's value before the next. -/
def strictly (f : Nat → Nat → Nat) (c : Nat) : List Nat → Nat
  | [] => c
  | b :: r => match f c b with
    | 0 => strictly f 0 r
    | n + 1 => strictly f (n + 1) r

theorem strictly_eq (f : Nat → Nat → Nat) (l : List Nat) (c : Nat) : strictly f c l = l.foldl f c := by
  induction l generalizing c with
  | nil => rfl
  | cons b r ih =>
    rw [List.foldl_cons, ← ih, strictly]
    cases f c b <;> rfl

set_option maxRecDepth 1000000 in
theorem wImg_crc : strictly crcByte 0xFFFFFFFF ((List.range 4928).map fun i => if 60 ≤ i ∧ i < 64 then 0 else wImg / 256 ^ (0 + i) % 256) =
    Nat.xor 1483524349 0xFFFFFFFF := by decide +kernel
set_option maxRecDepth 1000000 in
theorem wLoad_planCrc : wLoad.planCrc wImage = 1483524349 := by
  unfold State.planCrc
  rw [show planBytes wImage = 4928 by decide +kernel,
    map_range_congr 4928 _ (fun i => if 60 ≤ i ∧ i < 64 then 0 else wImg / 256 ^ (0 + i) % 256)
      (fun i hi => by
        by_cases h : 60 ≤ i ∧ i < 64
        · simp only [h, and_self, if_true]
        · simp only [h, if_false]; exact wSpell_readByte wImg (0 + i) (by omega)), crc32c, ← strictly_eq, wImg_crc]
  decide +kernel

theorem wImage_chan (i d : Nat) (h : d = 0 ∨ d = 0xFFFF0000) :
    wImage.tab.chans.getD i d = 0 ∨ wImage.tab.chans.getD i d = 0xFFFF0000 := by
  show (List.replicate 640 0xFFFF0000).getD i d = 0 ∨ (List.replicate 640 0xFFFF0000).getD i d = 0xFFFF0000
  rw [List.getD_eq_getElem?_getD, List.getElem?_replicate]
  split
  · exact .inr rfl
  · exact h

theorem wImage_tx (i : Nat) : chTxEn (wImage.tab.chans.getD i 0) = false := by
  rcases wImage_chan i 0 (.inl rfl) with h | h <;> rw [h] <;> decide
theorem wImage_rx (i : Nat) : chRxEn (wImage.tab.chans.getD i 0) = false := by
  rcases wImage_chan i 0 (.inl rfl) with h | h <;> rw [h] <;> decide
theorem wImage_none (i : Nat) : wImage.tab.chans.getD i 0xFFFF0000 = 0xFFFF0000 := by
  show (List.replicate 640 0xFFFF0000).getD i 0xFFFF0000 = 0xFFFF0000
  rw [List.getD_eq_getElem?_getD, List.getElem?_replicate]
  split <;> rfl
theorem wImage_port (i : Nat) : (wImage.tab.port i).valid = false := by
  have h : (List.replicate 256 0).getD i 0 = 0 := by
    rw [List.getD_eq_getElem?_getD, List.getElem?_replicate]
    split <;> rfl
  show (PortEntry.ofBits ((List.replicate 256 0).getD i 0)).valid = false
  rw [h]; decide
theorem wImage_fan (i : Nat) : wImage.tab.fans.getD i 0 = 0 := by
  show (List.replicate 48 0).getD i 0 = 0
  rw [List.getD_eq_getElem?_getD, List.getElem?_replicate]
  split <;> rfl
theorem firstIdx_none (n : Nat) (p : Nat → Bool) (h : ∀ i, p i = false) : firstIdx n p = none := by
  unfold firstIdx
  rw [List.find?_eq_none]
  intro i _
  rw [h]; decide

set_option maxRecDepth 1000000 in
/-- An image in which no channel and no port takes part, without routes, has no fault of the plan checks. -/
theorem planFault_none (s : State) (im : PlanImage) (tx : ∀ i, chTxEn (im.tab.chans.getD i 0) = false)
    (rx : ∀ i, chRxEn (im.tab.chans.getD i 0) = false) (no : ∀ i, im.tab.chans.getD i 0xFFFF0000 = 0xFFFF0000)
    (port : ∀ i, (im.tab.port i).valid = false) (fan : ∀ i, im.tab.fans.getD i 0 = 0) (rt : im.routes = 0)
    (wt : im.tab.weight = 0x11111111) (c : Nat) (h : c ∈ [3, 4, 5, 6, 7, 8, 9, 10, 11, 12]) :
    s.planFault im c = none := by
  have hn : ([chTxPort 0xFFFF0000, chRxPort 0xFFFF0000].filterMap (planPeer im.tab)) = [] := by
    rw [show chTxPort 0xFFFF0000 = 0xFF by decide, show chRxPort 0xFFFF0000 = 0xFF by decide]
    simp [planPeer]
  simp only [List.mem_cons, List.not_mem_nil, or_false] at h
  rcases h with rfl | rfl | rfl | rfl | rfl | rfl | rfl | rfl | rfl | rfl
  · exact firstIdx_none _ _ fun i => by dsimp only; rw [tx, rx]; simp
  · exact firstIdx_none _ _ fun i => by dsimp only; rw [tx, rx]; simp
  · exact firstIdx_none _ _ fun i => by dsimp only; rw [tx, rx]; simp
  · show Option.map (· + 384) (firstIdx 256 _) = none
    rw [Option.map_eq_none_iff]
    apply firstIdx_none
    intro i
    dsimp only
    rw [no, hn]
    rfl
  · exact firstIdx_none _ _ fun i => by dsimp only; rw [tx, rx]; simp
  · exact firstIdx_none _ _ fun i => by dsimp only; rw [port]; simp
  · have e : firstIdx 640 (fun i => [chTxPort (im.tab.chans.getD i 0xFFFF0000),
        chRxPort (im.tab.chans.getD i 0xFFFF0000)].any fun p =>
          decide (p ≠ 0xFF) && !(decide (p < 255) && (im.tab.port p).valid)) = none :=
      firstIdx_none _ _ fun i => by
        rw [no, show chTxPort 0xFFFF0000 = 0xFF by decide, show chRxPort 0xFFFF0000 = 0xFF by decide]; simp
    show (match firstIdx 640 (fun i => [chTxPort (im.tab.chans.getD i 0xFFFF0000),
        chRxPort (im.tab.chans.getD i 0xFFFF0000)].any fun p =>
          decide (p ≠ 0xFF) && !(decide (p < 255) && (im.tab.port p).valid)) with
      | some i => some i
      | none => firstIdx 255 fun p => (im.tab.port p).valid &&
          !(im.tab.chans.any fun w => decide (chTxPort w = p) || decide (chRxPort w = p))) = none
    rw [e]
    dsimp only
    exact firstIdx_none _ _ fun i => by rw [port]; simp
  · exact firstIdx_none _ _ fun i => by
      dsimp only; rw [fan, show (natBits 0 0 1 == 1) = false by decide, Bool.false_and]
  · show firstIdx im.routes _ = none
    rw [rt]; rfl
  · show (if _ then some 0 else none) = none
    rw [wt]; decide

/-- An image in place, whole, for this rank, with its CRC and without a fault passes. -/
theorem planCheck_passes (s : State) (base : Nat) (im : PlanImage) (hr : s.readPlan base = im) (hb : base % 64 = 0)
    (hm : memRange s.member base 64 = true) (hn : memRange s.member base (planBytes im) = true)
    (hl : planBytes im ≤ s.fget planP PLAN.PLAN_LEN_bytes) (hg : im.magic = 0x504C4E31) (he : im.epoch ≠ 0)
    (hk : im.rank = s.rank) (ht : im.routes ≤ 4096) (hc : s.planCrc im = im.crc)
    (hf : ∀ c ∈ [3, 4, 5, 6, 7, 8, 9, 10, 11, 12], s.planFault im c = none) : (s.planCheck base).1 = 0 := by
  have h : ([3, 4, 5, 6, 7, 8, 9, 10, 11, 12].find? fun c => (s.planFault im c).isSome) = none := by
    rw [List.find?_eq_none]
    intro c m
    rw [hf c m]; decide
  unfold State.planCheck
  simp only [hr]
  rw [if_neg (by simp [hb, hm]), if_neg (by simp [hn]; omega), if_neg (by simp [hg, he, hk, hc]; omega), h]

/-- What else the checks ask of the image in place. -/
theorem wLoad_place : memRange wLoad.member 0 64 = true ∧ memRange wLoad.member 0 (planBytes wImage) = true ∧
    planBytes wImage ≤ wLoad.fget planP PLAN.PLAN_LEN_bytes ∧ wImage.rank = wLoad.rank := by decide +kernel

set_option maxRecDepth 1000000 in
theorem wLoad_planCheck : (wLoad.planCheck 0).1 = 0 := by
  obtain ⟨one, all, len, rank⟩ := wLoad_place
  refine planCheck_passes wLoad 0 wImage wLoad_readPlan rfl one all len rfl ?_ rank (Nat.zero_le _) wLoad_planCrc ?_
  · exact Nat.one_ne_zero
  · exact planFault_none wLoad wImage wImage_tx wImage_rx wImage_none wImage_port wImage_fan rfl rfl

set_option maxRecDepth 1000000 in
theorem wit_plan_load_commands_0 :
    ∃ (s : State) (port : Port), Open s port .plan 0 ∧ s.collQuiesced = true ∧ s.snapTransfer = false ∧
      s.flag State.planP PLAN.PAGE_STAT_loading = false ∧ s.fget 0 MODULE.FIREBREAK_state = 0 ∧
      (s.planCheck (s.pair State.planP PLAN.PLAN_BASE_LO_addr)).1 = 0 :=
  ⟨wLoad, .ranger, by
    have idle : Open wLoad .ranger .plan 0 ∧ wLoad.collQuiesced = true ∧ wLoad.snapTransfer = false ∧
        wLoad.flag State.planP PLAN.PAGE_STAT_loading = false ∧ wLoad.fget 0 MODULE.FIREBREAK_state = 0 ∧
        wLoad.pair State.planP PLAN.PLAN_BASE_LO_addr = 0 := by decide +kernel
    obtain ⟨there, quiet, moves, loads, safe, base⟩ := idle
    exact ⟨there, quiet, moves, loads, safe, by rw [base]; exact wLoad_planCheck⟩⟩

end Sys2Proof.Tests
end

/-! ## Pages of units the member lacks (00 R3) -/

namespace Sys2Proof.Machine
open Sys2Proof.Claims
namespace State

/-! ### Which accesses meet an absent page -/

/-- What an access to an absent page can meet: it never goes to a page. -/
theorem reachOf_of_pageAt_none {s : State} {page : Nat} (port : Port) (absent : pageAt s.member page = none) :
    s.reachOf port page = .none ∨ s.reachOf port page = .early ∨ s.reachOf port page = .zero := by
  unfold reachOf
  rw [absent]
  split
  · exact .inl rfl
  · split
    · exact .inr (.inl rfl)
    · exact .inr (.inr rfl)

/-! ### One access -/

@[simp] theorem bytesOfWord_zero (off n : Nat) : bytesOfWord 0#32 off n = 0#64 := by
  simp [bytesOfWord, natBits]

/-- A write that no page takes, with no earlier access of its port waiting, is dropped. -/
theorem access_write_of_zero {s : State} {port : Port} {page : Nat} (zero : s.reachOf port page = .zero)
    (idle : s.portWaits port = false) (go : State → State) (off n : Nat) (w : Word) :
    s.access go port false page off n (some w) = s := by
  simp [access, zero, idle, answer]

/-- A read that no page takes, with no earlier access of its port waiting, answers zero. -/
theorem access_read_of_zero {s : State} {port : Port} {page : Nat} (zero : s.reachOf port page = .zero)
    (idle : s.portWaits port = false) (go : State → State) (off n : Nat) :
    s.access go port false page off n none = s.emit (.readData port 0) := by
  simp [access, zero, idle, answer]

/-! ### Several registers in one access (18 R447) -/

/-- Successive words inside one page are written to that page. -/
theorem page_of_word_inside {off k : Nat} (inside : off + 4 * (k + 1) ≤ 4096) (page : Nat) :
    page + off / 4096 = page := by
  omega

theorem writeWords_of_zero {s : State} {port : Port} {page : Nat} (zero : s.reachOf port page = .zero)
    (idle : s.portWaits port = false) (k : Nat) : ∀ off v, off + 4 * k ≤ 4096 →
      s.writeWords port page off v k = s := by
  induction k with
  | zero => intro off v _; rfl
  | succ k ih =>
    intro off v inside
    rw [writeWords, page_of_word_inside inside, access_write_of_zero zero idle]
    exact ih (off + 4) (v / 2 ^ 32) (by omega)

/-- `k` answers of zero to reads from a port, and nothing else. -/
def answerZeros (s : State) (port : Port) (k : Nat) : State :=
  { s with out := s.out ++ List.replicate k (.readData port 0) }

theorem answerZeros_emit (s : State) (port : Port) (k : Nat) :
    (s.emit (.readData port 0)).answerZeros port k = s.answerZeros port (k + 1) := by
  simp [answerZeros, emit, List.replicate_succ]

theorem readWords_of_zero {port : Port} {page : Nat} (k : Nat) : ∀ (s : State) (off : Nat),
    s.reachOf port page = .zero → s.portWaits port = false → off + 4 * k ≤ 4096 →
      s.readWords port page off k = s.answerZeros port k := by
  induction k with
  | zero => intro s off _ _ _; simp [readWords, answerZeros]
  | succ k ih =>
    intro s off zero idle inside
    rw [readWords, page_of_word_inside inside, access_read_of_zero zero idle,
      ih (s.emit (.readData port 0)) (off + 4) zero idle (by omega), answerZeros_emit]

/-- An access of several whole registers covers at least one. -/
theorem manyWords_lengths {off n : Nat} (many : manyWords off n = true) : 4 * (n / 4) = n ∧ 0 < n / 4 := by
  simp only [manyWords, Bool.and_eq_true, decide_eq_true_eq] at many
  omega

/-! ### Accesses of any length -/

section
variable {s : State} {port : Port} {page off n : Nat} (zero : s.reachOf port page = .zero)
  (idle : s.portWaits port = false) (inside : manyWords off n = false ∨ off + n ≤ 4096)
include zero idle inside

theorem hostWrite_of_zero (v : Nat) : s.hostWrite port page off n v = s := by
  unfold hostWrite
  split
  case isTrue many =>
    have fits := inside.resolve_left (by simp [many])
    exact writeWords_of_zero zero idle _ _ _ (by rw [(manyWords_lengths many).1]; exact fits)
  case isFalse => exact access_write_of_zero zero idle _ _ _ _

theorem hostRead_of_zero : ∃ k, 0 < k ∧ s.hostRead port page off n = s.answerZeros port k := by
  unfold hostRead
  split
  case isTrue many =>
    obtain ⟨whole, some_word⟩ := manyWords_lengths many
    have fits := inside.resolve_left (by simp [many])
    exact ⟨n / 4, some_word, readWords_of_zero _ _ _ zero idle (by rw [whole]; exact fits)⟩
  case isFalse => exact ⟨1, Nat.one_pos, access_read_of_zero zero idle _ _ _⟩

end

/-! ### Commands of one control field -/

/-- A write of one field of a unit that the member lacks changes nothing. -/
theorem setBits_of_absent {s : State} {ty : PageType} {i : Nat} (absent : pagePresent s.member ty i = false)
    (port : Port) (f : Fd) (b : Nat) : s.setBits port ty i f b = s := by
  simp [setBits, unitWrite, absent]

end State

/-- A command of one control field is a write of that field. -/
theorem exec_of_ctrlField {c : Instr} {port : Port} {ty : PageType} {i : Nat} {f : Fd} {v : Nat}
    (field : ctrlField c = some (port, ty, i, f, v)) (s : State) :
    exec c s = .next (s.start.setBits port ty i f v) := by
  unfold ctrlField at field
  split at field <;> cases field <;> rfl

/-! ### The statement -/

/-- Settles O56: an access that no page takes drops its write and answers zeros word by word, and every command of one
control field is a write that stops at an absent page. -/
theorem absentPagesReadZero : Obligations.AbsentPagesReadZero := by
  unfold Obligations.AbsentPagesReadZero
  refine ⟨fun s port page off n v zero idle inside => ⟨?_, ?_⟩, fun s port page absent answers served => ?_,
    fun s c port ty i f v field absent => ?_⟩
  case refine_1 =>
    exact ⟨_, rfl, State.hostWrite_of_zero (s := s.start) zero idle inside v⟩
  case refine_2 =>
    obtain ⟨k, pos, read⟩ := State.hostRead_of_zero (s := s.start) zero idle inside
    refine ⟨s.start.answerZeros port k, congrArg Host.Outcome.next read, ?_, ?_, rfl⟩
    · intro x mem
      exact List.eq_of_mem_replicate mem
    · intro silent
      exact Nat.ne_of_gt pos (List.replicate_eq_nil_iff _ |>.1 silent)
  case refine_3 =>
    exact (State.reachOf_of_pageAt_none port absent).resolve_left answers |>.resolve_left served
  case refine_4 =>
    exact ⟨_, exec_of_ctrlField field s, State.setBits_of_absent (s := s.start) absent port f v⟩

end Sys2Proof.Machine

/-! ## NaN and infinity in the element formats (02 R53, R54) -/

namespace Sys2Proof.Machine
open Sys2Proof.Claims

/-! ### The six floating formats and their special codes -/

/-- Each of the six floating element formats has its canonical NaN, and all but W8 their two infinities. -/
theorem fmtFloat_specials {fmt : Nat} (first : 1 ≤ fmt) (last : fmt ≤ 6) : ∃ f, fmtFloat fmt = some f ∧
    f.nanCode = canonicalNan fmt ∧ (f.hasInf = true ↔ fmt ≠ 5) ∧
    (f.hasInf = true → ∀ neg, f.signOf neg + f.infCode = infinity fmt neg ∧ f.decode (infinity fmt neg) = .inf neg) := by
  have cases : fmt = 1 ∨ fmt = 2 ∨ fmt = 3 ∨ fmt = 4 ∨ fmt = 5 ∨ fmt = 6 := by omega
  rcases cases with rfl | rfl | rfl | rfl | rfl | rfl <;> exact ⟨_, rfl, by decide⟩

/-! ### What a special code reads as -/

/-- Under an exponent of all ones, a fraction other than 0 is a NaN in a format with infinities. -/
theorem FloatFmt.decode_of_topExponent (f : FloatFmt) {w : Nat} (inf : f.hasInf = true)
    (ones : natBits w f.fbits f.ebits = 2 ^ f.ebits - 1) (frac : natBits w 0 f.fbits ≠ 0) : f.decode w = .nan := by
  simp [FloatFmt.decode, inf, ones, frac]

/-- W8's one NaN, of either sign: exponent and fraction all ones. -/
theorem w8Fmt_decode_of_ones {w : Nat} (ones : natBits w 0 7 = 127) : w8Fmt.decode w = .nan := by
  have expo : natBits w 3 4 = 15 := by simp only [natBits] at *; omega
  have frac : natBits w 0 3 = 7 := by simp only [natBits] at *; omega
  simp [FloatFmt.decode, w8Fmt, expo, frac]

/-- A NaN code is one of the format's own. -/
theorem fmtFloat_decode_of_isNanCode {fmt code : Nat} (nan : isNanCode fmt code) :
    ∃ f, fmtFloat fmt = some f ∧ f.decode code = .nan := by
  unfold isNanCode at nan
  split at nan
  · exact ⟨fp16Fmt, rfl, fp16Fmt.decode_of_topExponent rfl nan.1 nan.2⟩
  · exact ⟨fp16Fmt, rfl, fp16Fmt.decode_of_topExponent rfl nan.1 nan.2⟩
  · exact ⟨fp32Fmt, rfl, fp32Fmt.decode_of_topExponent rfl nan.1 nan.2⟩
  · exact ⟨m48Fmt, rfl, m48Fmt.decode_of_topExponent rfl nan.1 nan.2⟩
  · exact ⟨bin64Fmt, rfl, bin64Fmt.decode_of_topExponent rfl nan.1 nan.2⟩
  · exact ⟨w8Fmt, rfl, w8Fmt_decode_of_ones nan⟩
  · exact nan.elim

/-- No scale changes what a NaN code reads as. -/
theorem decodeFmt_of_isNanCode {fmt code : Nat} (nan : isNanCode fmt code) (k : Int) : decodeFmt fmt k code = .nan := by
  obtain ⟨f, float, reads⟩ := fmtFloat_decode_of_isNanCode nan
  simp [decodeFmt, float, reads, Val.scale2]

/-- No scale changes what an infinity reads as. -/
theorem decodeFmt_infinity {fmt : Nat} (first : 1 ≤ fmt) (last : fmt ≤ 6) (notW8 : fmt ≠ 5) (k : Int) (neg : Bool) :
    decodeFmt fmt k (infinity fmt neg) = .inf neg := by
  obtain ⟨f, float, -, hasInf, infs⟩ := fmtFloat_specials first last
  simp [decodeFmt, float, (infs (hasInf.2 notW8) neg).2, Val.scale2]

/-! ### What a NaN and an infinity convert to -/

section
variable {fmt : Nat} (first : 1 ≤ fmt) (last : fmt ≤ 6) (k : Int) (m : Rnd) (ieee : Bool)
include first last

theorem convertFmt_nan : (convertFmt fmt k m ieee .nan).code = canonicalNan fmt := by
  obtain ⟨f, float, nan, -⟩ := fmtFloat_specials first last
  simp [convertFmt, float, Val.scale2, FloatFmt.convert, nan]

/-- An infinity is never rounded: it keeps its sign, or becomes the NaN of W8, which has no infinity (02 R54). -/
theorem convertFmt_inf (neg : Bool) : convertFmt fmt k m ieee (.inf neg) =
    ⟨if fmt = 5 then 0x7F else infinity fmt neg, decide (fmt = 5), false, false, false⟩ := by
  obtain ⟨f, float, nan, hasInf, infs⟩ := fmtFloat_specials first last
  by_cases w8 : fmt = 5
  · subst w8
    simp [convertFmt, float, Val.scale2, FloatFmt.convert, hasInf, nan, canonicalNan]
  · have has := hasInf.2 w8
    simp [convertFmt, float, Val.scale2, FloatFmt.convert, has, (infs has neg).1, w8]

end

/-- Settles O57: a special code reads as its NaN or infinity under every scale, and neither is rounded on its way to the
target. -/
theorem nanAndInfinityConvert : Obligations.NanAndInfinityConvert := by
  unfold Obligations.NanAndInfinityConvert
  intro src dst code ks kd m ieee neg srcFirst srcLast dstFirst dstLast
  constructor
  · intro nan
    rw [converted, decodeFmt_of_isNanCode nan, convertFmt_nan dstFirst dstLast]
  · intro notW8
    rw [converted, decodeFmt_infinity srcFirst srcLast notW8, convertFmt_inf dstFirst dstLast]
    exact ⟨rfl, rfl, rfl⟩

end Sys2Proof.Machine

/-! ## What a VEC or OPT command leaves (07 R178, R184, R186) -/

namespace Sys2Proof.Machine
open Sys2Proof.Claims

namespace State

/-! ### The occurrence in front, and one that is put back -/

theorem mem_occs_of_veFront {s : State} {t : Nat} {o : Occ} (front : s.veFront t = some o) : o ∈ s.seq.occs := by
  unfold veFront at front
  split at front
  case h_1 x head =>
    split at front <;> cases front
    exact (List.mem_filter.1 (List.mem_of_head? head)).1
  case h_2 => cases front

theorem occ_putOcc {s : State} {o x : Occ} (known : x ∈ s.seq.occs) (same : x.id = o.id) :
    (s.putOcc o).occ o.id = some o := by
  have found : (s.seq.occs.find? fun z => decide (z.id = o.id)).isSome :=
    List.find?_isSome.2 ⟨x, known, decide_eq_true same⟩
  obtain ⟨y, found⟩ := Option.isSome_iff_exists.1 found
  have id : y.id = o.id := of_decide_eq_true (List.find?_some (p := fun z : Occ => decide (z.id = o.id)) found)
  have kept : (fun z : Occ => decide (z.id = o.id)) ∘ (fun z => if z.id = o.id then o else z) =
      fun z => decide (z.id = o.id) := by
    funext z
    by_cases h : z.id = o.id <;> simp [h]
  rw [occ, putOcc, List.find?_map, kept, found, Option.map_some, if_pos id]

/-! ### Watchers and slots -/

@[simp] theorem watchAdd_mem (s : State) (t n : Nat) (cs : List Nat) : (s.watchAdd t n cs).mem = s.mem := by
  simp only [watchAdd]
  split <;> simp [setWatch]

@[simp] theorem watchAdd_seq (s : State) (t n : Nat) (cs : List Nat) : (s.watchAdd t n cs).seq = s.seq := by
  simp only [watchAdd]
  split <;> simp [setWatch]

@[simp] theorem slotOf_watchAdd (s : State) (t n : Nat) (cs : List Nat) (t' n' : Nat) :
    (s.watchAdd t n cs).slotOf t' n' = s.slotOf t' n' := by
  simp only [watchAdd]
  split <;> simp [slotOf, setWatch]

theorem slotOf_congr {s u : State} (h : u.scale = s.scale) (t n : Nat) : u.slotOf t n = s.slotOf t n := by
  rw [slotOf, slotOf, h]

@[simp] theorem mergeAmax_mem (s : State) (t n a : Nat) : (s.mergeAmax t n a).mem = s.mem := rfl
@[simp] theorem mergeAmax_seq (s : State) (t n a : Nat) : (s.mergeAmax t n a).seq = s.seq := rfl

/-- The slots of a tile, and of another, lie apart in the table. -/
theorem slotOf_mergeAmax_other (s : State) {t n t' n' : Nat} (a : Nat) (small : n < 4096) (small' : n' < 4096)
    (other : ¬(t' = t ∧ n' = n)) : (s.mergeAmax t n a).slotOf t' n' = s.slotOf t' n' := by
  have apart : t' * 4096 + n' ≠ t * 4096 + n := by omega
  exact sparseGet_put_other _ apart _ _

/-! ### Reads -/

/-- The reads of a unit change what no byte reads as (05 R115, R116). -/
theorem touchReads_reads (s : State) (rs : List (Nat × Nat)) : s.mem.SameReads (s.touchReads rs).mem := by
  refine touch_reads s _ fun wa touched => ?_
  obtain ⟨x, -, rfl⟩ := List.mem_map.1 (List.mem_filter.1 touched).1
  simp [wordOf]

@[simp] theorem touchReads_fuses (s : State) (rs : List (Nat × Nat)) : (s.touchReads rs).fuses = s.fuses := touch_fuses ..
@[simp] theorem touchReads_seq (s : State) (rs : List (Nat × Nat)) : (s.touchReads rs).seq = s.seq := touch_seq ..
@[simp] theorem touchReads_scale (s : State) (rs : List (Nat × Nat)) : (s.touchReads rs).scale = s.scale := touch_scale ..

theorem touchReads_mem_congr {s u : State} (mem : s.mem = u.mem) (fuses : s.fuses = u.fuses) (rs : List (Nat × Nat)) :
    (s.touchReads rs).mem = (u.touchReads rs).mem := by
  unfold touchReads
  rw [mem]
  exact touch_mem_congr mem fuses _

end State

/-- A store after reads keeps every byte outside the words it writes. -/
theorem keepsOutside_of_stored {s u : State} {rs : List (Nat × Nat)} {bs : List WByte}
    (mem : u.mem = stored (s.touchReads rs) bs) : KeepsOutside s u bs := by
  intro x outside
  have reads := State.touchReads_reads s rs x
  rw [mem, ((s.touchReads rs).readByte_store_other bs x outside).1]
  simp only [MemSt.readByte, reads.1]

/-! ### What one VEC writes and notes -/

/-- What a VEC's output leaves beside memory: the watcher's counts and the amax of dst's slot (08 R214, R218). -/
def noteDst (s : State) (o : Occ) (outs : List LaneOut) : State :=
  match o.win 0 with
  | some dst =>
    if dst.slotEn then
      let s := s.watchAdd o.tile dst.slot (outs.filterMap fun (x : LaneOut) => x.cls)
      if dst.amaxEn then s.mergeAmax o.tile dst.slot (outs.foldl (fun (n : Nat) (x : LaneOut) => max n x.amax) 0) else s
    else s
  | none => s

/-- Nothing, or dst's counts alone, or its counts and its amax. -/
theorem noteDst_cases (s : State) (o : Occ) (outs : List LaneOut) : noteDst s o outs = s ∨
    ∃ dst cs, o.win 0 = some dst ∧ dst.slotEn = true ∧ (noteDst s o outs = s.watchAdd o.tile dst.slot cs ∨
      ∃ a, noteDst s o outs = (s.watchAdd o.tile dst.slot cs).mergeAmax o.tile dst.slot a) := by
  unfold noteDst
  split
  case h_2 => exact .inl rfl
  case h_1 dst named =>
    split
    case isFalse => exact .inl rfl
    case isTrue slot =>
      refine .inr ⟨dst, outs.filterMap fun x => x.cls, named, slot, ?_⟩
      dsimp only
      split
      · exact .inr ⟨_, rfl⟩
      · exact .inl rfl

@[simp] theorem noteDst_mem (s : State) (o : Occ) (outs : List LaneOut) : (noteDst s o outs).mem = s.mem := by
  rcases noteDst_cases s o outs with h | ⟨dst, cs, -, -, h | ⟨a, h⟩⟩ <;> simp [h]

@[simp] theorem noteDst_seq (s : State) (o : Occ) (outs : List LaneOut) : (noteDst s o outs).seq = s.seq := by
  rcases noteDst_cases s o outs with h | ⟨dst, cs, -, -, h | ⟨a, h⟩⟩ <;> simp [h]

/-- A slot that is not dst's stays. -/
theorem slotOf_noteDst_other (s : State) {o : Occ} (outs : List LaneOut) {tile slot : Nat}
    (other : ∀ dst, o.win 0 = some dst → dst.slotEn = true → ¬(tile = o.tile ∧ slot = dst.slot))
    (small : slot < 4096) (dstSmall : ∀ dst, o.win 0 = some dst → dst.slot < 4096) :
    (noteDst s o outs).slotOf tile slot = s.slotOf tile slot := by
  rcases noteDst_cases s o outs with h | ⟨dst, cs, named, en, h | ⟨a, h⟩⟩
  · rw [h]
  · rw [h, State.slotOf_watchAdd]
  · rw [h, State.slotOf_mergeAmax_other _ _ (dstSmall dst named) small (other dst named en), State.slotOf_watchAdd]

/-- The sticky flag word of an occurrence over its vectors (07 R184). -/
def vecSticky (o : Occ) (outs : List LaneOut) : Nat :=
  stickyWord ((List.range (vecCount o.desc + 1)).map fun v =>
    (outs.filter fun x => decide (x.vec = v)).foldl (fun n x => Nat.lor n x.flags) 0)

/-- What a VEC leaves: one store, the notes of dst, and the occurrence put back done. -/
theorem vecApply_eq (s : State) (o : Occ) (outs : List LaneOut) : ∃ p, vecApply s o outs =
    (noteDst ((s.showVec o.tile (vecCount o.desc)).store (wElems (outs.flatMap fun x => x.elems))) o outs).putOcc
      { o with place := .done, poison := p, uflags := vecSticky o outs } :=
  ⟨_, rfl⟩

section
variable (s : State) (o : Occ) (outs : List LaneOut)

theorem vecApply_mem : (vecApply s o outs).mem = stored s (wElems (outs.flatMap fun x => x.elems)) := by
  obtain ⟨p, h⟩ := vecApply_eq s o outs
  rw [h, State.putOcc_mem, noteDst_mem]
  exact State.store_mem_congr (by simp [State.showVec]) (by simp [State.showVec]) _

theorem vecApply_occ (known : o ∈ s.seq.occs) : ∃ o', (vecApply s o outs).occ o.id = some o' ∧ o'.place = .done ∧
    o'.code = o.code ∧ o'.uflags = vecSticky o outs := by
  obtain ⟨p, h⟩ := vecApply_eq s o outs
  refine ⟨{ o with place := .done, poison := p, uflags := vecSticky o outs }, ?_, rfl, rfl, rfl⟩
  rw [h]
  exact State.occ_putOcc (x := o) (by simpa [State.showVec] using known) rfl

theorem vecApply_slotOf_other {tile slot : Nat}
    (other : ∀ dst, o.win 0 = some dst → dst.slotEn = true → ¬(tile = o.tile ∧ slot = dst.slot))
    (small : slot < 4096) (dstSmall : ∀ dst, o.win 0 = some dst → dst.slot < 4096) :
    (vecApply s o outs).slotOf tile slot = s.slotOf tile slot := by
  obtain ⟨p, h⟩ := vecApply_eq s o outs
  rw [h, State.slotOf_congr (State.putOcc_scale _ _), slotOf_noteDst_other _ outs other small dstSmall]
  exact State.slotOf_congr (by simp [State.showVec]) tile slot

end

/-! ### The commands -/

theorem exec_of_vecCmd {c : Instr} {t op : Nat} (cmd : vecCmd c = some (t, op)) (s : State) :
    exec c s = .next (s.start.runVec t op) := by
  unfold vecCmd at cmd
  split at cmd <;> cases cmd <;> rfl

/-- A VEC in front runs, whatever it writes. -/
theorem runVec_of_front {s : State} {t op : Nat} {o : Occ} (front : s.veFront t = some o) (vec : o.opcode = 0x03)
    (isOp : vecOp o.desc = op) (on : s.domainOn .ve t = true) :
    s.runVec t op = vecApply (s.touchReads (vecReads (s.vecJob o))) o (vecOuts (s.vecJob o)) := by
  simp [State.runVec, front, vec, isOp, on]

/-- What every VEC and OPT command does: the occurrence is done with its sticky flags, one store makes memory, and slots but
dst's stay (07 R178, R184). -/
theorem vecCmd_ends {c : Instr} {t op : Nat} {s : State} {o : Occ} (cmd : vecCmd c = some (t, op))
    (front : s.veFront t = some o) (vec : o.opcode = 0x03) (isOp : vecOp o.desc = op) (on : s.domainOn .ve t = true) :
    Ends c s fun u =>
      (∃ o', u.occ o.id = some o' ∧ o'.place = .done ∧ o'.code = o.code ∧
        o'.uflags = vecSticky o (vecOuts (s.vecJob o))) ∧
      u.mem = stored (s.touchReads (vecReads (s.vecJob o))) (vecBytes s o) ∧ KeepsOutside s u (vecBytes s o) ∧
      ∀ tile slot, (∀ dst, o.win 0 = some dst → dst.slotEn = true → ¬(tile = o.tile ∧ slot = dst.slot)) →
        slot < 4096 → (∀ dst, o.win 0 = some dst → dst.slot < 4096) → u.slotOf tile slot = s.slotOf tile slot := by
  refine ⟨_, (exec_of_vecCmd cmd s).trans (congrArg _ (runVec_of_front (s := s.start) front vec isOp on)), ?_⟩
  have mem : (vecApply (s.start.touchReads (vecReads (s.vecJob o))) o (vecOuts (s.vecJob o))).mem =
      stored (s.touchReads (vecReads (s.vecJob o))) (vecBytes s o) := by
    have reads : (s.start.touchReads (vecReads (s.vecJob o))).mem = (s.touchReads (vecReads (s.vecJob o))).mem :=
      State.touchReads_mem_congr (State.start_mem s) (State.start_fuses s) _
    rw [vecApply_mem]
    exact State.store_mem_congr reads (by simp) _
  refine ⟨vecApply_occ _ o _ ?_, mem, keepsOutside_of_stored mem, fun tile slot other small dstSmall => ?_⟩
  · simpa using State.mem_occs_of_veFront front
  · refine (vecApply_slotOf_other _ o _ other small dstSmall).trans (State.slotOf_congr ?_ tile slot)
    simp

end Sys2Proof.Machine

/-! ## Integers in binary32: decoding, exact sums and one rounding (02 R35, R44, R47) -/

namespace Sys2Proof.Machine
open Sys2Proof.Claims

/-! ### Codes -/

/-- A binary32 code of a normal number is read field by field. -/
theorem fp32Fmt_decode_normal (neg : Bool) {E M : Nat} (first : 1 ≤ E) (last : E ≤ 254) (frac : M < 2 ^ 23) :
    fp32Fmt.decode ((if neg then 2 ^ 31 else 0) + E * 2 ^ 23 + M) = .fin neg (2 ^ 23 + M) ((E : Int) - 127 - 23) := by
  have sign : natBits ((if neg then 2 ^ 31 else 0) + E * 2 ^ 23 + M) 31 1 = if neg then 1 else 0 := by
    unfold natBits; split <;> omega
  have expo : natBits ((if neg then 2 ^ 31 else 0) + E * 2 ^ 23 + M) 23 8 = E := by
    unfold natBits; split <;> omega
  have low : natBits ((if neg then 2 ^ 31 else 0) + E * 2 ^ 23 + M) 0 23 = M := by
    unfold natBits; split <;> omega
  have finite : E ≠ 255 := by omega
  have normal : E ≠ 0 := by omega
  unfold FloatFmt.decode
  simp only [fp32Fmt, Nat.reduceAdd, sign, expo, low]
  cases neg <;> simp [finite, normal]

/-- A magnitude of 24 bits, or one more by a carry, is coded by its exponent and the bits below its first. -/
theorem fp32Fmt_code_of_rounded {q : Nat} {e : Int} (inexact : Bool) (least : 2 ^ 23 ≤ q) (most : q ≤ 2 ^ 24)
    (normal : -149 ≤ e) (finite : e ≤ 102) :
    fp32Fmt.overflows ⟨q, e, inexact⟩ = false ∧
      fp32Fmt.magCode ⟨q, e, inexact⟩ = (e + 150).toNat * 2 ^ 23 + (q - 2 ^ 23) := by
  have pos : q ≠ 0 := by omega
  rcases Nat.lt_or_eq_of_le most with lt | rfl
  · have log : q.log2 = 23 := (Nat.log2_eq_iff pos).2 ⟨least, lt⟩
    have below : ¬ ((23 : Int) + e < -126) := by omega
    have exps : (23 + e + 127).toNat = (e + 150).toNat := by omega
    constructor
    · have small : ¬ ((23 : Int) + e > 127) ∧ (23 : Int) + e < 127 := by omega
      simp [FloatFmt.overflows, topExp, log, pos, fp32Fmt, small]
    · simp [FloatFmt.magCode, topExp, log, pos, fp32Fmt, FloatFmt.emin, below, exps]
  · have log : Nat.log2 (2 ^ 24) = 24 := Nat.log2_two_pow
    have below : ¬ ((24 : Int) + e < -126) := by omega
    have exps : (24 + e + 127).toNat = (e + 150).toNat + 1 := by omega
    constructor
    · have small : ¬ ((24 : Int) + e > 127) ∧ (24 : Int) + e < 127 := by omega
      simp only [FloatFmt.overflows, topExp, log, fp32Fmt]
      simp [small]
    · simp only [FloatFmt.magCode, topExp, log, fp32Fmt, FloatFmt.emin]
      simp [below, exps, Nat.add_mul]

/-- The code of an integer by a scaled magnitude of 24 bits, or one more. -/
theorem intCode_of_scaled {i : Int} {q k : Nat} (scaled : nearest24 i.natAbs * 2 ^ 23 = q * 2 ^ k) (least : 2 ^ 23 ≤ q)
    (most : q ≤ 2 ^ 24) : intCode i = (if i < 0 then 2 ^ 31 else 0) + (127 + k) * 2 ^ 23 + (q - 2 ^ 23) := by
  have two := Nat.two_pow_pos k
  have bound : 2 ^ k ≤ nearest24 i.natAbs := by
    have := Nat.mul_le_mul_right (2 ^ k) least
    omega
  have pos : nearest24 i.natAbs ≠ 0 := by omega
  have code (m : Nat) (log : (nearest24 i.natAbs).log2 = m) : intCode i = (if i < 0 then 2 ^ 31 else 0) +
      (127 + m) * 2 ^ 23 + (q * 2 ^ k / 2 ^ m - 2 ^ 23) := by
    simp only [intCode, pos, if_false, log, scaled]
  rcases Nat.lt_or_eq_of_le most with lt | rfl
  · have log : (nearest24 i.natAbs).log2 = k := by
      have := Nat.mul_lt_mul_of_pos_right lt two
      exact (Nat.log2_eq_iff pos).2 ⟨bound, by omega⟩
    rw [code k log, Nat.mul_div_cancel _ two]
  · have twice : nearest24 i.natAbs = 2 ^ (k + 1) := by omega
    have carry : 2 ^ 24 * 2 ^ k = 2 ^ 23 * 2 ^ (k + 1) := by omega
    rw [code (k + 1) (by rw [twice, Nat.log2_two_pow]), carry, Nat.mul_div_cancel _ (Nat.two_pow_pos _)]
    omega

/-! ### Rounding -/

theorem Rnd.up_rne_mul (q0 r d j : Nat) : Rnd.rne.up q0 (r * 2 ^ j) (d + j) = Rnd.rne.up q0 r d := by
  have pos := Nat.two_pow_pos j
  have below : 2 ^ (d + j) < 2 * (r * 2 ^ j) ↔ 2 ^ d < 2 * r := by
    rw [Nat.pow_add, ← Nat.mul_assoc, Nat.mul_lt_mul_right pos]
  have half : 2 * (r * 2 ^ j) = 2 ^ (d + j) ↔ 2 * r = 2 ^ d := by
    rw [Nat.pow_add, ← Nat.mul_assoc, Nat.mul_left_inj (Nat.ne_of_gt pos)]
  simp only [Rnd.up, below, half]

theorem Rnd.up_rne_zero (q0 d : Nat) : Rnd.rne.up q0 0 d = false := by
  have pos := Nat.two_pow_pos d
  have below : ¬ 2 ^ d < 2 * 0 := by omega
  have half : ¬ 2 * 0 = 2 ^ d := by omega
  simp only [Rnd.up, below, half, decide_false, Bool.false_and, Bool.or_false]

/-- Nothing is lost at a place that the exponent reaches. -/
theorem roundAt_of_le {p e : Int} (le : p ≤ e) (m : Rnd) (n : Nat) : roundAt m n e p = ⟨n * 2 ^ (e - p).toNat, p, false⟩ :=
  if_pos le

/-- Rounding to nearest at a place `d` bits above the exponent. -/
theorem roundAt_rne_of_lt {p e : Int} {d : Nat} (place : p = e + d) (pos : 0 < d) (n : Nat) : roundAt .rne n e p =
    ⟨if Rnd.rne.up (n / 2 ^ d) (n % 2 ^ d) d then n / 2 ^ d + 1 else n / 2 ^ d, p, decide (n % 2 ^ d ≠ 0)⟩ := by
  have coarse : ¬ p ≤ e := by omega
  have places : (p - e).toNat = d := by omega
  simp only [roundAt, if_neg coarse, places]

/-- Rounding sees a value, not the exponent it is kept with. -/
theorem roundAt_shift (n j : Nat) (e p : Int) : roundAt .rne (n * 2 ^ j) (e - j) p = roundAt .rne n e p := by
  by_cases fine : p ≤ e - j
  · have places : (e - p).toNat = j + (e - j - p).toNat := by omega
    rw [roundAt_of_le fine, roundAt_of_le (by omega), places, Nat.pow_add, Nat.mul_assoc]
  by_cases reached : p ≤ e
  · obtain ⟨d, place⟩ : ∃ d : Nat, p = e - j + d := ⟨(p - (e - j)).toNat, by omega⟩
    have whole : n * 2 ^ j = n * 2 ^ (e - p).toNat * 2 ^ d := by
      rw [Nat.mul_assoc, ← Nat.pow_add, show (e - p).toNat + d = j by omega]
    rw [roundAt_rne_of_lt place (by omega), roundAt_of_le reached, whole, Nat.mul_div_cancel _ (Nat.two_pow_pos d),
      Nat.mul_mod_left, Rnd.up_rne_zero]
    rfl
  · obtain ⟨d, place⟩ : ∃ d : Nat, p = e + d := ⟨(p - e).toNat, by omega⟩
    have pos := Nat.two_pow_pos j
    have left : n % 2 ^ d * 2 ^ j ≠ 0 ↔ n % 2 ^ d ≠ 0 := by
      rw [Ne, Nat.mul_eq_zero, or_iff_left (Nat.ne_of_gt pos)]
    rw [roundAt_rne_of_lt (d := d + j) (by omega) (by omega), roundAt_rne_of_lt place (by omega), Nat.pow_add,
      Nat.mul_div_mul_right _ _ pos, Nat.mul_mod_mul_right, Rnd.up_rne_mul, decide_eq_decide.2 left]

theorem topExp_shift {n : Nat} (pos : n ≠ 0) (j : Nat) (e : Int) : topExp (n * 2 ^ j) (e - j) = topExp n e := by
  have two := Nat.two_pow_pos j
  have log : (n * 2 ^ j).log2 = n.log2 + j := by
    obtain ⟨ge, lt⟩ := (Nat.log2_eq_iff pos).1 (rfl : n.log2 = n.log2)
    rw [Nat.log2_eq_iff (Nat.mul_ne_zero pos (Nat.ne_of_gt two)), Nat.add_right_comm, Nat.pow_add, Nat.pow_add _ _ j]
    exact ⟨Nat.mul_le_mul_right _ ge, Nat.mul_lt_mul_of_pos_right lt two⟩
  rw [topExp, topExp, log]
  omega

theorem FloatFmt.roundMag_shift (f : FloatFmt) (n j : Nat) (e : Int) :
    f.roundMag .rne (n * 2 ^ j) (e - j) = f.roundMag .rne n e := by
  by_cases zero : n = 0
  · rw [zero, Nat.zero_mul]
    rfl
  · have pos : n * 2 ^ j ≠ 0 := Nat.mul_ne_zero zero (Nat.ne_of_gt (Nat.two_pow_pos j))
    rw [FloatFmt.roundMag, FloatFmt.roundMag, if_neg zero, if_neg pos, FloatFmt.lastPlace, FloatFmt.lastPlace,
      topExp_shift zero, roundAt_shift]

/-- An integer's magnitude rounds to 24 bits, ties to even. -/
theorem fp32Fmt_roundMag_nat {n : Nat} (pos : n ≠ 0) (most : n ≤ 2 ^ 25) : ∃ (q k : Nat) (b : Bool),
    fp32Fmt.roundMag .rne n 0 = ⟨q, (k : Int) - 23, b⟩ ∧ nearest24 n * 2 ^ 23 = q * 2 ^ k ∧ 2 ^ 23 ≤ q ∧ q ≤ 2 ^ 24 ∧
      k ≤ 25 := by
  have place : fp32Fmt.roundMag .rne n 0 = roundAt .rne n 0 ((n.log2 : Int) - 23) := by
    have low : fp32Fmt.lastPlace n 0 = (n.log2 : Int) - 23 := by
      show max ((n.log2 : Int) + 0 - 23) (1 - 127 - 23) = _
      omega
    rw [FloatFmt.roundMag, if_neg pos, low]
  obtain ⟨ge, lt⟩ := (Nat.log2_eq_iff pos).1 (rfl : n.log2 = n.log2)
  rw [place]
  rcases Nat.lt_or_ge n (2 ^ 24) with small | large
  · have log : n.log2 < 24 := (Nat.pow_lt_pow_iff_right (by omega)).1 (Nat.lt_of_le_of_lt ge small)
    obtain ⟨d, places⟩ : ∃ d, d + n.log2 = 23 := ⟨23 - n.log2, by omega⟩
    have scale : (2 : Nat) ^ 23 = 2 ^ d * 2 ^ n.log2 := by rw [← Nat.pow_add, places]
    have carry : (2 : Nat) ^ 24 = 2 ^ (n.log2 + 1) * 2 ^ d := by rw [← Nat.pow_add, show n.log2 + 1 + d = 24 by omega]
    refine ⟨n * 2 ^ d, n.log2, false, ?_, ?_, ?_, ?_, by omega⟩
    · rw [roundAt_of_le (by omega), show ((0 : Int) - ((n.log2 : Int) - 23)).toNat = d by omega]
    · rw [nearest24, if_pos (Nat.le_of_lt small), scale, Nat.mul_assoc]
    · rw [scale, Nat.mul_comm]
      exact Nat.mul_le_mul_right _ ge
    · rw [carry]
      exact Nat.mul_le_mul_right _ (Nat.le_of_lt lt)
  rcases Nat.lt_or_eq_of_le most with below | rfl
  · have log : n.log2 = 24 := (Nat.log2_eq_iff pos).2 ⟨large, below⟩
    have near : nearest24 n = 2 * (if n % 4 = 3 then n / 2 + 1 else n / 2) := by
      unfold nearest24
      split <;> split <;> omega
    have up : Rnd.rne.up (n / 2 ^ 1) (n % 2 ^ 1) 1 = decide (n % 4 = 3) := by
      simp only [Rnd.up, ← Bool.decide_and, ← Bool.decide_or, decide_eq_decide]
      omega
    have last : ((24 : Nat) : Int) - 23 = 0 + (1 : Nat) := rfl
    refine ⟨if n % 4 = 3 then n / 2 + 1 else n / 2, 24, decide (n % 2 ≠ 0), ?_, ?_, ?_, ?_, by omega⟩
    · rw [log, roundAt_rne_of_lt last (by omega), up]
      simp only [decide_eq_true_eq, Nat.pow_one]
    · rw [near]
      omega
    · split <;> omega
    · split <;> omega
  · exact ⟨2 ^ 23, 25, false, by decide +kernel⟩

/-- The rounded magnitude as exactly 24 bits and a power of 2. -/
theorem nearest24_scaled {n : Nat} (pos : n ≠ 0) (most : n ≤ 2 ^ 25) : ∃ q k : Nat,
    nearest24 n * 2 ^ 23 = q * 2 ^ k ∧ 2 ^ 23 ≤ q ∧ q < 2 ^ 24 ∧ k ≤ 26 := by
  obtain ⟨q, k, b, -, scaled, least, most, le⟩ := fp32Fmt_roundMag_nat pos most
  rcases Nat.lt_or_eq_of_le most with lt | rfl
  · exact ⟨q, k, scaled, least, lt, by omega⟩
  · exact ⟨2 ^ 23, k + 1, by omega, by omega, by omega, by omega⟩

/-- A conversion that does not overflow gives the sign and the rounded magnitude. -/
theorem FloatFmt.convert_of_fits (f : FloatFmt) {m : Rnd} {man : Nat} {exp : Int} {r : Rounded}
    (rounds : f.roundMag m man exp = r) (fits : f.overflows r = false) (ieee neg : Bool) :
    (f.convert m ieee (.fin neg man exp)).code = f.signOf neg + f.magCode r := by
  simp [FloatFmt.convert, rounds, fits]

/-! ### Values that are integers -/

/-- The magnitude man × 2^exp is the number `n`: both sides cleared of negative powers. -/
def MagIs (man : Nat) (exp : Int) (n : Nat) : Prop := man * 2 ^ exp.toNat = n * 2 ^ (-exp).toNat

/-- Any two powers that clear the exponent do. -/
theorem MagIs.of_scaled {man n a b : Nat} {exp : Int} (scaled : man * 2 ^ a = n * 2 ^ b) (place : exp = a - b) :
    MagIs man exp n := by
  rcases Nat.le_total a b with le | le
  · have split : b = (-exp).toNat + a := by omega
    rw [split, Nat.pow_add, ← Nat.mul_assoc] at scaled
    rw [MagIs, show exp.toNat = 0 by omega, Nat.pow_zero, Nat.mul_one]
    exact Nat.eq_of_mul_eq_mul_right (Nat.two_pow_pos a) scaled
  · have split : a = exp.toNat + b := by omega
    rw [split, Nat.pow_add, ← Nat.mul_assoc] at scaled
    rw [MagIs, show (-exp).toNat = 0 by omega, Nat.pow_zero, Nat.mul_one]
    exact Nat.eq_of_mul_eq_mul_right (Nat.two_pow_pos b) scaled

/-- The same magnitude at a smaller exponent. -/
theorem MagIs.lower {man n : Nat} {exp e : Int} (mag : MagIs man exp n) (le : e ≤ exp) :
    MagIs (man * 2 ^ (exp - e).toNat) e n := by
  refine MagIs.of_scaled (a := exp.toNat) (b := (-exp).toNat + (exp - e).toNat) ?_ (by omega)
  rw [Nat.pow_add, ← Nat.mul_assoc, ← mag, Nat.mul_right_comm]

theorem MagIs.eq_zero_iff {man n : Nat} {exp : Int} (mag : MagIs man exp n) : man = 0 ↔ n = 0 := by
  have posL := Nat.ne_of_gt (Nat.two_pow_pos exp.toNat)
  have posR := Nat.ne_of_gt (Nat.two_pow_pos (-exp).toNat)
  rw [MagIs] at mag
  constructor
  · rintro rfl
    rw [Nat.zero_mul] at mag
    exact (Nat.mul_eq_zero.1 mag.symm).resolve_right posR
  · rintro rfl
    rw [Nat.zero_mul] at mag
    exact (Nat.mul_eq_zero.1 mag).resolve_right posL

theorem MagIs.zero (exp : Int) : MagIs 0 exp 0 := by
  rw [MagIs, Nat.zero_mul, Nat.zero_mul]

/-- A whole magnitude rounds as the number itself. -/
theorem MagIs.roundMag {man n : Nat} {exp : Int} (mag : MagIs man exp n) (f : FloatFmt) :
    f.roundMag .rne man exp = f.roundMag .rne n 0 := by
  rcases Int.le_total exp 0 with le | le
  · have whole : man = n * 2 ^ (-exp).toNat := by
      rw [← mag, show exp.toNat = 0 by omega, Nat.pow_zero, Nat.mul_one]
    have place : exp = 0 - ((-exp).toNat : Int) := by omega
    rw [whole, ← f.roundMag_shift n (-exp).toNat 0, ← place]
  · have whole : man * 2 ^ exp.toNat = n := by
      rw [mag, show (-exp).toNat = 0 by omega, Nat.pow_zero, Nat.mul_one]
    have place : exp - (exp.toNat : Int) = 0 := by omega
    rw [← whole, ← f.roundMag_shift man exp.toNat exp, place]

/-- A finite value that is the integer `i`; a zero is +0. -/
def Val.IsInt (v : Val) (i : Int) : Prop :=
  ∃ (man : Nat) (exp : Int), v = .fin (decide (i < 0)) man exp ∧ MagIs man exp i.natAbs

theorem Val.isInt_decode_intCode {i : Int} (small : i.natAbs ≤ 2 ^ 24) : (fp32Fmt.decode (intCode i)).IsInt i := by
  by_cases zero : i = 0
  · subst zero
    exact ⟨0, -149, by decide +kernel, .zero _⟩
  have pos : i.natAbs ≠ 0 := by omega
  obtain ⟨q, k, scaled, least, lt, le⟩ := nearest24_scaled pos (by omega)
  have reads := fp32Fmt_decode_normal (decide (i < 0)) (E := 127 + k) (M := q - 2 ^ 23) (by omega) (by omega) (by omega)
  simp only [decide_eq_true_eq, ← intCode_of_scaled scaled least (Nat.le_of_lt lt), Nat.add_sub_cancel' least] at reads
  rw [nearest24, if_pos small] at scaled
  exact ⟨q, _, reads, .of_scaled scaled.symm (by omega)⟩

/-- A value that is an integer of magnitude at most 2^25 rounds to the integer's code, once. -/
theorem Val.IsInt.convert_code {v : Val} {i : Int} (isInt : v.IsInt i) (small : i.natAbs ≤ 2 ^ 25) (ieee : Bool) :
    (fp32Fmt.convert .rne ieee v).code = intCode i := by
  obtain ⟨man, exp, rfl, mag⟩ := isInt
  have same := mag.roundMag fp32Fmt
  by_cases zero : i = 0
  · subst zero
    rw [FloatFmt.convert_of_fits _ same (by decide)]
    decide
  have pos : i.natAbs ≠ 0 := by omega
  obtain ⟨q, k, b, rounds, scaled, least, most, le⟩ := fp32Fmt_roundMag_nat pos small
  obtain ⟨fits, code⟩ := fp32Fmt_code_of_rounded b least most (e := (k : Int) - 23) (by omega) (by omega)
  have exps : ((k : Int) - 23 + 150).toNat = 127 + k := by omega
  have sign : fp32Fmt.signOf (decide (i < 0)) = if i < 0 then 2 ^ 31 else 0 := by
    simp only [FloatFmt.signOf, decide_eq_true_eq]
    rfl
  rw [FloatFmt.convert_of_fits _ (same.trans rounds) fits, code, exps, intCode_of_scaled scaled least most, sign,
    Nat.add_assoc]

/-! ### Exact sums -/

/-- An integer's mantissa at a smaller exponent, with its sign. -/
theorem MagIs.scaledInt {i : Int} {man : Nat} {exp e : Int} (mag : MagIs man exp i.natAbs) (le : e ≤ exp) :
    scaledInt (decide (i < 0)) man exp e * 2 ^ e.toNat = i * 2 ^ (-e).toNat := by
  have cast : ((man * 2 ^ (exp - e).toNat : Nat) : Int) * 2 ^ e.toNat = (i.natAbs : Int) * 2 ^ (-e).toNat := by
    exact_mod_cast mag.lower le
  unfold Machine.scaledInt
  by_cases neg : i < 0
  · rw [if_pos (decide_eq_true neg), Int.neg_mul, cast, ← Int.neg_mul, show -(i.natAbs : Int) = i by omega]
  · rw [if_neg (by simpa using neg), cast, show (i.natAbs : Int) = i by omega]

theorem mul_neg_iff_of_pos {a p : Int} (pos : 0 < p) : a * p < 0 ↔ a < 0 := by
  refine ⟨fun neg => ?_, fun neg => Int.mul_neg_of_neg_of_pos neg pos⟩
  have := Int.mul_nonneg (a := a) (b := p)
  omega

theorem Val.isInt_ofInt {x i e : Int} (scaled : x * 2 ^ e.toNat = i * 2 ^ (-e).toNat) : (Val.ofInt false x e).IsInt i := by
  have mag : MagIs x.natAbs e i.natAbs := by
    have abs := congrArg Int.natAbs scaled
    rwa [Int.natAbs_mul, Int.natAbs_mul, Int.natAbs_pow, Int.natAbs_pow] at abs
  have sign : x < 0 ↔ i < 0 := by
    rw [← mul_neg_iff_of_pos (a := x) (Int.pow_pos (by omega : (0 : Int) < 2) (m := e.toNat)), scaled,
      mul_neg_iff_of_pos (Int.pow_pos (by omega))]
  unfold Val.ofInt
  split
  case isTrue zero =>
    have none : i = 0 := Int.natAbs_eq_zero.1 (mag.eq_zero_iff.1 (Int.natAbs_eq_zero.2 zero))
    subst none
    exact ⟨0, 0, rfl, .zero _⟩
  case isFalse => exact ⟨x.natAbs, e, by simp only [sign], mag⟩

/-- A zero of either sign adds nothing. -/
theorem Val.IsInt.add_zero {a : Val} {x : Int} (ha : a.IsInt x) (neg : Bool) (exp : Int) :
    (a.add (.fin neg 0 exp)).IsInt x := by
  obtain ⟨ma, ea, rfl, magA⟩ := ha
  by_cases za : ma = 0
  · have none : x = 0 := Int.natAbs_eq_zero.1 (magA.eq_zero_iff.1 za)
    subst za none
    exact ⟨0, 0, rfl, .zero _⟩
  · exact ⟨ma, ea, by simp only [Val.add, za, false_and, if_false, if_true], magA⟩

/-- The exact sum of two integers. -/
theorem Val.IsInt.add {a b : Val} {x y : Int} (ha : a.IsInt x) (hb : b.IsInt y) : (a.add b).IsInt (x + y) := by
  obtain ⟨mb, eb, rfl, magB⟩ := id hb
  by_cases zb : mb = 0
  · have none : y = 0 := Int.natAbs_eq_zero.1 (magB.eq_zero_iff.1 zb)
    subst zb none
    rw [Int.add_zero]
    exact ha.add_zero _ eb
  obtain ⟨ma, ea, rfl, magA⟩ := ha
  by_cases za : ma = 0
  · have none : x = 0 := Int.natAbs_eq_zero.1 (magA.eq_zero_iff.1 za)
    subst za none
    rw [Int.zero_add]
    simpa only [Val.add, zb, and_false, if_false, if_true] using hb
  have sum : (scaledInt (decide (x < 0)) ma ea (min ea eb) + scaledInt (decide (y < 0)) mb eb (min ea eb)) *
      2 ^ (min ea eb).toNat = (x + y) * 2 ^ (-min ea eb).toNat := by
    rw [Int.add_mul, magA.scaledInt (Int.min_le_left ea eb), magB.scaledInt (Int.min_le_right ea eb), Int.add_mul]
  simpa only [Val.add, za, zb, and_self, if_false] using Val.isInt_ofInt sum

/-- The exact difference of two integers. -/
theorem Val.IsInt.sub {a b : Val} {x y : Int} (ha : a.IsInt x) (hb : b.IsInt y) : (a.sub b).IsInt (x - y) := by
  obtain ⟨mb, eb, rfl, magB⟩ := hb
  by_cases zb : mb = 0
  · have none : y = 0 := Int.natAbs_eq_zero.1 (magB.eq_zero_iff.1 zb)
    subst zb none
    rw [Int.sub_zero]
    exact ha.add_zero true eb
  · have some : y ≠ 0 := fun h => zb (magB.eq_zero_iff.2 (Int.natAbs_eq_zero.2 h))
    have opposite : (Val.fin (decide (y < 0)) mb eb).negate.IsInt (-y) := by
      refine ⟨mb, eb, ?_, by rwa [Int.natAbs_neg]⟩
      rw [Val.negate, ← decide_not, decide_eq_decide.2 (show ¬ y < 0 ↔ -y < 0 by omega)]
    rw [Int.sub_eq_add_neg]
    exact ha.add opposite

end Sys2Proof.Machine

/-! ## Sums and differences of the vector engine (07 R178, R180) -/

namespace Sys2Proof.Machine
open Sys2Proof.Claims

theorem mem_vecLanes {j : VecJob} {f : Nat → Nat → Bool → LaneOut} {z : LaneOut} :
    z ∈ vecLanes j f ↔ ∃ v ≤ j.count, ∃ l < 1024, (j.lane v l).1 = true ∧ f v l (j.lane v l).2 = z := by
  simp [vecLanes, Nat.lt_succ_iff, and_assoc]

/-! ### The lanes -/

section
variable {j : VecJob} {dst : Window} (addSub : j.op = 0x01 ∨ j.op = 0x02)
include addSub

/-- A sum or a difference writes its active lanes, after a mark of a poisoned scale byte that writes nothing. -/
theorem vecOuts_of_addSub (named : j.win 0 = some dst) :
    vecOuts j = (if scalePoison j then [⟨0, [], 0, none, 0, true⟩] else []) ++ vecLanes j (elementLane j dst) := by
  rcases addSub with op | op <;> simp [vecOuts, named, vop, op]

/-- One lane: its poison is that of its mask bit and of all three source windows, named by the operation or not. -/
theorem elementLane_of_addSub (window : vecImmB j.desc = false) (v l : Nat) (maskPoison : Bool) :
    elementLane j dst v l maskPoison =
      vecWrite j dst 0 v l (exactOp j.op (j.elem 1 v l).val (j.elem 2 v l).val (j.elem 3 v l).val)
        (maskPoison || (j.elem 1 v l).poison || (j.elem 2 v l).poison || (j.elem 3 v l).poison) v := by
  rcases addSub with op | op <;> simp [elementLane, op, window]

theorem vecOuts_poison_of_third (named : j.win 0 = some dst) (window : vecImmB j.desc = false)
    (third : ∀ v l, (j.elem 3 v l).poison = true) : ∀ z ∈ vecOuts j, ∀ e ∈ z.elems, e.poison = true := by
  intro z out e written
  rw [vecOuts_of_addSub addSub named, List.mem_append] at out
  rcases out with mark | lane
  · split at mark <;> simp_all
  · obtain ⟨v, -, l, -, -, rfl⟩ := mem_vecLanes.1 lane
    rw [elementLane_of_addSub addSub window, third] at written
    simp_all [vecWrite]

end

/-! ### Integers -/

theorem VecJob.elem_of_no_win {j : VecJob} {i : Nat} (unnamed : j.win i = none) (v l : Nat) :
    j.elem i v l = ⟨.zero false, false⟩ := by
  simp [VecJob.elem, unnamed]

theorem VecJob.elem_of_win {j : VecJob} {i : Nat} {w : Window} (named : j.win i = some w) (v l : Nat) :
    j.elem i v l = j.mem.elem w.fmt (w.addr v l) := by
  simp [VecJob.elem, named]

/-- An integer code that is read is that integer. -/
theorem elem_isInt {m : MemSt} {a : Nat} {i : Int} (code : m.code 2 a = intCode i) (small : i.natAbs ≤ 2 ^ 24) :
    (m.elem 2 a).val.IsInt i := by
  simpa [MemSt.elem, code, decodeFmt, fmtFloat, fmtWire] using Val.isInt_decode_intCode small

/-- A result that is an integer is written to a binary32 window rounded once, to nearest with ties to even (02 R47). -/
theorem vecWrite_of_isInt {j : VecJob} {dst : Window} {x : LaneVal} {i : Int} (fp32 : dst.fmt = 2)
    (nearest : j.cvt.rnd = false) (isInt : x.val.IsInt i) (small : i.natAbs ≤ 2 ^ 25) (v l : Nat) (poison : Bool)
    (at_ : Nat) : (vecWrite j dst 0 v l x poison at_).elems = [⟨dst.addr v l, 4, intCode i, poison⟩] := by
  simp [vecWrite, Window.size, fp32, fmtSize, convertFmt, fmtFloat, fmtWire, Cvt.mode, nearest, isInt.convert_code small]

section
variable {s : State} {o : Occ} {dst a b : Window} {v l : Nat} {x y : Int} (plain : PlainFp32 o dst a b)
  (vec : v ≤ vecCount o.desc) (lane : l < 1024) (codeA : s.mem.code 2 (a.addr v l) = intCode x)
  (codeB : s.mem.code 2 (b.addr v l) = intCode y) (cleanA : s.mem.poisonedN (a.addr v l) 4 = false)
  (cleanB : s.mem.poisonedN (b.addr v l) 4 = false) (smallX : x.natAbs ≤ 2 ^ 24) (smallY : y.natAbs ≤ 2 ^ 24)
include plain vec lane codeA codeB cleanA cleanB smallX smallY

/-- The lane of a sum or difference of integers that is the integer `i`: it writes the code of `i`, clean unless the
occurrence names a third window that is poisoned there. -/
theorem addSub_lane_writes {i : Int} (addSub : vecOp o.desc = 0x01 ∨ vecOp o.desc = 0x02) (small : i.natAbs ≤ 2 ^ 25)
    (result : ∀ p q c : Val, p.IsInt x → q.IsInt y → (exactOp (vecOp o.desc) p q c).val.IsInt i) :
    ∃ z ∈ vecOuts (s.vecJob o), z.elems = [⟨dst.addr v l, 4, intCode i, ((s.vecJob o).elem 3 v l).poison⟩] := by
  obtain ⟨unmasked, window, nearest, winDst, winA, winB, fmtDst, fmtA, fmtB⟩ := plain
  have active : (s.vecJob o).lane v l = (true, false) := if_neg (by simp [State.vecJob, unmasked])
  have readA : (s.vecJob o).elem 1 v l = s.mem.elem 2 (a.addr v l) := fmtA ▸ VecJob.elem_of_win (j := s.vecJob o) winA v l
  have readB : (s.vecJob o).elem 2 v l = s.mem.elem 2 (b.addr v l) := fmtB ▸ VecJob.elem_of_win (j := s.vecJob o) winB v l
  have cleanReadA : (s.mem.elem 2 (a.addr v l)).poison = false := cleanA
  have cleanReadB : (s.mem.elem 2 (b.addr v l)).poison = false := cleanB
  refine ⟨elementLane (s.vecJob o) dst v l false, ?_, ?_⟩
  · rw [vecOuts_of_addSub (j := s.vecJob o) addSub winDst]
    exact List.mem_append_right _ (mem_vecLanes.2 ⟨v, vec, l, lane, by rw [active], by rw [active]⟩)
  · rw [elementLane_of_addSub (j := s.vecJob o) addSub window, readA, readB, cleanReadA, cleanReadB]
    exact vecWrite_of_isInt fmtDst (by simp [State.vecJob, Cvt.ofWord, nearest])
      (result _ _ _ (elem_isInt codeA smallX) (elem_isInt codeB smallY)) small v l _ v

/-- VEC_ADD rounds the sum of two integers once. -/
theorem vecAdd_lane_writes (add : vecOp o.desc = 0x01) : ∃ z ∈ vecOuts (s.vecJob o),
    z.elems = [⟨dst.addr v l, 4, intCode (x + y), ((s.vecJob o).elem 3 v l).poison⟩] :=
  addSub_lane_writes plain vec lane codeA codeB cleanA cleanB smallX smallY (.inl add) (by omega) fun p q c hp hq => by
    rw [add]
    exact hp.add hq

/-- VEC_SUB rounds the difference of two integers once. -/
theorem vecSub_lane_writes (sub : vecOp o.desc = 0x02) : ∃ z ∈ vecOuts (s.vecJob o),
    z.elems = [⟨dst.addr v l, 4, intCode (x - y), ((s.vecJob o).elem 3 v l).poison⟩] :=
  addSub_lane_writes plain vec lane codeA codeB cleanA cleanB smallX smallY (.inr sub) (by omega) fun p q c hp hq => by
    rw [sub]
    exact hp.sub hq

end

/-! ### The third source window -/

/-- The windows of a sum or difference are dst, a, b and the mask: none has the third source's place (07 R172, R178). -/
theorem vecRoles_of_addSub {d : BitVec 512} (addSub : vecOp d = 0x01 ∨ vecOp d = 0x02) (aWire dstWire : Bool) :
    ∀ r ∈ vecRoles d aWire dstWire, r.1 ≠ 3 := by
  intro r role
  rcases addSub with op | op
  all_goals
    simp [vecRoles, vop, op] at role
    grind

/-- The check of a descriptor, which gives an occurrence its windows, names no third source for a sum or difference. -/
theorem checkVec_no_third {d : BitVec 512} (addSub : vecOp d = 0x01 ∨ vecOp d = 0x02) (s : State) (tile : Nat) :
    (checkVec s tile d).wins.getD 3 none = none := by
  simp only [checkVec, List.getD_cons_succ, List.getD_cons_zero, Option.map_eq_none_iff, List.find?_eq_none]
  intro r role
  simpa using vecRoles_of_addSub addSub _ _ r role

/-- What every VEC and OPT command does for an occurrence that names no third source window where its operation has none, as
`checkVec_no_third` gives: it writes its lanes and ends, and rounds a sum or difference of integers once. Without that
premise the clause of sums fails, as the refutation below shows. -/
theorem vecCmd_writes_its_lanes {c : Instr} {t op : Nat} {s : State} {o : Occ} (cmd : vecCmd c = some (t, op))
    (front : s.veFront t = some o) (vec : o.opcode = 0x03) (isOp : vecOp o.desc = op) (on : s.domainOn .ve t = true)
    (noThird : op = 0x01 ∨ op = 0x02 → o.win 3 = none) :
    Ends c s fun u =>
      (∃ o', u.occ o.id = some o' ∧ o'.place = .done ∧ o'.code = o.code ∧
        o'.uflags = vecSticky o (vecOuts (s.vecJob o))) ∧
      u.mem = stored (s.touchReads (vecReads (s.vecJob o))) (vecBytes s o) ∧ KeepsOutside s u (vecBytes s o) ∧
      (∀ tile slot, (∀ dst, o.win 0 = some dst → dst.slotEn = true → ¬(tile = o.tile ∧ slot = dst.slot)) →
        slot < 4096 → (∀ dst, o.win 0 = some dst → dst.slot < 4096) → u.slotOf tile slot = s.slotOf tile slot) ∧
      ∀ dst a b v l x y, PlainFp32 o dst a b → v ≤ vecCount o.desc → l < 1024 →
        s.mem.code 2 (a.addr v l) = intCode x → s.mem.code 2 (b.addr v l) = intCode y →
        s.mem.poisonedN (a.addr v l) 4 = false → s.mem.poisonedN (b.addr v l) 4 = false →
        x.natAbs ≤ 2 ^ 24 → y.natAbs ≤ 2 ^ 24 →
        (op = 0x01 → ∃ z ∈ vecOuts (s.vecJob o), z.elems = [⟨dst.addr v l, 4, intCode (x + y), false⟩]) ∧
        (op = 0x02 → ∃ z ∈ vecOuts (s.vecJob o), z.elems = [⟨dst.addr v l, 4, intCode (x - y), false⟩]) := by
  obtain ⟨u, runs, done, mem, keeps, slots⟩ := vecCmd_ends cmd front vec isOp on
  refine ⟨u, runs, done, mem, keeps, slots, fun dst a b v l x y plain hv hl codeA codeB cleanA cleanB smallX smallY => ?_⟩
  have clean (addSub : op = 0x01 ∨ op = 0x02) : ((s.vecJob o).elem 3 v l).poison = false := by
    rw [VecJob.elem_of_no_win (j := s.vecJob o) (noThird addSub)]
  constructor
  · rintro rfl
    exact clean (.inl rfl) ▸ vecAdd_lane_writes plain hv hl codeA codeB cleanA cleanB smallX smallY isOp
  · rintro rfl
    exact clean (.inr rfl) ▸ vecSub_lane_writes plain hv hl codeA codeB cleanA cleanB smallX smallY isOp

/-! ### An occurrence that names a window its operation does not have -/

/-- A binary32 window whose elements all lie at one address. -/
def oneElement (a : Nat) : Window := ⟨a, 2, false, false, 0, 0, 0, 0, 0⟩

@[simp] theorem oneElement_addr (a v l : Nat) : (oneElement a).addr v l = a := by
  simp [oneElement, Window.addr, Window.addrI]

/-- A VEC_ADD of one element, 0 + 0, that names a third source window, which VEC_ADD does not have (07 R178). -/
def addOfThree : Occ :=
  ⟨1, 0, 0, 0, BitVec.ofNat 512 0x103, [], [], .ve, .input, 0, false, false, false, 0, [],
    [some (oneElement 8), some (oneElement 0), some (oneElement 0), some (oneElement 64)], 0, [], []⟩

/-- The module with its rails up and this VEC_ADD in front; the word under the third window is poisoned. -/
def addOfThreeState : State :=
  { State.reset.fset 0 MODULE.BOOT_STAT_stage 4 with
    seq := { SeqSt.reset with occs := [addOfThree] }, mem := { MemSt.reset with chk := [(64, poisonField)] } }

theorem addOfThree_front : addOfThreeState.veFront 0 = some addOfThree ∧ addOfThreeState.domainOn .ve 0 = true := by
  decide +kernel

theorem addOfThree_op : addOfThree.opcode = 0x03 ∧ vecOp addOfThree.desc = 0x01 := by decide +kernel

theorem addOfThree_plain : PlainFp32 addOfThree (oneElement 8) (oneElement 0) (oneElement 0) := by decide +kernel

/-- The two operands read +0 and clean, the third window poisoned. -/
theorem addOfThree_reads : addOfThreeState.mem.code 2 0 = intCode 0 ∧ addOfThreeState.mem.poisonedN 0 4 = false ∧
    addOfThreeState.mem.poisonedN 64 4 = true := by
  decide +kernel

theorem addOfThree_writes_poison :
    ∀ z ∈ vecOuts (addOfThreeState.vecJob addOfThree), ∀ e ∈ z.elems, e.poison = true := by
  refine vecOuts_poison_of_third (dst := oneElement 8) (Or.inl addOfThree_op.2) rfl addOfThree_plain.2.1 fun v l => ?_
  show addOfThreeState.mem.poisonedN ((oneElement 64).addr v l) 4 = true
  rw [oneElement_addr]
  exact addOfThree_reads.2.2

/-- Refutes O34: the last clause leaves open which windows the occurrence names beyond dst, a and b. A VEC_ADD that names a
third one over a poisoned word writes every lane poisoned, where the clause asks for clean elements. No dispatch makes such
an occurrence (`checkVec_no_third`), and without it the statement holds (`vecCmd_writes_its_lanes`). -/
theorem not_vectorCommandsWriteTheirLanes : ¬ Obligations.VectorCommandsWriteTheirLanes := by
  unfold Obligations.VectorCommandsWriteTheirLanes
  intro holds
  obtain ⟨front, on⟩ := addOfThree_front
  obtain ⟨vec, add⟩ := addOfThree_op
  obtain ⟨zero, clean, -⟩ := addOfThree_reads
  obtain ⟨-, -, -, -, -, -, lanes⟩ :=
    holds (.vecAdd 0) 0 0x01 addOfThreeState addOfThree rfl front vec add on
  obtain ⟨z, out, elems⟩ := (lanes (oneElement 8) (oneElement 0) (oneElement 0) 0 0 0 0 addOfThree_plain (Nat.zero_le _)
    (by decide) (by simpa using zero) (by simpa using zero) (by simpa using clean) (by simpa using clean) (by decide)
    (by decide)).1 rfl
  have poisoned := addOfThree_writes_poison z out ⟨_, 4, intCode (0 + 0), false⟩ (elems ▸ List.mem_singleton_self _)
  exact absurd poisoned Bool.false_ne_true

end Sys2Proof.Machine
